-- ==== Sys2Proof/Word.lean ====
section
/-! DEFINITION. The plain types every file shares: bytes, 64-bit words, and the sparse table that holds the state's
indexed parts. -/

namespace Sys2Proof

/-- A byte carried on a port or held in tile memory. -/
abbrev Byte := BitVec 8

/-- A register value, and the 64-bit unit of the link (R14, R91). -/
abbrev Word64 := BitVec 64

/-- A table from keys to values, held as an association list: the keys rise in the lexicographic order of lists and no
entry holds the value that an unlisted key reads as (`tabWf` in Machine/Tab.lean). A key is the list of indices the
spec gives the thing: [die], [die, tile], [die, tile, slot] and so on. -/
abbrev Tab (α : Type) := List (List Nat × α)

end Sys2Proof
end

