-- ==== Sys2Proof/Syntax.lean ====
section
/-! DEFINITION. The commands of spec/opcode_table.json, one constructor of `Instr` per row, and what each carries: the
operands are what reaches the device with the event (a packet, a frame, a register write, a reading of a sensor), as
plain data. -/

namespace Sys2Proof

/-- Which Milestone gate an event concerns (R38, R68): the launches of R68, the start and release gates of a Waybill slot
(R242), and a barrier's gate (R69). -/
inductive GateId where
  | sgSwitch
  | niAge
  | rbSwap
  | rbResume
  | fallow (die : Nat)
  | snap (bank : Nat)
  | admitAt (slot : Nat)
  | barrier
  | wbStart (die tile slot : Nat)
  | wbRelease (die tile slot : Nat)
  deriving DecidableEq, Repr

/-- A domain whose Hedge gate can close (R137). -/
inductive Domain where
  | die (d : Nat)
  | field (slot : Nat)
  | tile (d t : Nat)
  deriving DecidableEq, Repr

/-- One follower's comparison of R46 and R47: counter A minus counter B, and this replica minus the lead, both signed,
in sixteenths of a nanosecond. -/
structure ReplicaReading where
  ab : Int
  lead : Int
  deriving DecidableEq, Repr

/-- The PTP messages of *PTP subset* (R64). Origin and receipt times are whole Milestone counts (sixteenths); `wait` is how long, in
sixteenths, a Pdelay_Req waits between its ingress and the egress of its answer. -/
inductive PtpBody where
  | sync (seq : Nat)
  | followUp (seq origin : Nat)
  | announce (stepsRemoved clockClass : Nat)
  | pdelayReq (seq wait : Nat)
  | pdelayResp (seq reqReceipt : Nat)
  | pdelayRespFollowUp (seq respOrigin : Nat)
  | unsupported
  deriving DecidableEq, Repr

/-- A PTP message: whether it came as UDP over IPv6 or as EtherType 0x88F7, its domainNumber and its content. -/
structure PtpMsg where
  ipv6 : Bool
  domain : Nat
  body : PtpBody
  deriving DecidableEq, Repr

/-- The header of every packet, bytes 0 to 23 (R91). `rsv` is the nibble the layout requires to be zero. -/
structure Hdr where
  version : Nat := 1
  cls : Nat := 0
  tailback : Nat := 0
  tv : Nat := 0
  ord : Nat := 0
  kp : Nat := 0
  tr : Nat := 1
  hop : Nat := 15
  typ : Nat
  units : Nat := 0
  roleEpoch : Nat := 0
  field : Nat := 0
  rsv : Nat := 0
  tagEpoch : Nat := 0
  tagIndex : Nat := 0
  dstDevice : Nat := 0
  srcDevice : Nat := 0
  dstRank : Nat := 0
  srcRank : Nat := 0
  depart : Nat := 0
  deriving DecidableEq, Repr

/-- A packet (R91): its header; the 32 payload bytes of a control packet, or bytes 24 to 63 of a data packet's header
unit; the payload units of a data packet; and CHECK. -/
structure Packet where
  h : Hdr
  body : List Byte
  data : List Byte := []
  check : Nat := 0
  deriving DecidableEq, Repr

/-- What a lane meets in the time of one training frame (R82): the first 32 bytes of the partner's frame as they came, before polarity
is corrected, and of the lane's own receiver whether it is satisfied, CONTROL[12:0] as it would have it, and whether it asks for precoding. -/
structure TrainFrame where
  bytes : List Byte
  satisfied : Bool
  asks : Nat
  wantPre : Bool
  deriving DecidableEq, Repr

/-- What a lane brings of one ALIGN block row, as the counters of its units line the lanes up (R85, R89): the link unit in its slots, and when
it came, in units of 80 ps from the earliest lane. -/
structure AlignLane where
  unit : List Byte
  arrived : Nat
  deriving DecidableEq, Repr

/-- A unit slot of a block (R76): its 2-bit code and its 64 bytes. -/
structure Slot where
  code : Nat
  bytes : List Byte
  deriving DecidableEq, Repr

/-- A fault report on its way to the Safety Monitor (R400, R402): the row of *Fault domains*, whether its checker saw
only an effect of something already known, the reporting unit (a number that tells units of one kind apart), the die,
the Field and row concerned where the row of the table uses them, the second die of a crossing, the event it is logged
as, and whether the result was poisoned. -/
structure FaultNote where
  row : Nat
  consequential : Bool
  unit : List Nat
  die : Nat
  die2 : Nat
  field : Nat
  lrow : Option Nat
  stall : Bool
  cls : Nat
  code : Nat
  poisoned : Bool
  detail : List Byte
  deriving DecidableEq, Repr

/-- An Edbor packet that came in a datagram (R110, R111), as the half-port decapsulates it: the destination MAC, the VLAN of
its tag, the IPv6 addresses, the outer ECN, the UDP port, whether the checksum held, SEQ, the packet as the key in use deciphers it, and
its 16-byte hop tag. -/
structure Datagram where
  dstMac : Nat
  vlan : Option Nat
  srcIp : Nat
  dstIp : Nat
  ecn : Nat
  udpPort : Nat
  checksumOk : Bool
  seq : Nat
  p : Packet
  tag : List Byte
  deriving DecidableEq, Repr

/-- What the head reads from one flash (R372): whether SFDP answered with a valid signature, whether its tables declare
8D-8D-8D with its enable sequence and 1S-4S-4S, log2 of its size, the JEDEC ID, and its bytes from 0. -/
structure NvmRead where
  sfdpOk : Bool
  octal : Bool
  quad : Bool
  densityLog2 : Nat
  jedec : Nat
  bytes : List Byte
  deriving DecidableEq, Repr

/-- A chain frame (R382): TYPE, SEQ, LEN, the payload and CRC. -/
structure ChainFrame where
  typ : Nat
  seq : Nat
  len : Nat
  payload : List Byte
  crc : Nat
  deriving DecidableEq, Repr

/-- A stalled unit (R401): a tile unit (coded as TL_RESIDUE.LAST_UNIT), a shared unit of a die in a pace region, or an end of
the crossing between two dies. -/
inductive Stalled where
  | tile (d t unit : Nat)
  | shared (d unit region : Nat)
  | crossing (d e : Nat)
  deriving DecidableEq, Repr


/-- The commands (spec/opcode_table.json). -/
inductive Instr where
  /-- R38: A Milestone gate reaches its assigned count and releases its held result, or signals late. -/
  | gateRelease (g : GateId)
  /-- R40: Every 1 µs each pace monitor region updates its averaged token-rate reading. -/
  | paceUpdate (readings : List Nat)
  /-- R47: Every 1 µs each follower replica compares its counter A with the lead, and the Safety Monitor resolves any disagreement. -/
  | replicaCompare (readings : List ReplicaReading)
  /-- R48: The clock monitor finds the oscillator disagreeing with its reference beyond threshold and marks time invalid. -/
  | clockMonitorFire (ppb : Nat)
  /-- R54: On INTERVAL_US expiry an exchange-enabled half-port sends a time exchange SYNC with a new SEQ. -/
  | syncSend (h : Nat)
  /-- R56: A received SYNC is answered with a REPLY carrying t2 and t3. -/
  | syncReceive (pid : Nat)
  /-- R58: A received REPLY yields theta and d, which are accepted or rejected as a sample. -/
  | replyReceive (pid : Nat)
  /-- R51: No sample arrives from a source within its limit, counting towards loss of the source. -/
  | sampleMissing (src : Nat)
  /-- R61: The counter is stepped to the source's time, cancelling pending gated events and fencing every active Field. -/
  | counterStep
  /-- R62: Every 1 ms in holdover the lead recomputes BOUND_PS and enters INVALID past 2,000 ps. -/
  | holdoverUpdate
  /-- R65: A master port sends Sync and Follow_Up while time is valid. -/
  | ptpSyncSend (h : Nat)
  /-- R65: A master port sends Announce with stepsRemoved, currentUtcOffset and clockClass. -/
  | announceSend (h : Nat)
  /-- R64: A PTP message arrives on an Ethernet-mode half-port and is used as a sample or discarded as unsupported. -/
  | ptpMessageReceive (h : Nat) (m : PtpMsg)
  /-- R64: A port sends Pdelay_Req at its logMinPdelayReqInterval. -/
  | pdelayReqSend (h : Nat)
  /-- R66: A rising edge on TIME_PPS_IN is stamped and forms a pins sample with the preceding time-of-day message. -/
  | ppsInEdge
  /-- R66: A time-of-day message is received on TIME_TOD_IN and checked. -/
  | todMessage (bytes : List Byte)
  /-- R67: TIME_PPS_OUT rises at a multiple of PERIOD_NS while time is valid. -/
  | ppsOutRise
  /-- R67: TIME_PPS_OUT falls after WIDTH_NS. -/
  | ppsOutFall
  /-- R69: A participant whose time bound and readiness hold sends ARRIVE to the root. -/
  | barrierArriveSend
  /-- R69: The root receives an ARRIVE and, at the N-th, sends RELEASE with M. -/
  | barrierArrive (pid : Nat)
  /-- R69: A participant receives RELEASE and arms its gate at M, or answers LATE. -/
  | barrierRelease (pid : Nat)
  /-- R71: At M a participant releases the barrier, crediting the launch slot or taking its armed admission actions. -/
  | barrierFire
  /-- R69: The gather timeout passes before N arrivals and the root sends ABORT. -/
  | barrierTimeout
  /-- R69: A participant receives ABORT and does not release. -/
  | barrierAbort (pid : Nat)
  /-- R69: The root receives LATE from a participant and reports the late outcome. -/
  | barrierLate (pid : Nat)
  /-- R81: Signal is detected on every lane of a DOWN link and it enters TRAIN. -/
  | signalDetect (h : Nat)
  /-- R83: A training frame is received and its control, status and INFO fields are acted on. -/
  | trainingFrame (h lane : Nat) (f : TrainFrame)
  /-- R83: A coefficient request takes effect at the transmitter and its STATUS code is set. -/
  | tapUpdate (h lane : Nat)
  /-- R85: ALIGN block rows are received, deskewed and RX_READY and LAST exchanged. -/
  | alignUnit (h : Nat) (row : List AlignLane)
  /-- R87: TRAIN, ALIGN or KEY exceeds its time limit and the link returns to DOWN. -/
  | phaseTimeout (h : Nat)
  /-- R87: Training restarts 1 ms after a failed attempt. -/
  | trainRestart (h : Nat)
  /-- R74: A write of PH_CTRL.RETRAIN clears TRAIN_FAILS and starts training from DOWN. -/
  | retrain (pid : Nat)
  /-- R80: An RS codeword block is received and decoded, or discarded with its packets dropped. -/
  | blockReceive (h lane : Nat) (levels : List Nat)
  /-- R80: Too many failed blocks or loss of lock take the link out of UP to DOWN or RELINK. -/
  | linkLoss (h : Nat) (lockLost : Bool)
  /-- R90: A DOWN link unit is received and the link goes to DOWN with its reason logged. -/
  | downUnitReceive (h : Nat) (unit : List Byte)
  /-- R97: A SEAL unit arrives and the tags of the preceding control packets are checked. -/
  | sealUnit (h : Nat) (unit : List Byte)
  /-- R127: A packet's header arrives at a port NI and runs the ordered arrival checks. -/
  | packetArrival (h : Nat) (p : Packet)
  /-- R143: All units, the hop tag and other checks pass and the packet is linked into its output queue. -/
  | packetEligible (pid : Nat) (tag : List Byte)
  /-- R147: Each 320 ps frame the Crossing Matcher runs request, grant and accept rounds. -/
  | matcherFrame
  /-- R153: A packet at its queue head may start and is checked for age and fence, then sent or discarded. -/
  | outputStart (die out : Nat)
  /-- R144: A packet's last unit leaves or is taken and its cells are freed. -/
  | packetDeparted (pid : Nat)
  /-- R159: A tile or response allocation has been refused for 2 µs and completes as BUSY or is dropped. -/
  | tileAllocTimeout (id : Nat)
  /-- R163: Every 16 µs the Tally recounts owners and computes oldest cell ages. -/
  | tallyScan (die : Nat) (errors : List (Nat × Bool))
  /-- R102: A destination returns a Tailback echo within 2 µs of a marked packet. -/
  | echoSend (die unit field peer : Nat)
  /-- R103: A source receives an echo and cuts the flow's rate limit. -/
  | echoReceive (pid : Nat)
  /-- R103: Every 8,000 ns a flow without echoes raises its rate and may lift its limit. -/
  | rateRecover (die tile field peer : Nat)
  /-- R98: A key reaches its packet or age threshold and a rekey starts. -/
  | rekeyStart (half : Nat)
  /-- R348: A new key is installed and the transmitter inverts KP. -/
  | keyInstalled (half : Nat)
  /-- R98: A key reaches its hard limit unreplaced and the end enters KEY and sends HELLO. -/
  | keyRetire (half : Nat)
  /-- R346: A peer's HELLO is received and its chain checked, and KEMCT is sent. -/
  | hello (half : Nat) (msg : Option (List Byte))
  /-- R346: A peer's KEMCT is decapsulated, the transcript formed and FINISH sent. -/
  | kemct (half : Nat) (msg : Option (List Byte))
  /-- R347: A peer's FINISH is verified, keys derived and installed, and DONE sent. -/
  | finish (half : Nat) (msg : Option (List Byte))
  /-- R346: A peer's DONE arrives and the link enters UP once both DONEs are exchanged. -/
  | done (half : Nat)
  /-- R346: A handshake ABORT is received and the link refuses or returns to DOWN. -/
  | abort (half reason : Nat)
  /-- R105: Signal returns on a RELINK circuit link and cached equalisation and relink frames are tried. -/
  | relinkSignal (h : Nat) (found : List Nat)
  /-- R105: Signal does not return within 10 ms and the link goes to DOWN. -/
  | relinkTimeout (h : Nat)
  /-- R108: An Ethernet frame is received and bridged by the 802.1Q subset. -/
  | ethFrameReceive (h : Nat) (bytes : List Byte)
  /-- R108: A filtering database entry ages out. -/
  | macAgeExpire (vlan mac : Nat)
  /-- R110: An IPv6/UDP datagram carrying an Edbor packet is decapsulated and checked. -/
  | tunnelDatagram (h : Nat) (g : Datagram)
  /-- R120: A write of SG_SWITCH_AT arms a table version switch at M. -/
  | sgSwitchAt (pid : Nat)
  /-- R120: At M the sealed version becomes CURRENT and the old one HELD. -/
  | signpostSwitch
  /-- R120: A HELD version becomes EMPTY one age limit after its switch. -/
  | heldVersionExpire
  /-- R130: A write of NI_AGE_AT arms a change of the age limit. -/
  | niAgeAt (pid : Nat)
  /-- R130: At the armed count NEXT_US becomes the age limit. -/
  | ageLimitChange
  /-- R118: Every 1 ms the two copies of map words and row ownership are compared. -/
  | hedgeCopyCompare
  /-- R128: A fully arrived, checked packet is committed at the tile NI and its credit and response follow. -/
  | tileDelivery (pid : Nat)
  /-- R132: An ACK, GET_RESP or GLEAN_RESULT is matched at the tag table and completes or is discarded. -/
  | responseReceive (pid : Nat)
  /-- R134: A NAK is handled at the source by its NAK action. -/
  | nakReceive (pid : Nat)
  /-- R134: The BUSY backoff expires and the request is resent. -/
  | busyBackoffExpire (die tile tag : Nat)
  /-- R133: An end-to-end timer expires with the tag OPEN and the request is resent or given up. -/
  | e2eTimeout (die tile tag : Nat)
  /-- R132: A quarantined tag returns to FREE after twice the age limit and its epoch advances. -/
  | tagQuarantineEnd (die tile tag : Nat)
  /-- R137: A closed domain's drain ends after L or when empty, discarding any remainder. -/
  | drainEnd (x : Domain)
  /-- R179: A scheduled packet's due instant arrives and it departs, departs late or is discarded. -/
  | schedDeparture (slot pos : Nat)
  /-- R180: At A + LEN + G a slot with EXPECT is checked for a shortfall. -/
  | slotShortfallCheck (slot : Nat)
  /-- R182: At D + LEN the slot's cells are checked free and late packets discarded. -/
  | departureWindowEnd (slot : Nat)
  /-- R184: An RB_SEAL write with OP seal starts sealing a LOADING bank. -/
  | bankSeal (pid : Nat)
  /-- R184: An RB_SEAL write with OP discard returns a bank to EMPTY. -/
  | bankDiscard (pid : Nat)
  /-- R176: The seal checks complete and the bank becomes SEALED or EMPTY with RB_LOAD_ERR. -/
  | bankSealDone (bank : Nat)
  /-- R185: A write of RB_SWAP_AT arms a bank swap at a step boundary. -/
  | rbSwapAt (pid : Nat)
  /-- R185: At M the sealed bank becomes ACTIVE, or the swap fails on pending cedes. -/
  | bankSwap
  /-- R189: The Power Manager forecasts loss of the floor and raises a floor alarm with lead. -/
  | floorAlarm (die leadUs : Nat)
  /-- R189: The floor is lost without a forecast and a breach without lead is raised. -/
  | floorBreach (die vcore tj : Nat)
  /-- R191: At the first step boundary at least 1 µs after an alarm the affected Fields' records cease to be live. -/
  | suspend (die : Nat)
  /-- R192: A write of RB_RESUME_AT arms a resume of masked Field slots. -/
  | rbResumeAt (pid : Nat)
  /-- R192: At M each masked suspended Field that meets the conditions resumes. -/
  | resume
  /-- R241: The ready queue head is passed to its unit's issue queue when there is room. -/
  | dispatch (die tile : Nat)
  /-- R241: A unit starts the Waybill at the head of its issue queue. -/
  | waybillStart (die tile unit : Nat)
  /-- R237: One loop-nest instance of a running Waybill completes. -/
  | instanceDone (die tile unit : Nat)
  /-- R244: A finished Waybill takes its completion effects: status, successors, notice and pending arm. -/
  | waybillComplete (die tile slot : Nat)
  /-- R247: A JOIN Waybill does nothing and completes when ready. -/
  | join (die tile : Nat)
  /-- R248: A MATMUL instance computes one 64 × 64 output block over K. -/
  | matmul (die tile fault : Nat)
  /-- R250: A VFLOAT instance computes LENGTH floating-point elements with function FN. -/
  | vfloat (die tile fault : Nat)
  /-- R251: A VINT instance computes LENGTH integer elements. -/
  | vint (die tile fault : Nat)
  /-- R251: A VREDUCE instance reduces LENGTH elements to one. -/
  | vreduce (die tile fault : Nat)
  /-- R253: A COPY instance moves, converts, compresses or decompresses LENGTH elements. -/
  | copy (die tile fault : Nat)
  /-- R253: A FILL instance writes LENGTH copies of a pattern. -/
  | fill (die tile fault : Nat)
  /-- R257: A PUT instance sends one PUT packet from tile memory. -/
  | put (die tile fault : Nat)
  /-- R257: A GET instance sends one GET_REQ for data to land in this tile. -/
  | get (die tile fault : Nat)
  /-- R259: A CALL Waybill runs one numbered Almanac routine on the Steward. -/
  | call (die tile fault : Nat)
  /-- R262: A PACKED Waybill scans a packed long word stream and starts running it. -/
  | packed (die tile : Nat)
  /-- R264: The decoder executes one bundle of packed long words. -/
  | packedBundle (die tile fault : Nat)
  /-- R260: Almanac routine that sets or clears a window of the tile. -/
  | windowSet (die tile : Nat)
  /-- R260: Almanac routine that advances the tile's role epoch. -/
  | roleDeclare (die tile : Nat)
  /-- R261: Almanac routine that resets another tile of the Field. -/
  | tileReset (die tile : Nat)
  /-- R261: A manager write of TL_CTRL.RESET starts a tile reset. -/
  | tlCtrlReset (pid : Nat)
  /-- R261: A tile reset completes after its drain, zeroising the tile. -/
  | tileResetDone (die tile : Nat)
  /-- R260: Almanac routine that arms a range of slots. -/
  | wbArm (die tile : Nat)
  /-- R260: Almanac routine that writes a Waybill into a rectangle of tiles and optionally arms it. -/
  | wbBcast (die tile : Nat)
  /-- R260: Almanac routine that advances a slot's GEN and clears it. -/
  | wbRenew (die tile : Nat)
  /-- R260: Almanac routine that returns a slot's state. -/
  | wbQuery (die tile : Nat)
  /-- R260: Almanac routine that reads and optionally clears IEEE flags. -/
  | flagsRead (die tile : Nat)
  /-- R260: Almanac routine that returns the Milestone count and validity. -/
  | timeRead (die tile : Nat)
  /-- R260: Almanac routine that adds to a word of tile memory. -/
  | patch (die tile : Nat)
  /-- R260: Almanac routine that tests a value and arms one of two slots. -/
  | branch (die tile : Nat)
  /-- R260: Almanac routine that performs one scalar IEEE operation. -/
  | scalarF (die tile : Nat)
  /-- R272: Almanac routine that defines a Sheaf node from a plan. -/
  | sheafDefine (die tile : Nat)
  /-- R270: Almanac routine that removes a Sheaf node. -/
  | sheafUndefine (die tile : Nat)
  /-- R270: Almanac routine that returns a node's round state. -/
  | sheafQuery (die tile : Nat)
  /-- R279: A node decides an arriving SHEAF_CONTRIB by the contribution outcomes. -/
  | sheafContribReceive (pid : Nat)
  /-- R280: A held contribution's chunk enters the node's window and is added exactly into its lanes. -/
  | chunkAccumulate (die field sheaf pid chunk : Nat) (fault : Bool)
  /-- R283: A COVER message declares a VARIABLE input's chunk ranges. -/
  | sheafCountCover (pid : Nat)
  /-- R289: A POISON notice poisons chunks at a node or credits a poisoned slot at a window target. -/
  | sheafCountPoison (pid : Nat)
  /-- R286: A CHILD node receives results from its parent and passes them to its targets. -/
  | sheafResultReceive (pid : Nat)
  /-- R290: A round's deadline passes and its incomplete chunks close as poisoned. -/
  | sheafDeadline (die field sheaf : Nat)
  /-- R292: A SHEAF_SMALL CONTRIB from a LEAF is received. -/
  | smallContrib (pid : Nat) (fault : Bool)
  /-- R292: A SHEAF_SMALL PIECE of a CHILD's partial record is received. -/
  | smallPiece (pid : Nat) (fault : Bool)
  /-- R292: A SHEAF_SMALL RESULT is written at a window target like a PUT_SHORT. -/
  | smallResult (pid : Nat)
  /-- R292: A SHEAF_SMALL DOWN result is received by a CHILD node. -/
  | smallDown (pid : Nat)
  /-- R302: Almanac routine that defines a Winnower job. -/
  | winnowDefine (die tile : Nat)
  /-- R300: Almanac routine that removes a Winnower job. -/
  | winnowUndefine (die tile : Nat)
  /-- R300: Almanac routine that returns a job's round state. -/
  | winnowQuery (die tile : Nat)
  /-- R304: A job decides an arriving WINNOW_IN by the contribution outcomes. -/
  | winnowIn (pid : Nat)
  /-- R307: A job's input completes and it forms and sends its outputs. -/
  | winnowRoundProcess (field job : Nat) (fault : Bool)
  /-- R305: A Winnower round's deadline passes and the round is poisoned. -/
  | winnowDeadline (field job : Nat)
  /-- R314: Almanac routine that defines a Gleaner context and zeroes its Bales. -/
  | glDefine (die tile : Nat)
  /-- R312: Almanac routine that removes a Gleaner context. -/
  | glUndefine (die tile : Nat)
  /-- R312: Almanac routine that returns a context's status. -/
  | glStatus (die tile : Nat)
  /-- R317: A GLEAN_KV packet is committed into a Bale at the holding tile. -/
  | gleanKv (pid : Nat)
  /-- R320: The home slice accepts or refuses a GLEAN_QUERY. -/
  | gleanQuery (pid : Nat)
  /-- R327: A batch of queued queries starts its Bale tasks on the holding tiles. -/
  | gleanBatchStart (context : Nat)
  /-- R322: A holding tile finishes a Bale task and yields its partial. -/
  | baleTaskDone (context query tile : Nat) (fault : Bool)
  /-- R324: The partials are combined and the home slice sends the GLEAN_RESULT. -/
  | gleanResultForm (context query : Nat)
  /-- R326: A query's deadline passes and its result carries STATUS DEADLINE. -/
  | gleanDeadline (context query : Nat)
  /-- R325: The querier's tile NI matches a GLEAN_RESULT and commits and credits it. -/
  | gleanResultReceive (pid : Nat)
  /-- R360: Almanac routine that obtains a Field attestation report. -/
  | attest (d t : Nat)
  /-- R366: VAUX enters its range and the VAUX-domain units start. -/
  | vauxUp
  /-- R367: VAUX is lost, ending hall time and all VAUX state. -/
  | vauxLoss
  /-- R367: PWR_GOOD rises, powering the VIN domains and starting boot 1 ms later. -/
  | pwrGoodRise
  /-- R367: PWR_GOOD falls and the device powers down its dies into device reset. -/
  | pwrGoodFall
  /-- R368: RESET_N is held low for 1 µs and a device reset begins with a pre-reset sample. -/
  | resetNFall
  /-- R370: RESET_N rises, straps are sampled and the boot sequence begins. -/
  | bootStart (head : Bool) (pos : Nat) (fuseOk : Bool)
  /-- R378: The staged image's hash is compared and its records applied or the source refused. -/
  | imageStaged (src : Nat) (r : NvmRead)
  /-- R383: A chain frame is received, forwarded and staged or consumed. -/
  | chainFrameReceive (f : ChainFrame)
  /-- R385: No STATUS frame arrives 100 ms after END and the head records a transport error. -/
  | chainStatusTimeout (pos : Nat)
  /-- R385: A follower has no image 60 s after reset and becomes unseeded. -/
  | followerTimeout
  /-- R393: A die sensor reaches 105 °C and all dies power down into device reset. -/
  | thermalTrip (d : Nat)
  /-- R393: A die domain exceeds 110 A for 2 µs and is powered down. -/
  | overcurrentTrip (d : Nat)
  /-- R339: A fuse order is received by transfer and applied or refused. -/
  | fuseOrder (pid : Nat)
  /-- R339: Programming of a fuse order ends and FS_ORDER shows the result. -/
  | fuseOrderDone (ok : Bool)
  /-- R354: An ADMIT record is accepted into a slot as ADMITTING or rejected. -/
  | admitField (pid : Nat)
  /-- R444: An EVICT record moves the slot to EVICTING or is rejected. -/
  | evict (pid : Nat)
  /-- R355: At AT or when zeroisation ends the admitted Field becomes active. -/
  | fieldActivate (n : Nat)
  /-- R358: A row's zeroisation with read-back finishes, giving a clean mark or a Hedge fault. -/
  | rowZeroiseDone (d r : Nat) (ok : Bool)
  /-- R357: Eviction finishes and the slot becomes free. -/
  | evictionDone (n : Nat)
  /-- R350: A write of TC_RELAY.START starts a relayed handshake for a relink entry. -/
  | relayStart (pid : Nat)
  /-- R350: A relayed handshake message arrives through the RELAY target. -/
  | relay (pid : Nat)
  /-- R350: A relay not DONE within 100 ms reads FAILED. -/
  | relayTimeout
  /-- R352: A manager session handshake message arrives through the SESSION target. -/
  | session (pid : Nat)
  /-- R362: A debug token is presented over JTAG and an extended-debug session opens or is refused. -/
  | debugToken (bytes : List Byte)
  /-- R400: A checker reports a fault, which is classified, poisoned, fenced or escalated. -/
  | faultReport (n : FaultNote)
  /-- R404: A fence's hand-off ends when nothing runs or 20 µs pass. -/
  | handoffEnd (n : Nat)
  /-- R401: A unit holding work completes no handshake within bound B and a stall is reported. -/
  | hangStall (u : Stalled)
  /-- R406: Every 1 µs the die monitor sends a transmit permit and the port returns a heartbeat. -/
  | portPermit (h : Nat) (beat : Bool)
  /-- R406: A half-port receives no permit for 4 µs and goes silent. -/
  | permitLoss (h : Nat)
  /-- R406: A die monitor misses a heartbeat for 4 µs and withholds permits. -/
  | heartbeatLoss (h : Nat)
  /-- R410: Every 1 µs the two device monitors compare their decisions. -/
  | monitorCompare (agree : Bool)
  /-- R413: An SM_RESET write of KIND Field reset resets a Field on this device. -/
  | fieldReset (pid : Nat)
  /-- R414: An SM_RESET write of KIND die reset runs the die reset steps. -/
  | dieReset (pid : Nat)
  /-- R368: An SM_RESET write of KIND device reset resets the device as RESET_N does. -/
  | deviceReset (pid : Nat)
  /-- R415: An SM_RESET write of KIND die power-down drains and removes power from a die. -/
  | diePowerDown (pid : Nat)
  /-- R415: An SM_RESET write of KIND die power-up ramps a die and runs its self-test. -/
  | diePowerUp (pid : Nat)
  /-- R422: The Recorder writes the next FIFO event record to both copies and advances HEAD. -/
  | eventWrite
  /-- R424: A write of SM_FALLOW_AT arms a Fallow row switch-in. -/
  | smFallowAt (pid : Nat)
  /-- R424: At COUNT a Fallow row replaces the logical row, or the switch-in is cancelled. -/
  | fallowSwitchIn (d : Nat)
  /-- R426: A write of SM_ADMIT arms admission actions for a barrier. -/
  | smAdmit (pid : Nat)
  /-- R419: A write of DM_ACK releases a held dump. -/
  | dmAck (pid : Nat)
  /-- R61: A write of TK_CTRL.STEP_ARM permits one counter step. -/
  | stepArm (pid : Nat)
  /-- R431: SMBus READ command returns a register with status. -/
  | smbusRead (target : Nat) (data : List Byte) (pecOk : Bool)
  /-- R431: SMBus SNAP_READ command returns a register as latched in a bank. -/
  | smbusSnapRead (target : Nat) (data : List Byte) (pecOk : Bool)
  /-- R431: The SMBus target answers the Alert Response Address with its own address. -/
  | alertResponse
  /-- R433: Manager READ operation returns a register. -/
  | read (pid : Nat)
  /-- R433: Manager WRITE operation writes a register that has no row of its own. -/
  | write (pid : Nat)
  /-- R437: Manager SNAP_ARM operation arms a snapshot bank at M. -/
  | snapArm (pid : Nat)
  /-- R437: Manager SNAP_READ operation returns a latched register. -/
  | snapRead (pid : Nat)
  /-- R432: Manager CLOSE operation ends the session. -/
  | close (pid : Nat)
  /-- R437: At M a snapshot bank latches its group at one instant. -/
  | snapLatch (bank : Nat)
  /-- R434: An MGR_DATA packet adds bytes to the open inbound transfer. -/
  | mgrDataReceive (pid : Nat)
  /-- R434: An inbound transfer does not cover its length within 10 ms and is answered GAP. -/
  | xferGapTimeout (key : Nat)
  /-- R435: Transfer target SIGNPOST loads Signpost entries into the loading version. -/
  | signpost (pid : Nat)
  /-- R435: Transfer target RANK loads rank blocks into the loading version. -/
  | rank (pid : Nat)
  /-- R184: Transfer target ROAD_BOOK loads a bank image into an EMPTY bank. -/
  | roadBook (pid : Nat)
  /-- R353: Transfer target ADMISSION delivers an ADMIT or EVICT record. -/
  | admission (pid : Nat)
  /-- R419: Transfer target DUMP sends a held dump out. -/
  | dump (pid : Nat)
  /-- R435: Transfer target REGISTERS sends consecutive registers out. -/
  | registers (pid : Nat)
  /-- R435: Transfer target EVENTS sends event records out. -/
  | events (pid : Nat)
  /-- R359: Transfer target ATTEST takes a nonce and returns a signed report. -/
  | attestTransfer (pid : Nat)
  /-- R435: Transfer target BRIDGE sends the ETH_BRIDGE body in force. -/
  | bridge (pid : Nat)
  /-- R71: Transfer target BARRIER opens a barrier with its open record. -/
  | barrier (pid : Nat)
  /-- R435: An SG_SEAL write of SEAL starts sealing the loading table version. -/
  | signpostSeal (pid : Nat)
  /-- R435: An SG_SEAL write of DISCARD returns a version to EMPTY. -/
  | signpostDiscard (pid : Nat)
  /-- R435: A table version seal completes as SEALED or returns to EMPTY. -/
  | signpostSealDone
  /-- R107: An Ethernet-mode half-port completes IEEE 802.3dj auto-negotiation and link training and its link comes up. -/
  | ethLinkUp (h : Nat)
  /-- R162: An Ethernet-mode half-port's link goes down, discarding its queued packets and removing it as a candidate. -/
  | ethLinkDown (h : Nat)
  /-- R42: A Power Manager change or ramp of a die domain's VCORE settles and AT_FLOOR is re-evaluated, releasing withheld scheduled departures. -/
  | vcoreSettle (d mv watts : Nat)
  /-- R371: The tile memory and Trust Core self-tests of boot or of a die reset finish, marking rows clean or failed and letting the sequence continue. -/
  | memorySelfTestDone (die : Option Nat) (failed : List Nat) (trustOk codeOk : Bool)
  /-- R417: The Recorder finishes the pre-reset sample into the dump area, after which the reset or power-down proceeds. -/
  | dumpSampleDone
  deriving DecidableEq, Repr

end Sys2Proof
end

