-- ==== Sys2Proof/Decode.lean ====
section
/-! DEFINITION. Commands as words. No row of spec/opcode_table.json gives bits: the device is commanded by packets, pins and
events, whose bytes the operands of each command hold (Machine/Packets.lean reads and writes packet bytes). -/

namespace Sys2Proof

/-- The command that a word of `nbits` bits spells: none, since the table gives no row any bits. -/
def decodeTableWord (_nbits _w : Nat) : Option Instr := none

end Sys2Proof
end

