-- ==== Sys2Proof/Config.lean ====
section
/-! DEFINITION. The values the spec leaves open. Each is an opaque constant: no body, so nothing can be proved of the
number, and a claim that holds, holds whatever it is. Each is named in a row of notes/assumptions. -/

namespace Sys2Proof.Config

/-- R50 converts |θ| (sixteenths of a nanosecond, 62.5 ps each) to picoseconds and states no rounding: 0 or 1, the
picosecond added to the whole part for an odd |θ|. -/
opaque thetaHalfPs : Nat → Nat

/-- R200 leaves to IEEE 754-2019, and that standard to the implementation, whether zero times infinity plus a quiet NaN raises
invalid: by the working format's width. -/
opaque fmaInvalid : Nat → Bool

/-- R257 takes a FREE tag and states no order: which of the FREE ones, by the number of the choice. -/
opaque tagChoice : Nat → Nat

/-- R246: the memory outputs of a poisoned instance may hold partial values: byte i of them, by the number of the choice. -/
opaque partialByte : Nat → Nat → BitVec 8

/-- R230, R231: when a buffered store drains is not stated. Whether a store that finds eight stores of its core listed has to
wait, and whether a load that overlaps a listed store and is not given its data has to: by the number of the choice. -/
opaque storeWaits : Nat → Bool
opaque loadWaits : Nat → Bool

/-- R432 gives VALUE "by operation" and states none for a request that is refused: by the number of the choice. -/
opaque refusedValue : Nat → BitVec 64

/-- R338, R339: what a Season, a count or a lock holds after its programming was interrupted or has failed: by the number of the
choice. -/
opaque spoiledBits : Nat → BitVec 64

/-- R378 fills staging rows and does not say which rows these are on a device whose image has a given number of bytes. -/
opaque stagingRow : Nat → Nat → Bool

/-- R282: the elements (FIRST, COUNT) of a node's CHILD entry in the plan of a parent on another device, or nothing where that
entry is VARIABLE: by Field, SHEAF_ID and the node's rank. -/
opaque childRange : Nat → Nat → Nat → Option (Nat × Nat)

/-- R292: the result length of a Sheaf none of whose nodes lies on this device, less one: by Field and SHEAF_ID. -/
opaque smallLength : Nat → Nat → Nat

/-! The functions of other standards that chapter 11 names. The spec cites them and does not give their text, so they stand
here as functions nothing is known of: a claim holds whatever they answer. -/

/-- SHA-384 (FIPS 180-4). -/
opaque sha384 : List (BitVec 8) → List (BitVec 8)

/-- ECDSA P-384 verification: point, message, signature; and ML-DSA-65: key, message, signature. -/
opaque ecdsaOk : List (BitVec 8) → List (BitVec 8) → List (BitVec 8) → Bool
opaque mldsaOk : List (BitVec 8) → List (BitVec 8) → List (BitVec 8) → Bool

/-- HKDF of RFC 5869 with SHA-384: extract of salt and input; expand of key, info and length. -/
opaque hkdfExtract : List (BitVec 8) → List (BitVec 8) → List (BitVec 8)
opaque hkdfExpand : List (BitVec 8) → List (BitVec 8) → Nat → List (BitVec 8)

/-- AES-256-CMAC: key, message. -/
opaque cmac : List (BitVec 8) → List (BitVec 8) → List (BitVec 8)

/-- AES-256-GCM under an all-zero IV: key, additional data, plain text; the ciphertext followed by its tag. -/
opaque sealBytes : List (BitVec 8) → List (BitVec 8) → List (BitVec 8) → List (BitVec 8)

/-- AES-256-GCM as the Link Cipher uses it (R97): key, IV, additional data, plain text; the ciphertext followed by its 16-byte tag. -/
opaque gcmSeal : List (BitVec 8) → List (BitVec 8) → List (BitVec 8) → List (BitVec 8) → List (BitVec 8)

/-- R110 names no UDP source port, flow label, DSCP, or PCP and DEI of a tunnel datagram: those of half-port h. -/
opaque udpSource : Nat → BitVec 16
opaque flowLabel : Nat → BitVec 20
opaque dscp : Nat → BitVec 6
opaque tunnelPcp : Nat → BitVec 4

/-- The Trust Core's random bytes: byte i of draw n. -/
opaque random : Nat → Nat → BitVec 8

/-- The ephemeral P-384 point and ML-KEM-768 encapsulation key of draw n (R346), and what its secrets open: the X coordinate
of the ECDH result with a point, and the secret of a ciphertext. -/
opaque ephemeral : Nat → List (BitVec 8)
opaque ecdh : Nat → List (BitVec 8) → List (BitVec 8)
opaque kemOpen : Nat → List (BitVec 8) → List (BitVec 8)

/-- An ML-KEM-768 encapsulation to a key with draw n: the ciphertext and the secret it carries. -/
opaque kemCipher : List (BitVec 8) → Nat → List (BitVec 8)
opaque kemSecret : List (BitVec 8) → Nat → List (BitVec 8)

/-- SEC 1's point check and FIPS 203's input check (R354). -/
opaque pointOk : List (BitVec 8) → Bool
opaque kemKeyOk : List (BitVec 8) → Bool

/-- What a device's identity is derived from (R334): the PUF response, corrected with the helper data, and the fuse seed; and
whether a Key ID matches the fused ID_CHECK (the rule does not say which 64 of its 128 bits that is compared with). -/
opaque pufResponse : List (BitVec 8)
opaque fuseSeed : List (BitVec 8)
opaque idCheck : List (BitVec 8) → Bool

/-- The P-384 point of a private key, and the ML-DSA-65 public key of a seed (FIPS 204). -/
opaque ecPublic : Nat → List (BitVec 8)
opaque mldsaPublic : List (BitVec 8) → List (BitVec 8)

/-- Deterministic ECDSA (RFC 6979) under a private key, and hedged ML-DSA-65 signing under a seed, by draw (R333). -/
opaque ecdsaSign : Nat → List (BitVec 8) → List (BitVec 8)
opaque mldsaSign : List (BitVec 8) → List (BitVec 8) → Nat → List (BitVec 8)

/-- The vendor root key hash in mask ROM (R331). -/
opaque vendorHash : List (BitVec 8)

end Sys2Proof.Config
end

