-- ==== Sys2Proof/Machine/Regs.lean ====
section
/-! DEFINITION. The register map of spec/14_registers.md (R441) with the field tables of every chapter: one `Fld`
for every named field (its register, its place, its access code of R15 and the number its Reset column gives), and the
table `regTable` from which an address is decoded (R14, R428). A field the spec marks reserved has no `Fld`: it reads
zero because nothing is assembled there (R16). -/

namespace Sys2Proof.Machine

/-- Every register of R441. The seven words of LK_TUNNELn_w have different fields, so each word is a register here. -/
inductive Reg where
  | DV_PART
  | DV_AIC
  | DV_FIELD_SLOT
  | TL_OWNER
  | PW_PACE_A
  | PW_PACE_B
  | PW_DIE_STATE
  | TK_REPLICA
  | TK_STATUS
  | TK_NOW
  | TK_SRC
  | TK_PORT_CAL
  | TK_PORT_MEAS
  | TK_CTRL
  | TK_HOLD
  | TK_PTP
  | TK_PTP_ROLES
  | TK_PPS_OUT
  | TK_PPS_IN
  | TK_EVENTS
  | PH_PORT_CFG
  | PH_CTRL
  | LK_FEC
  | LK_DROP
  | PH_LINK
  | LC_STATUS
  | PH_RELINK
  | LK_ETH_CFG
  | NI_WINDOW
  | NI_FIELD_MAP
  | SG_CTRL
  | SG_SWITCH_AT
  | SG_HOLD_END
  | SG_MARK
  | NI_AGE
  | NI_AGE_AT
  | NI_E2E
  | NI_TAG_STAT
  | NI_DROP_A
  | NI_DROP_B
  | XM_SHARE
  | XM_STATUS
  | GK_FMAP
  | GK_OWNER
  | GK_STATUS
  | GK_REGIONS
  | GK_OUT_CFG
  | GK_TALLY
  | GK_FAULT
  | GK_DROP
  | RB_BANKS
  | RB_SWAP_AT
  | RB_EPOCH
  | RB_PERIOD
  | RB_SEAL
  | RB_LOAD_ERR
  | RB_FLOOR
  | RB_SUSPEND
  | RB_RESUME
  | RB_RESUME_AT
  | RB_ALARM
  | RB_SUSPEND_AT
  | RB_LATE
  | TL_RESIDUE
  | TL_CTRL
  | TL_WB_STATE
  | TL_WB_STAT
  | TL_STALL
  | TM_STAT
  | SH_STATUS
  | SH_STAT
  | SH_STAT_B
  | SH_GRANT
  | SH_USED
  | WN_STATUS
  | WN_STAT
  | WN_GRANT
  | GL_STATUS
  | GL_STAT
  | GL_GRANT
  | FS_SEASONS
  | FS_OWNER_HASH
  | FS_HEDGE_HASH
  | FS_ORDER
  | TC_STATUS
  | TC_IDENTITY
  | TC_PORT_CLASS
  | TC_RELAY
  | TC_PARTNER
  | SL_BIST
  | SL_NVM
  | SL_STATUS
  | SL_TIMES
  | PW_CAP
  | SM_HANG
  | SM_STATUS
  | SM_FIELD_STATE
  | SM_DIE_STATE
  | SM_ROWS
  | SM_RESET
  | DM_STATUS
  | DM_ACK
  | EV_STATUS
  | EV_LOST
  | EV_LOST_FIRST
  | EV_LOST_LAST
  | SM_FALLOW
  | SM_FALLOW_REQ
  | SM_FALLOW_AT
  | SM_ADMIT
  | SG_SEAL
  | DV_MGR_STAT
  | DV_SNAP
  | DV_SNAP_AT
  | DV_ALERT
  | DV_ID
  | DV_MGR_PORTS
  | LK_ETH_PATH
  | LK_TUNNEL_0
  | LK_TUNNEL_1
  | LK_TUNNEL_2
  | LK_TUNNEL_3
  | LK_TUNNEL_4
  | LK_TUNNEL_5
  | LK_TUNNEL_6
  deriving DecidableEq, Repr

/-- The access codes of R15. -/
inductive Access where
  | RO | RS | RM | RMC | RF
  deriving DecidableEq, Repr

/-- One field of a register: bits [lo + width - 1 : lo], its access code, and the number in its Reset column
(0 where that column says "fuses", "image" or "see text": those are set by name in `State.reset` and by the resets). -/
structure Fld where
  reg : Reg
  lo : Nat
  width : Nat
  acc : Access
  reset : Nat
  deriving DecidableEq, Repr

/-- An index of a register's name: it runs over `count` values from `first`, `stride` bytes apart. -/
structure Dim where
  first : Nat
  count : Nat
  stride : Nat
  deriving DecidableEq, Repr

/-- One row of R441: the register, its level (R14: 0 device, 1 die, 2 tile), the offset at which index 0 would lie,
its indices and its fields. -/
structure RegSpec where
  reg : Reg
  level : Nat
  base : Nat
  dims : List Dim
  fields : List Fld
  deriving DecidableEq, Repr

namespace F

abbrev DV_PART_STEPPING : Fld := ⟨.DV_PART, 0, 8, .RF, 0⟩
abbrev DV_PART_GRADE : Fld := ⟨.DV_PART, 8, 4, .RF, 0⟩
abbrev DV_PART_TILES_PER_DIE : Fld := ⟨.DV_PART, 16, 12, .RF, 0⟩
abbrev DV_PART_PART_CODE : Fld := ⟨.DV_PART, 32, 16, .RO, 0x8800⟩
abbrev DV_AIC_AIC : Fld := ⟨.DV_AIC, 0, 32, .RO, 0⟩
abbrev DV_AIC_VALID : Fld := ⟨.DV_AIC, 32, 1, .RO, 0⟩
abbrev DV_FIELD_SLOT_FIELD_ID : Fld := ⟨.DV_FIELD_SLOT, 0, 12, .RO, 0⟩
abbrev DV_FIELD_SLOT_STATE : Fld := ⟨.DV_FIELD_SLOT, 12, 3, .RO, 0⟩
abbrev DV_FIELD_SLOT_DIE_MASK : Fld := ⟨.DV_FIELD_SLOT, 16, 8, .RO, 0⟩
abbrev DV_FIELD_SLOT_TILE_ROWS : Fld := ⟨.DV_FIELD_SLOT, 32, 9, .RO, 0⟩
abbrev TL_OWNER_FIELD_SLOT : Fld := ⟨.TL_OWNER, 0, 4, .RO, 0⟩
abbrev TL_OWNER_ASSIGNED : Fld := ⟨.TL_OWNER, 4, 1, .RO, 0⟩
abbrev TL_OWNER_ROLE_EPOCH : Fld := ⟨.TL_OWNER, 8, 8, .RO, 0⟩
abbrev PW_PACE_A_PACE0 : Fld := ⟨.PW_PACE_A, 0, 16, .RO, 0⟩
abbrev PW_PACE_A_PACE1 : Fld := ⟨.PW_PACE_A, 16, 16, .RO, 0⟩
abbrev PW_PACE_A_PACE2 : Fld := ⟨.PW_PACE_A, 32, 16, .RO, 0⟩
abbrev PW_PACE_A_PACE3 : Fld := ⟨.PW_PACE_A, 48, 16, .RO, 0⟩
abbrev PW_PACE_B_PACE4 : Fld := ⟨.PW_PACE_B, 0, 16, .RO, 0⟩
abbrev PW_PACE_B_PACE5 : Fld := ⟨.PW_PACE_B, 16, 16, .RO, 0⟩
abbrev PW_PACE_B_PACE6 : Fld := ⟨.PW_PACE_B, 32, 16, .RO, 0⟩
abbrev PW_PACE_B_PACE7 : Fld := ⟨.PW_PACE_B, 48, 16, .RO, 0⟩
abbrev PW_DIE_STATE_VCORE_MV : Fld := ⟨.PW_DIE_STATE, 0, 16, .RO, 0⟩
abbrev PW_DIE_STATE_TJ : Fld := ⟨.PW_DIE_STATE, 16, 12, .RO, 0⟩
abbrev PW_DIE_STATE_AT_FLOOR : Fld := ⟨.PW_DIE_STATE, 28, 1, .RO, 0⟩
abbrev PW_DIE_STATE_SCHED_LIVE : Fld := ⟨.PW_DIE_STATE, 29, 1, .RO, 0⟩
abbrev TK_REPLICA_ROLE : Fld := ⟨.TK_REPLICA, 0, 2, .RO, 0⟩
abbrev TK_REPLICA_AB_DIFF : Fld := ⟨.TK_REPLICA, 8, 8, .RO, 0⟩
abbrev TK_REPLICA_LEAD_DIFF : Fld := ⟨.TK_REPLICA, 16, 8, .RO, 0⟩
abbrev TK_STATUS_STATE : Fld := ⟨.TK_STATUS, 0, 3, .RO, 0⟩
abbrev TK_STATUS_VALID : Fld := ⟨.TK_STATUS, 3, 1, .RO, 0⟩
abbrev TK_STATUS_SRC_KIND : Fld := ⟨.TK_STATUS, 4, 2, .RO, 0⟩
abbrev TK_STATUS_SRC_INDEX : Fld := ⟨.TK_STATUS, 6, 2, .RO, 0⟩
abbrev TK_STATUS_LEAD_DIE : Fld := ⟨.TK_STATUS, 8, 3, .RO, 0⟩
abbrev TK_STATUS_STEP_WAIT : Fld := ⟨.TK_STATUS, 11, 1, .RO, 0⟩
abbrev TK_STATUS_BOUND_PS : Fld := ⟨.TK_STATUS, 16, 32, .RO, 0xffffffff⟩
abbrev TK_STATUS_HOPS : Fld := ⟨.TK_STATUS, 48, 4, .RO, 0xf⟩
abbrev TK_NOW_COUNT : Fld := ⟨.TK_NOW, 0, 64, .RO, 0⟩
abbrev TK_SRC_KIND : Fld := ⟨.TK_SRC, 0, 2, .RM, 0⟩
abbrev TK_SRC_HALF_PORT : Fld := ⟨.TK_SRC, 2, 4, .RM, 0⟩
abbrev TK_PORT_CAL_ASYM : Fld := ⟨.TK_PORT_CAL, 0, 32, .RM, 0⟩
abbrev TK_PORT_CAL_HOP_BOUND_PS : Fld := ⟨.TK_PORT_CAL, 32, 16, .RM, 0⟩
abbrev TK_PORT_CAL_CALIBRATED : Fld := ⟨.TK_PORT_CAL, 48, 1, .RM, 0⟩
abbrev TK_PORT_CAL_EXCH_EN : Fld := ⟨.TK_PORT_CAL, 49, 1, .RM, 0⟩
abbrev TK_PORT_CAL_INTERVAL_US : Fld := ⟨.TK_PORT_CAL, 50, 10, .RM, 0⟩
abbrev TK_PORT_MEAS_DELAY : Fld := ⟨.TK_PORT_MEAS, 0, 32, .RO, 0⟩
abbrev TK_PORT_MEAS_OFFSET : Fld := ⟨.TK_PORT_MEAS, 32, 32, .RO, 0⟩
abbrev TK_CTRL_STEP_ARM : Fld := ⟨.TK_CTRL, 0, 1, .RM, 0⟩
abbrev TK_CTRL_PPS_OUT_EN : Fld := ⟨.TK_CTRL, 1, 1, .RM, 0⟩
abbrev TK_CTRL_TAI_UTC : Fld := ⟨.TK_CTRL, 16, 16, .RM, 0⟩
abbrev TK_HOLD_STAB_PPT : Fld := ⟨.TK_HOLD, 0, 16, .RM, 0⟩
abbrev TK_HOLD_AGEING : Fld := ⟨.TK_HOLD, 16, 16, .RM, 0⟩
abbrev TK_HOLD_OSC_IN_FITTED : Fld := ⟨.TK_HOLD, 32, 1, .RM, 0⟩
abbrev TK_PTP_DOMAIN : Fld := ⟨.TK_PTP, 0, 8, .RM, 0⟩
abbrev TK_PTP_LOG_SYNC : Fld := ⟨.TK_PTP, 8, 4, .RM, 0⟩
abbrev TK_PTP_LOG_PDELAY : Fld := ⟨.TK_PTP, 12, 4, .RM, 0⟩
abbrev TK_PTP_LOG_ANNOUNCE : Fld := ⟨.TK_PTP, 16, 4, .RM, 0⟩
abbrev TK_PTP_PARENT_BOUND_PS : Fld := ⟨.TK_PTP, 24, 24, .RM, 0⟩
abbrev TK_PTP_IPV6 : Fld := ⟨.TK_PTP, 48, 1, .RM, 0⟩
abbrev TK_PTP_ROLES_ROLE : Fld := ⟨.TK_PTP_ROLES, 0, 32, .RM, 0⟩
abbrev TK_PPS_OUT_PERIOD_NS : Fld := ⟨.TK_PPS_OUT, 0, 30, .RM, 0⟩
abbrev TK_PPS_OUT_WIDTH_NS : Fld := ⟨.TK_PPS_OUT, 32, 30, .RM, 0⟩
abbrev TK_PPS_IN_CABLE_DELAY : Fld := ⟨.TK_PPS_IN, 0, 16, .RM, 0⟩
abbrev TK_PPS_IN_HOP_BOUND_PS : Fld := ⟨.TK_PPS_IN, 16, 16, .RM, 0⟩
abbrev TK_PPS_IN_TOD_CLASS : Fld := ⟨.TK_PPS_IN, 32, 8, .RO, 0xff⟩
abbrev TK_PPS_IN_TOD_OK : Fld := ⟨.TK_PPS_IN, 40, 1, .RO, 0⟩
abbrev TK_EVENTS_HOLDOVER_ENTRIES : Fld := ⟨.TK_EVENTS, 0, 16, .RO, 0⟩
abbrev TK_EVENTS_SOURCE_SWITCHES : Fld := ⟨.TK_EVENTS, 16, 16, .RO, 0⟩
abbrev TK_EVENTS_SAMPLES_REJECTED : Fld := ⟨.TK_EVENTS, 32, 16, .RO, 0⟩
abbrev TK_EVENTS_BOUND_EXCEEDED : Fld := ⟨.TK_EVENTS, 48, 8, .RO, 0⟩
abbrev TK_EVENTS_STEPS : Fld := ⟨.TK_EVENTS, 56, 8, .RO, 0⟩
abbrev PH_PORT_CFG_ENABLE : Fld := ⟨.PH_PORT_CFG, 0, 1, .RS, 0⟩
abbrev PH_PORT_CFG_SPLIT : Fld := ⟨.PH_PORT_CFG, 1, 1, .RS, 0⟩
abbrev PH_PORT_CFG_MODE : Fld := ⟨.PH_PORT_CFG, 2, 1, .RS, 0⟩
abbrev PH_PORT_CFG_CIRCUIT0 : Fld := ⟨.PH_PORT_CFG, 3, 1, .RS, 0⟩
abbrev PH_PORT_CFG_CIRCUIT1 : Fld := ⟨.PH_PORT_CFG, 4, 1, .RS, 0⟩
abbrev PH_PORT_CFG_ETH_FORM0 : Fld := ⟨.PH_PORT_CFG, 5, 1, .RS, 0⟩
abbrev PH_PORT_CFG_ETH_FORM1 : Fld := ⟨.PH_PORT_CFG, 6, 1, .RS, 0⟩
abbrev PH_CTRL_RETRAIN0 : Fld := ⟨.PH_CTRL, 0, 1, .RM, 0⟩
abbrev PH_CTRL_RETRAIN1 : Fld := ⟨.PH_CTRL, 1, 1, .RM, 0⟩
abbrev LK_FEC_CORRECTED : Fld := ⟨.LK_FEC, 0, 32, .RO, 0⟩
abbrev LK_FEC_UNCORRECTABLE : Fld := ⟨.LK_FEC, 32, 32, .RO, 0⟩
abbrev LK_DROP_FEC : Fld := ⟨.LK_DROP, 0, 32, .RO, 0⟩
abbrev LK_DROP_FRAMING : Fld := ⟨.LK_DROP, 32, 16, .RO, 0⟩
abbrev LK_DROP_HOP_LIMIT : Fld := ⟨.LK_DROP, 48, 16, .RO, 0⟩
abbrev PH_LINK_STATE : Fld := ⟨.PH_LINK, 0, 3, .RO, 0⟩
abbrev PH_LINK_TRAIN_FAILS : Fld := ⟨.PH_LINK, 8, 8, .RO, 0⟩
abbrev PH_LINK_PARTNER_DEVICE : Fld := ⟨.PH_LINK, 16, 16, .RO, 0⟩
abbrev PH_LINK_PARTNER_HALF : Fld := ⟨.PH_LINK, 32, 4, .RO, 0⟩
abbrev PH_LINK_PARTNER_ROLE : Fld := ⟨.PH_LINK, 36, 2, .RO, 0⟩
abbrev PH_LINK_TX_KP : Fld := ⟨.PH_LINK, 38, 1, .RO, 0⟩
abbrev PH_LINK_SKEW_UNITS : Fld := ⟨.PH_LINK, 40, 12, .RO, 0⟩
abbrev PH_LINK_RELINK_ENTRY : Fld := ⟨.PH_LINK, 52, 3, .RO, 0⟩
abbrev LC_STATUS_TX_PACKETS : Fld := ⟨.LC_STATUS, 0, 32, .RO, 0⟩
abbrev LC_STATUS_TX_KEY_AGE_S : Fld := ⟨.LC_STATUS, 32, 16, .RO, 0⟩
abbrev LC_STATUS_KEY_VALID : Fld := ⟨.LC_STATUS, 48, 1, .RO, 0⟩
abbrev LC_STATUS_REKEY_PENDING : Fld := ⟨.LC_STATUS, 49, 1, .RO, 0⟩
abbrev LC_STATUS_TAG_FAILS : Fld := ⟨.LC_STATUS, 56, 8, .RO, 0⟩
abbrev PH_RELINK_PARTNER_DEVICE : Fld := ⟨.PH_RELINK, 0, 16, .RM, 0⟩
abbrev PH_RELINK_PARTNER_HALF : Fld := ⟨.PH_RELINK, 16, 4, .RM, 0⟩
abbrev PH_RELINK_VALID : Fld := ⟨.PH_RELINK, 20, 1, .RM, 0⟩
abbrev PH_RELINK_EQ_CACHED : Fld := ⟨.PH_RELINK, 21, 1, .RO, 0⟩
abbrev PH_RELINK_KEY_READY : Fld := ⟨.PH_RELINK, 22, 1, .RO, 0⟩
abbrev LK_ETH_CFG_UDP_PORT : Fld := ⟨.LK_ETH_CFG, 0, 16, .RS, 0⟩
abbrev LK_ETH_CFG_ENCAP_EN : Fld := ⟨.LK_ETH_CFG, 16, 1, .RS, 0⟩
abbrev LK_ETH_CFG_BRIDGE_EN : Fld := ⟨.LK_ETH_CFG, 17, 1, .RS, 0⟩
abbrev LK_ETH_CFG_MAC_AGE_S : Fld := ⟨.LK_ETH_CFG, 32, 16, .RM, 0⟩
abbrev NI_WINDOW_BASE_BLK : Fld := ⟨.NI_WINDOW, 0, 15, .RO, 0⟩
abbrev NI_WINDOW_LENGTH_BLK : Fld := ⟨.NI_WINDOW, 16, 16, .RO, 0⟩
abbrev NI_WINDOW_RD : Fld := ⟨.NI_WINDOW, 32, 1, .RO, 0⟩
abbrev NI_WINDOW_WR : Fld := ⟨.NI_WINDOW, 33, 1, .RO, 0⟩
abbrev NI_FIELD_MAP_MAP : Fld := ⟨.NI_FIELD_MAP, 0, 64, .RM, 0⟩
abbrev SG_CTRL_CURRENT : Fld := ⟨.SG_CTRL, 0, 1, .RO, 0⟩
abbrev SG_CTRL_STATE_A : Fld := ⟨.SG_CTRL, 1, 3, .RO, 0⟩
abbrev SG_CTRL_STATE_B : Fld := ⟨.SG_CTRL, 4, 3, .RO, 0⟩
abbrev SG_CTRL_PENDING : Fld := ⟨.SG_CTRL, 7, 1, .RO, 0⟩
abbrev SG_SWITCH_AT_COUNT : Fld := ⟨.SG_SWITCH_AT, 0, 64, .RM, 0⟩
abbrev SG_HOLD_END_COUNT : Fld := ⟨.SG_HOLD_END, 0, 64, .RO, 0⟩
abbrev SG_MARK_MARK_CELLS : Fld := ⟨.SG_MARK, 0, 16, .RM, 0⟩
abbrev SG_MARK_MARK_PRESSURE : Fld := ⟨.SG_MARK, 16, 1, .RM, 0⟩
abbrev NI_AGE_LIMIT_US : Fld := ⟨.NI_AGE, 0, 10, .RO, 0⟩
abbrev NI_AGE_NEXT_US : Fld := ⟨.NI_AGE, 16, 10, .RM, 0⟩
abbrev NI_AGE_PENDING : Fld := ⟨.NI_AGE, 32, 1, .RO, 0⟩
abbrev NI_AGE_AT_COUNT : Fld := ⟨.NI_AGE_AT, 0, 64, .RM, 0⟩
abbrev NI_E2E_TIMEOUT_US : Fld := ⟨.NI_E2E, 0, 14, .RM, 0⟩
abbrev NI_E2E_MAX_RESENDS : Fld := ⟨.NI_E2E, 16, 3, .RM, 0⟩
abbrev NI_E2E_BUSY_BACKOFF_US : Fld := ⟨.NI_E2E, 24, 8, .RM, 0⟩
abbrev NI_TAG_STAT_OPEN : Fld := ⟨.NI_TAG_STAT, 0, 13, .RO, 0⟩
abbrev NI_TAG_STAT_QUARANTINED : Fld := ⟨.NI_TAG_STAT, 16, 13, .RO, 0⟩
abbrev NI_TAG_STAT_STALE : Fld := ⟨.NI_TAG_STAT, 32, 8, .RO, 0⟩
abbrev NI_TAG_STAT_DUPLICATE : Fld := ⟨.NI_TAG_STAT, 40, 8, .RO, 0⟩
abbrev NI_TAG_STAT_RESENDS : Fld := ⟨.NI_TAG_STAT, 48, 8, .RO, 0⟩
abbrev NI_TAG_STAT_GIVEUPS : Fld := ⟨.NI_TAG_STAT, 56, 8, .RO, 0⟩
abbrev NI_DROP_A_AGED : Fld := ⟨.NI_DROP_A, 0, 16, .RO, 0⟩
abbrev NI_DROP_A_NO_TIME : Fld := ⟨.NI_DROP_A, 16, 16, .RO, 0⟩
abbrev NI_DROP_A_TABLE : Fld := ⟨.NI_DROP_A, 32, 16, .RO, 0⟩
abbrev NI_DROP_B_MALFORMED : Fld := ⟨.NI_DROP_B, 0, 12, .RO, 0⟩
abbrev NI_DROP_B_UNREACHABLE : Fld := ⟨.NI_DROP_B, 12, 12, .RO, 0⟩
abbrev NI_DROP_B_FENCED : Fld := ⟨.NI_DROP_B, 24, 12, .RO, 0⟩
abbrev NI_DROP_B_HEDGE : Fld := ⟨.NI_DROP_B, 36, 12, .RO, 0⟩
abbrev NI_DROP_B_CHECK_FAIL : Fld := ⟨.NI_DROP_B, 48, 16, .RO, 0⟩
abbrev XM_SHARE_SHARE_0 : Fld := ⟨.XM_SHARE, 0, 4, .RM, 0⟩
abbrev XM_SHARE_SHARE_1 : Fld := ⟨.XM_SHARE, 4, 4, .RM, 0⟩
abbrev XM_SHARE_SHARE_2 : Fld := ⟨.XM_SHARE, 8, 4, .RM, 0⟩
abbrev XM_SHARE_SHARE_3 : Fld := ⟨.XM_SHARE, 12, 4, .RM, 0⟩
abbrev XM_SHARE_SHARE_4 : Fld := ⟨.XM_SHARE, 16, 4, .RM, 0⟩
abbrev XM_SHARE_SHARE_5 : Fld := ⟨.XM_SHARE, 20, 4, .RM, 0⟩
abbrev XM_SHARE_SHARE_6 : Fld := ⟨.XM_SHARE, 24, 4, .RM, 0⟩
abbrev XM_SHARE_SHARE_7 : Fld := ⟨.XM_SHARE, 28, 4, .RM, 0⟩
abbrev XM_SHARE_SHARE_8 : Fld := ⟨.XM_SHARE, 32, 4, .RM, 0⟩
abbrev XM_SHARE_SHARE_9 : Fld := ⟨.XM_SHARE, 36, 4, .RM, 0⟩
abbrev XM_SHARE_SHARE_10 : Fld := ⟨.XM_SHARE, 40, 4, .RM, 0⟩
abbrev XM_SHARE_SHARE_11 : Fld := ⟨.XM_SHARE, 44, 4, .RM, 0⟩
abbrev XM_SHARE_SHARE_12 : Fld := ⟨.XM_SHARE, 48, 4, .RM, 0⟩
abbrev XM_SHARE_SHARE_13 : Fld := ⟨.XM_SHARE, 52, 4, .RM, 0⟩
abbrev XM_SHARE_SHARE_14 : Fld := ⟨.XM_SHARE, 56, 4, .RM, 0⟩
abbrev XM_SHARE_SHARE_15 : Fld := ⟨.XM_SHARE, 60, 4, .RM, 0⟩
abbrev XM_STATUS_ROUNDS_LAST : Fld := ⟨.XM_STATUS, 0, 2, .RO, 0⟩
abbrev XM_STATUS_FRAMES_SHORT : Fld := ⟨.XM_STATUS, 16, 16, .RO, 0⟩
abbrev XM_STATUS_CARRIED : Fld := ⟨.XM_STATUS, 32, 32, .RO, 0⟩
abbrev GK_FMAP_OWNER_0 : Fld := ⟨.GK_FMAP, 0, 8, .RM, 0⟩
abbrev GK_FMAP_OWNER_1 : Fld := ⟨.GK_FMAP, 8, 8, .RM, 0⟩
abbrev GK_FMAP_OWNER_2 : Fld := ⟨.GK_FMAP, 16, 8, .RM, 0⟩
abbrev GK_FMAP_OWNER_3 : Fld := ⟨.GK_FMAP, 24, 8, .RM, 0⟩
abbrev GK_FMAP_OWNER_4 : Fld := ⟨.GK_FMAP, 32, 8, .RM, 0⟩
abbrev GK_FMAP_OWNER_5 : Fld := ⟨.GK_FMAP, 40, 8, .RM, 0⟩
abbrev GK_FMAP_OWNER_6 : Fld := ⟨.GK_FMAP, 48, 8, .RM, 0⟩
abbrev GK_FMAP_OWNER_7 : Fld := ⟨.GK_FMAP, 56, 8, .RM, 0⟩
abbrev GK_OWNER_MIN_CELLS : Fld := ⟨.GK_OWNER, 0, 15, .RM, 0⟩
abbrev GK_OWNER_SHARE_CAP : Fld := ⟨.GK_OWNER, 16, 15, .RM, 0⟩
abbrev GK_OWNER_SLOT : Fld := ⟨.GK_OWNER, 32, 4, .RO, 0⟩
abbrev GK_OWNER_KIND : Fld := ⟨.GK_OWNER, 36, 4, .RO, 0⟩
abbrev GK_OWNER_TALLY_AGE_US : Fld := ⟨.GK_OWNER, 40, 16, .RM, 0⟩
abbrev GK_OWNER_FENCED : Fld := ⟨.GK_OWNER, 56, 1, .RO, 0⟩
abbrev GK_STATUS_HELD : Fld := ⟨.GK_STATUS, 0, 15, .RO, 0⟩
abbrev GK_STATUS_PRESSURE : Fld := ⟨.GK_STATUS, 16, 2, .RO, 0⟩
abbrev GK_STATUS_SHARED_FREE : Fld := ⟨.GK_STATUS, 32, 15, .RO, 0⟩
abbrev GK_STATUS_RESERVE_FREE : Fld := ⟨.GK_STATUS, 48, 15, .RO, 0⟩
abbrev GK_REGIONS_SCHED_CELLS : Fld := ⟨.GK_REGIONS, 0, 15, .RO, 0⟩
abbrev GK_REGIONS_MANAGED_CELLS : Fld := ⟨.GK_REGIONS, 16, 15, .RO, 0x6000⟩
abbrev GK_REGIONS_PENDING_SCHED : Fld := ⟨.GK_REGIONS, 32, 15, .RO, 0⟩
abbrev GK_REGIONS_CEDE_PENDING : Fld := ⟨.GK_REGIONS, 47, 1, .RO, 0⟩
abbrev GK_OUT_CFG_OUT_CAP : Fld := ⟨.GK_OUT_CFG, 0, 15, .RM, 0⟩
abbrev GK_OUT_CFG_CTRL_SHARE : Fld := ⟨.GK_OUT_CFG, 16, 6, .RM, 0⟩
abbrev GK_OUT_CFG_DEPTH_DATA : Fld := ⟨.GK_OUT_CFG, 32, 15, .RO, 0⟩
abbrev GK_OUT_CFG_DEPTH_CTRL : Fld := ⟨.GK_OUT_CFG, 48, 15, .RO, 0⟩
abbrev GK_TALLY_HELD : Fld := ⟨.GK_TALLY, 0, 16, .RO, 0⟩
abbrev GK_TALLY_HIGH_WATER : Fld := ⟨.GK_TALLY, 16, 16, .RO, 0⟩
abbrev GK_TALLY_OLDEST_AGE_US : Fld := ⟨.GK_TALLY, 32, 16, .RO, 0⟩
abbrev GK_TALLY_FAULTS : Fld := ⟨.GK_TALLY, 56, 8, .RO, 0⟩
abbrev GK_FAULT_CELL : Fld := ⟨.GK_FAULT, 0, 15, .RO, 0⟩
abbrev GK_FAULT_CELL_OWNER : Fld := ⟨.GK_FAULT, 16, 8, .RO, 0⟩
abbrev GK_FAULT_REQ_OWNER : Fld := ⟨.GK_FAULT, 24, 8, .RO, 0⟩
abbrev GK_FAULT_REQ_UNIT : Fld := ⟨.GK_FAULT, 32, 4, .RO, 0⟩
abbrev GK_FAULT_KIND : Fld := ⟨.GK_FAULT, 36, 4, .RO, 0⟩
abbrev GK_FAULT_COUNT : Fld := ⟨.GK_FAULT, 40, 8, .RO, 0⟩
abbrev GK_DROP_BUSY : Fld := ⟨.GK_DROP, 0, 16, .RO, 0⟩
abbrev GK_DROP_CONTROL : Fld := ⟨.GK_DROP, 16, 12, .RO, 0⟩
abbrev GK_DROP_LINK_DOWN : Fld := ⟨.GK_DROP, 28, 12, .RO, 0⟩
abbrev GK_DROP_FENCED : Fld := ⟨.GK_DROP, 40, 12, .RO, 0⟩
abbrev GK_DROP_STAGE_OVERRUN : Fld := ⟨.GK_DROP, 52, 12, .RO, 0⟩
abbrev RB_BANKS_STATE_A : Fld := ⟨.RB_BANKS, 0, 3, .RO, 0⟩
abbrev RB_BANKS_STATE_B : Fld := ⟨.RB_BANKS, 3, 3, .RO, 0⟩
abbrev RB_BANKS_ACTIVE_BANK : Fld := ⟨.RB_BANKS, 6, 1, .RO, 0⟩
abbrev RB_BANKS_ANY_ACTIVE : Fld := ⟨.RB_BANKS, 7, 1, .RO, 0⟩
abbrev RB_BANKS_PENDING : Fld := ⟨.RB_BANKS, 8, 1, .RO, 0⟩
abbrev RB_BANKS_SWAP_FAILED : Fld := ⟨.RB_BANKS, 9, 1, .RMC, 0⟩
abbrev RB_BANKS_BANK_ID : Fld := ⟨.RB_BANKS, 16, 16, .RO, 0⟩
abbrev RB_SWAP_AT_COUNT : Fld := ⟨.RB_SWAP_AT, 0, 64, .RM, 0⟩
abbrev RB_EPOCH_COUNT : Fld := ⟨.RB_EPOCH, 0, 64, .RO, 0⟩
abbrev RB_PERIOD_PERIOD_NS : Fld := ⟨.RB_PERIOD, 0, 24, .RO, 0⟩
abbrev RB_PERIOD_SLOTS : Fld := ⟨.RB_PERIOD, 24, 15, .RO, 0⟩
abbrev RB_SEAL_BANK : Fld := ⟨.RB_SEAL, 0, 1, .RM, 0⟩
abbrev RB_SEAL_OP : Fld := ⟨.RB_SEAL, 1, 2, .RM, 0⟩
abbrev RB_LOAD_ERR_CODE : Fld := ⟨.RB_LOAD_ERR, 0, 8, .RO, 0⟩
abbrev RB_LOAD_ERR_BANK : Fld := ⟨.RB_LOAD_ERR, 8, 1, .RO, 0⟩
abbrev RB_LOAD_ERR_SLOT_INDEX : Fld := ⟨.RB_LOAD_ERR, 16, 14, .RO, 0⟩
abbrev RB_LOAD_ERR_OTHER_INDEX : Fld := ⟨.RB_LOAD_ERR, 32, 14, .RO, 0⟩
abbrev RB_FLOOR_VCORE_MIN_MV : Fld := ⟨.RB_FLOOR, 0, 16, .RO, 0x2bc⟩
abbrev RB_FLOOR_TJ_MAX : Fld := ⟨.RB_FLOOR, 16, 8, .RO, 0x5f⟩
abbrev RB_FLOOR_MARGIN_PCT : Fld := ⟨.RB_FLOOR, 24, 8, .RO, 0x14⟩
abbrev RB_FLOOR_PACE_FLOOR : Fld := ⟨.RB_FLOOR, 32, 16, .RO, 0x1f4⟩
abbrev RB_FLOOR_P_PLAN : Fld := ⟨.RB_FLOOR, 48, 16, .RO, 0x190⟩
abbrev RB_SUSPEND_SUSPENDED : Fld := ⟨.RB_SUSPEND, 0, 16, .RO, 0⟩
abbrev RB_SUSPEND_REASON : Fld := ⟨.RB_SUSPEND, 16, 32, .RO, 0⟩
abbrev RB_RESUME_MASK : Fld := ⟨.RB_RESUME, 0, 16, .RM, 0⟩
abbrev RB_RESUME_AT_COUNT : Fld := ⟨.RB_RESUME_AT, 0, 64, .RM, 0⟩
abbrev RB_ALARM_FLOOR_ALARM : Fld := ⟨.RB_ALARM, 0, 1, .RO, 0⟩
abbrev RB_ALARM_PACE_LOW : Fld := ⟨.RB_ALARM, 1, 1, .RO, 0⟩
abbrev RB_ALARM_PACE_ALARM : Fld := ⟨.RB_ALARM, 2, 1, .RO, 0⟩
abbrev RB_ALARM_TIME_STOP : Fld := ⟨.RB_ALARM, 3, 1, .RO, 0⟩
abbrev RB_ALARM_SUSPEND_PENDING : Fld := ⟨.RB_ALARM, 4, 1, .RO, 0⟩
abbrev RB_ALARM_LEAD_US : Fld := ⟨.RB_ALARM, 16, 16, .RO, 0⟩
abbrev RB_SUSPEND_AT_COUNT : Fld := ⟨.RB_SUSPEND_AT, 0, 64, .RO, 0⟩
abbrev RB_LATE_LATE_SENT : Fld := ⟨.RB_LATE, 0, 16, .RO, 0⟩
abbrev RB_LATE_LATE_DISCARD : Fld := ⟨.RB_LATE, 16, 16, .RO, 0⟩
abbrev RB_LATE_SHORTFALL : Fld := ⟨.RB_LATE, 32, 16, .RO, 0⟩
abbrev RB_LATE_LATE_NAK : Fld := ⟨.RB_LATE, 48, 16, .RO, 0⟩
abbrev TL_RESIDUE_COUNT : Fld := ⟨.TL_RESIDUE, 0, 16, .RO, 0⟩
abbrev TL_RESIDUE_LAST_UNIT : Fld := ⟨.TL_RESIDUE, 16, 3, .RO, 0⟩
abbrev TL_CTRL_RESET : Fld := ⟨.TL_CTRL, 0, 1, .RM, 0⟩
abbrev TL_CTRL_RESET_BUSY : Fld := ⟨.TL_CTRL, 1, 1, .RO, 0⟩
abbrev TL_WB_STATE_ACTIVE : Fld := ⟨.TL_WB_STATE, 0, 11, .RO, 0⟩
abbrev TL_WB_STATE_READY_DEPTH : Fld := ⟨.TL_WB_STATE, 11, 7, .RO, 0⟩
abbrev TL_WB_STATE_GATED : Fld := ⟨.TL_WB_STATE, 18, 11, .RO, 0⟩
abbrev TL_WB_STATE_RUNNING : Fld := ⟨.TL_WB_STATE, 29, 3, .RO, 0⟩
abbrev TL_WB_STAT_COMPLETED : Fld := ⟨.TL_WB_STAT, 0, 32, .RO, 0⟩
abbrev TL_WB_STAT_LATE : Fld := ⟨.TL_WB_STAT, 32, 8, .RO, 0⟩
abbrev TL_WB_STAT_FAULTED : Fld := ⟨.TL_WB_STAT, 40, 8, .RO, 0⟩
abbrev TL_WB_STAT_STALE_REFS : Fld := ⟨.TL_WB_STAT, 48, 8, .RO, 0⟩
abbrev TL_WB_STAT_NOTIFY_FAULTS : Fld := ⟨.TL_WB_STAT, 56, 8, .RO, 0⟩
abbrev TL_STALL_READY_FULL : Fld := ⟨.TL_STALL, 0, 16, .RO, 0⟩
abbrev TL_STALL_ISSUE_FULL : Fld := ⟨.TL_STALL, 16, 16, .RO, 0⟩
abbrev TL_STALL_STORE_FULL : Fld := ⟨.TL_STALL, 32, 16, .RO, 0⟩
abbrev TL_STALL_PARTIAL_WAIT : Fld := ⟨.TL_STALL, 48, 16, .RO, 0⟩
abbrev TM_STAT_INSTANCES : Fld := ⟨.TM_STAT, 0, 32, .RO, 0⟩
abbrev TM_STAT_FORM_FAULTS : Fld := ⟨.TM_STAT, 32, 16, .RO, 0⟩
abbrev TM_STAT_TAG_WAITS : Fld := ⟨.TM_STAT, 48, 16, .RO, 0⟩
abbrev SH_STATUS_NODES_DEFINED : Fld := ⟨.SH_STATUS, 0, 9, .RO, 0⟩
abbrev SH_STATUS_NARROW_BUSY : Fld := ⟨.SH_STATUS, 16, 6, .RO, 0⟩
abbrev SH_STATUS_WIDE_BUSY : Fld := ⟨.SH_STATUS, 24, 5, .RO, 0⟩
abbrev SH_STATUS_RESIDUE_FAILS : Fld := ⟨.SH_STATUS, 32, 16, .RO, 0⟩
abbrev SH_STAT_STALE : Fld := ⟨.SH_STAT, 0, 16, .RO, 0⟩
abbrev SH_STAT_DUPLICATE : Fld := ⟨.SH_STAT, 16, 16, .RO, 0⟩
abbrev SH_STAT_POISONED_CHUNKS : Fld := ⟨.SH_STAT, 32, 16, .RO, 0⟩
abbrev SH_STAT_RESULTS_LOST : Fld := ⟨.SH_STAT, 48, 16, .RO, 0⟩
abbrev SH_STAT_B_HORIZON_BUSY : Fld := ⟨.SH_STAT_B, 0, 16, .RO, 0⟩
abbrev SH_STAT_B_DEADLINES : Fld := ⟨.SH_STAT_B, 16, 16, .RO, 0⟩
abbrev SH_STAT_B_COUNT_OVERFLOWS : Fld := ⟨.SH_STAT_B, 32, 16, .RO, 0⟩
abbrev SH_GRANT_ID_BASE : Fld := ⟨.SH_GRANT, 0, 16, .RO, 0⟩
abbrev SH_GRANT_ID_COUNT : Fld := ⟨.SH_GRANT, 16, 16, .RO, 0⟩
abbrev SH_GRANT_NODES : Fld := ⟨.SH_GRANT, 32, 9, .RO, 0⟩
abbrev SH_GRANT_NARROW_CHUNKS : Fld := ⟨.SH_GRANT, 41, 6, .RO, 0⟩
abbrev SH_GRANT_WIDE_CHUNKS : Fld := ⟨.SH_GRANT, 47, 5, .RO, 0⟩
abbrev SH_USED_NODES_USED : Fld := ⟨.SH_USED, 0, 9, .RO, 0⟩
abbrev SH_USED_NARROW_USED : Fld := ⟨.SH_USED, 16, 6, .RO, 0⟩
abbrev SH_USED_WIDE_USED : Fld := ⟨.SH_USED, 24, 5, .RO, 0⟩
abbrev WN_STATUS_JOBS_DEFINED : Fld := ⟨.WN_STATUS, 0, 7, .RO, 0⟩
abbrev WN_STATUS_ROUNDS_OPEN : Fld := ⟨.WN_STATUS, 8, 7, .RO, 0⟩
abbrev WN_STATUS_RESIDUE_FAILS : Fld := ⟨.WN_STATUS, 16, 16, .RO, 0⟩
abbrev WN_STAT_STALE : Fld := ⟨.WN_STAT, 0, 16, .RO, 0⟩
abbrev WN_STAT_DUPLICATE : Fld := ⟨.WN_STAT, 16, 16, .RO, 0⟩
abbrev WN_STAT_POISONED_ROUNDS : Fld := ⟨.WN_STAT, 32, 16, .RO, 0⟩
abbrev WN_STAT_OUTPUTS_LOST : Fld := ⟨.WN_STAT, 48, 16, .RO, 0⟩
abbrev WN_GRANT_JOBS : Fld := ⟨.WN_GRANT, 0, 7, .RO, 0⟩
abbrev WN_GRANT_JOBS_USED : Fld := ⟨.WN_GRANT, 8, 7, .RO, 0⟩
abbrev GL_STATUS_CONTEXTS_HOMED : Fld := ⟨.GL_STATUS, 0, 10, .RO, 0⟩
abbrev GL_STATUS_CONTEXTS_LOST : Fld := ⟨.GL_STATUS, 16, 10, .RO, 0⟩
abbrev GL_STATUS_RESIDUE_FAILS : Fld := ⟨.GL_STATUS, 32, 16, .RO, 0⟩
abbrev GL_STAT_QUERIES : Fld := ⟨.GL_STAT, 0, 32, .RO, 0⟩
abbrev GL_STAT_DEADLINES : Fld := ⟨.GL_STAT, 32, 16, .RO, 0⟩
abbrev GL_STAT_POISONED : Fld := ⟨.GL_STAT, 48, 16, .RO, 0⟩
abbrev GL_GRANT_CTX_BASE : Fld := ⟨.GL_GRANT, 0, 12, .RO, 0⟩
abbrev GL_GRANT_CTX_COUNT : Fld := ⟨.GL_GRANT, 16, 13, .RO, 0⟩
abbrev FS_SEASONS_OWNER : Fld := ⟨.FS_SEASONS, 0, 3, .RF, 0⟩
abbrev FS_SEASONS_OWNER_SPOILED : Fld := ⟨.FS_SEASONS, 4, 4, .RF, 0⟩
abbrev FS_SEASONS_HEDGE : Fld := ⟨.FS_SEASONS, 8, 3, .RF, 0⟩
abbrev FS_SEASONS_HEDGE_SPOILED : Fld := ⟨.FS_SEASONS, 12, 4, .RF, 0⟩
abbrev FS_SEASONS_TRIM : Fld := ⟨.FS_SEASONS, 16, 4, .RF, 0⟩
abbrev FS_SEASONS_TRIM_SPOILED : Fld := ⟨.FS_SEASONS, 24, 8, .RF, 0⟩
abbrev FS_SEASONS_DEBUG_LOCK : Fld := ⟨.FS_SEASONS, 32, 1, .RF, 0⟩
abbrev FS_SEASONS_ROLLBACK : Fld := ⟨.FS_SEASONS, 33, 8, .RF, 0⟩
abbrev FS_SEASONS_FUSE_FAULT : Fld := ⟨.FS_SEASONS, 41, 1, .RO, 0⟩
abbrev FS_OWNER_HASH_HASH : Fld := ⟨.FS_OWNER_HASH, 0, 64, .RF, 0⟩
abbrev FS_HEDGE_HASH_HASH : Fld := ⟨.FS_HEDGE_HASH, 0, 64, .RF, 0⟩
abbrev FS_ORDER_BUSY : Fld := ⟨.FS_ORDER, 0, 1, .RO, 0⟩
abbrev FS_ORDER_RESULT : Fld := ⟨.FS_ORDER, 8, 8, .RO, 0⟩
abbrev FS_ORDER_GROUP : Fld := ⟨.FS_ORDER, 16, 8, .RO, 0⟩
abbrev FS_ORDER_ORDERS : Fld := ⟨.FS_ORDER, 24, 16, .RO, 0⟩
abbrev TC_STATUS_STATE : Fld := ⟨.TC_STATUS, 0, 2, .RO, 0⟩
abbrev TC_STATUS_IDENTITY_OK : Fld := ⟨.TC_STATUS, 2, 1, .RO, 0⟩
abbrev TC_STATUS_IMAGE_OK : Fld := ⟨.TC_STATUS, 3, 1, .RO, 0⟩
abbrev TC_STATUS_ALMANAC_OK : Fld := ⟨.TC_STATUS, 4, 1, .RO, 0⟩
abbrev TC_STATUS_DEBUG_OPENED : Fld := ⟨.TC_STATUS, 5, 1, .RO, 0⟩
abbrev TC_STATUS_HANDSHAKES : Fld := ⟨.TC_STATUS, 6, 4, .RO, 0⟩
abbrev TC_STATUS_SESSIONS : Fld := ⟨.TC_STATUS, 10, 4, .RO, 0⟩
abbrev TC_STATUS_REFUSALS : Fld := ⟨.TC_STATUS, 16, 16, .RO, 0⟩
abbrev TC_STATUS_ATTESTATIONS : Fld := ⟨.TC_STATUS, 32, 16, .RO, 0⟩
abbrev TC_IDENTITY_KEY_ID : Fld := ⟨.TC_IDENTITY, 0, 64, .RO, 0⟩
abbrev TC_PORT_CLASS_ENDPOINT : Fld := ⟨.TC_PORT_CLASS, 0, 16, .RS, 0⟩
abbrev TC_RELAY_HALF_PORT : Fld := ⟨.TC_RELAY, 0, 4, .RM, 0⟩
abbrev TC_RELAY_ENTRY : Fld := ⟨.TC_RELAY, 4, 3, .RM, 0⟩
abbrev TC_RELAY_START : Fld := ⟨.TC_RELAY, 7, 1, .RM, 0⟩
abbrev TC_RELAY_STATE : Fld := ⟨.TC_RELAY, 8, 2, .RO, 0⟩
abbrev TC_PARTNER_KEY_ID : Fld := ⟨.TC_PARTNER, 0, 64, .RO, 0⟩
abbrev SL_BIST_FAILED : Fld := ⟨.SL_BIST, 0, 34, .RO, 0⟩
abbrev SL_NVM_MODE : Fld := ⟨.SL_NVM, 0, 2, .RO, 0⟩
abbrev SL_NVM_DENSITY_LOG2 : Fld := ⟨.SL_NVM, 2, 6, .RO, 0⟩
abbrev SL_NVM_JEDEC_ID : Fld := ⟨.SL_NVM, 16, 24, .RO, 0⟩
abbrev SL_STATUS_STATE : Fld := ⟨.SL_STATUS, 0, 3, .RO, 0⟩
abbrev SL_STATUS_SOURCE : Fld := ⟨.SL_STATUS, 3, 2, .RO, 0⟩
abbrev SL_STATUS_ROLE : Fld := ⟨.SL_STATUS, 5, 1, .RO, 0⟩
abbrev SL_STATUS_POS : Fld := ⟨.SL_STATUS, 6, 2, .RO, 0⟩
abbrev SL_STATUS_RESULT_PRI : Fld := ⟨.SL_STATUS, 8, 8, .RO, 0⟩
abbrev SL_STATUS_RESULT_SEC : Fld := ⟨.SL_STATUS, 16, 8, .RO, 0⟩
abbrev SL_STATUS_SOURCE_VIA : Fld := ⟨.SL_STATUS, 24, 2, .RO, 0⟩
abbrev SL_STATUS_ATTEMPTS : Fld := ⟨.SL_STATUS, 26, 3, .RO, 0⟩
abbrev SL_STATUS_IMAGE_ID : Fld := ⟨.SL_STATUS, 32, 16, .RO, 0⟩
abbrev SL_TIMES_TESTED_MS : Fld := ⟨.SL_TIMES, 0, 16, .RO, 0⟩
abbrev SL_TIMES_VERIFIED_MS : Fld := ⟨.SL_TIMES, 16, 16, .RO, 0⟩
abbrev SL_TIMES_SEEDED_MS : Fld := ⟨.SL_TIMES, 32, 16, .RO, 0⟩
abbrev PW_CAP_CAP_W : Fld := ⟨.PW_CAP, 0, 16, .RM, 0⟩
abbrev PW_CAP_PACKAGE_W : Fld := ⟨.PW_CAP, 16, 16, .RO, 0⟩
abbrev PW_CAP_THERM_TRIPPED : Fld := ⟨.PW_CAP, 32, 1, .RO, 0⟩
abbrev PW_CAP_OC_TRIPPED : Fld := ⟨.PW_CAP, 40, 8, .RO, 0⟩
abbrev SM_HANG_TILE_STALLS : Fld := ⟨.SM_HANG, 0, 16, .RO, 0⟩
abbrev SM_HANG_SHARED_STALLS : Fld := ⟨.SM_HANG, 16, 16, .RO, 0⟩
abbrev SM_HANG_BOUND_NS : Fld := ⟨.SM_HANG, 32, 16, .RO, 0⟩
abbrev SM_STATUS_STATE : Fld := ⟨.SM_STATUS, 0, 2, .RO, 0⟩
abbrev SM_STATUS_MON_DISAGREE : Fld := ⟨.SM_STATUS, 2, 1, .RO, 0⟩
abbrev SM_STATUS_DIES_FENCED : Fld := ⟨.SM_STATUS, 3, 8, .RO, 0⟩
abbrev SM_STATUS_PORTS_SILENT : Fld := ⟨.SM_STATUS, 11, 16, .RO, 0⟩
abbrev SM_STATUS_DETECTED : Fld := ⟨.SM_STATUS, 32, 16, .RO, 0⟩
abbrev SM_STATUS_CONSEQUENTIAL : Fld := ⟨.SM_STATUS, 48, 16, .RO, 0⟩
abbrev SM_FIELD_STATE_FENCED : Fld := ⟨.SM_FIELD_STATE, 0, 1, .RO, 0⟩
abbrev SM_FIELD_STATE_SILENT : Fld := ⟨.SM_FIELD_STATE, 1, 1, .RO, 0⟩
abbrev SM_FIELD_STATE_IN_RECOVERY : Fld := ⟨.SM_FIELD_STATE, 2, 1, .RO, 0⟩
abbrev SM_FIELD_STATE_CAUSE : Fld := ⟨.SM_FIELD_STATE, 8, 8, .RO, 0⟩
abbrev SM_FIELD_STATE_FIRST_SEQ : Fld := ⟨.SM_FIELD_STATE, 16, 32, .RO, 0⟩
abbrev SM_DIE_STATE_FENCED : Fld := ⟨.SM_DIE_STATE, 0, 1, .RO, 0⟩
abbrev SM_DIE_STATE_POWERED : Fld := ⟨.SM_DIE_STATE, 1, 1, .RO, 0⟩
abbrev SM_DIE_STATE_PORT_SILENT : Fld := ⟨.SM_DIE_STATE, 2, 2, .RO, 0⟩
abbrev SM_DIE_STATE_RESET_BUSY : Fld := ⟨.SM_DIE_STATE, 4, 1, .RO, 0⟩
abbrev SM_DIE_STATE_CAUSE : Fld := ⟨.SM_DIE_STATE, 8, 8, .RO, 0⟩
abbrev SM_DIE_STATE_FIRST_SEQ : Fld := ⟨.SM_DIE_STATE, 16, 32, .RO, 0⟩
abbrev SM_ROWS_SUSPECT : Fld := ⟨.SM_ROWS, 0, 32, .RO, 0⟩
abbrev SM_ROWS_CLEAN : Fld := ⟨.SM_ROWS, 32, 32, .RO, 0⟩
abbrev SM_RESET_KIND : Fld := ⟨.SM_RESET, 0, 3, .RM, 0⟩
abbrev SM_RESET_SLOT : Fld := ⟨.SM_RESET, 3, 4, .RM, 0⟩
abbrev SM_RESET_DIE : Fld := ⟨.SM_RESET, 7, 3, .RM, 0⟩
abbrev SM_RESET_BUSY : Fld := ⟨.SM_RESET, 10, 1, .RO, 0⟩
abbrev SM_RESET_RESULT : Fld := ⟨.SM_RESET, 16, 8, .RO, 0⟩
abbrev DM_STATUS_DUMPS : Fld := ⟨.DM_STATUS, 0, 4, .RO, 0⟩
abbrev DM_STATUS_SAMPLING : Fld := ⟨.DM_STATUS, 4, 1, .RO, 0⟩
abbrev DM_STATUS_USED_KIB : Fld := ⟨.DM_STATUS, 8, 24, .RO, 0⟩
abbrev DM_STATUS_NEWEST_SEQ : Fld := ⟨.DM_STATUS, 32, 32, .RO, 0⟩
abbrev DM_ACK_DUMP_SEQ : Fld := ⟨.DM_ACK, 0, 32, .RM, 0⟩
abbrev DM_ACK_OLDEST_SEQ : Fld := ⟨.DM_ACK, 32, 32, .RO, 0⟩
abbrev EV_STATUS_HEAD : Fld := ⟨.EV_STATUS, 0, 32, .RO, 0⟩
abbrev EV_STATUS_HELD : Fld := ⟨.EV_STATUS, 32, 17, .RO, 0⟩
abbrev EV_STATUS_FIFO_DEPTH : Fld := ⟨.EV_STATUS, 49, 7, .RO, 0⟩
abbrev EV_STATUS_TORN_DISCARDS : Fld := ⟨.EV_STATUS, 56, 8, .RO, 0⟩
abbrev EV_LOST_COUNT : Fld := ⟨.EV_LOST, 0, 32, .RO, 0⟩
abbrev EV_LOST_FIRST_COUNT : Fld := ⟨.EV_LOST_FIRST, 0, 64, .RO, 0⟩
abbrev EV_LOST_LAST_COUNT : Fld := ⟨.EV_LOST_LAST, 0, 64, .RO, 0⟩
abbrev SM_FALLOW_PHYS0 : Fld := ⟨.SM_FALLOW, 0, 6, .RF, 0⟩
abbrev SM_FALLOW_LROW0 : Fld := ⟨.SM_FALLOW, 6, 5, .RO, 0⟩
abbrev SM_FALLOW_IN_USE0 : Fld := ⟨.SM_FALLOW, 11, 1, .RO, 0⟩
abbrev SM_FALLOW_USABLE0 : Fld := ⟨.SM_FALLOW, 12, 1, .RO, 0⟩
abbrev SM_FALLOW_PHYS1 : Fld := ⟨.SM_FALLOW, 16, 6, .RF, 0⟩
abbrev SM_FALLOW_LROW1 : Fld := ⟨.SM_FALLOW, 22, 5, .RO, 0⟩
abbrev SM_FALLOW_IN_USE1 : Fld := ⟨.SM_FALLOW, 27, 1, .RO, 0⟩
abbrev SM_FALLOW_USABLE1 : Fld := ⟨.SM_FALLOW, 28, 1, .RO, 0⟩
abbrev SM_FALLOW_RETIRED : Fld := ⟨.SM_FALLOW, 30, 34, .RO, 0⟩
abbrev SM_FALLOW_REQ_LROW : Fld := ⟨.SM_FALLOW_REQ, 0, 5, .RM, 0⟩
abbrev SM_FALLOW_REQ_ENTRY : Fld := ⟨.SM_FALLOW_REQ, 5, 1, .RM, 0⟩
abbrev SM_FALLOW_REQ_PENDING : Fld := ⟨.SM_FALLOW_REQ, 6, 1, .RO, 0⟩
abbrev SM_FALLOW_AT_COUNT : Fld := ⟨.SM_FALLOW_AT, 0, 64, .RM, 0⟩
abbrev SM_ADMIT_BARRIER_ID : Fld := ⟨.SM_ADMIT, 0, 16, .RM, 0⟩
abbrev SM_ADMIT_BANK : Fld := ⟨.SM_ADMIT, 16, 1, .RM, 0⟩
abbrev SM_ADMIT_SWITCH : Fld := ⟨.SM_ADMIT, 17, 1, .RM, 0⟩
abbrev SM_ADMIT_RESUME : Fld := ⟨.SM_ADMIT, 18, 1, .RM, 0⟩
abbrev SM_ADMIT_ARMED : Fld := ⟨.SM_ADMIT, 19, 1, .RO, 0⟩
abbrev SM_ADMIT_RESULT : Fld := ⟨.SM_ADMIT, 24, 8, .RO, 0⟩
abbrev SG_SEAL_SEAL : Fld := ⟨.SG_SEAL, 0, 1, .RM, 0⟩
abbrev SG_SEAL_DISCARD : Fld := ⟨.SG_SEAL, 1, 1, .RM, 0⟩
abbrev SG_SEAL_BUSY : Fld := ⟨.SG_SEAL, 2, 1, .RO, 0⟩
abbrev SG_SEAL_RESULT : Fld := ⟨.SG_SEAL, 8, 8, .RO, 0⟩
abbrev SG_SEAL_ERR_DIE : Fld := ⟨.SG_SEAL, 16, 3, .RO, 0⟩
abbrev SG_SEAL_ERR_SLOT : Fld := ⟨.SG_SEAL, 19, 4, .RO, 0⟩
abbrev SG_SEAL_ERR_BLOCK : Fld := ⟨.SG_SEAL, 23, 14, .RO, 0⟩
abbrev DV_MGR_STAT_MAC_FAILS : Fld := ⟨.DV_MGR_STAT, 0, 16, .RO, 0⟩
abbrev DV_MGR_STAT_SEQ_REJECTS : Fld := ⟨.DV_MGR_STAT, 16, 16, .RO, 0⟩
abbrev DV_MGR_STAT_PORT_REFUSED : Fld := ⟨.DV_MGR_STAT, 32, 16, .RO, 0⟩
abbrev DV_MGR_STAT_ABANDONED : Fld := ⟨.DV_MGR_STAT, 48, 16, .RO, 0⟩
abbrev DV_SNAP_STATE : Fld := ⟨.DV_SNAP, 0, 2, .RO, 0⟩
abbrev DV_SNAP_GROUP : Fld := ⟨.DV_SNAP, 8, 8, .RO, 0⟩
abbrev DV_SNAP_DIE : Fld := ⟨.DV_SNAP, 16, 3, .RO, 0⟩
abbrev DV_SNAP_TILE : Fld := ⟨.DV_SNAP, 19, 11, .RO, 0⟩
abbrev DV_SNAP_AT_COUNT : Fld := ⟨.DV_SNAP_AT, 0, 64, .RO, 0⟩
abbrev DV_ALERT_CAUSE : Fld := ⟨.DV_ALERT, 0, 10, .RO, 0⟩
abbrev DV_ALERT_LATCH : Fld := ⟨.DV_ALERT, 16, 10, .RMC, 0⟩
abbrev DV_ALERT_MASK : Fld := ⟨.DV_ALERT, 32, 10, .RM, 0⟩
abbrev DV_ID_DEVICE : Fld := ⟨.DV_ID, 0, 16, .RS, 0⟩
abbrev DV_MGR_PORTS_MGR_HALF : Fld := ⟨.DV_MGR_PORTS, 0, 16, .RS, 0⟩
abbrev LK_ETH_PATH_KR8_NS : Fld := ⟨.LK_ETH_PATH, 0, 16, .RO, 0x1c2⟩
abbrev LK_ETH_PATH_KR4_NS : Fld := ⟨.LK_ETH_PATH, 16, 16, .RO, 0x230⟩
abbrev LK_TUNNEL_0_HALF_PORT : Fld := ⟨.LK_TUNNEL_0, 0, 4, .RS, 0⟩
abbrev LK_TUNNEL_0_VALID : Fld := ⟨.LK_TUNNEL_0, 4, 1, .RS, 0⟩
abbrev LK_TUNNEL_0_TAGGED : Fld := ⟨.LK_TUNNEL_0, 5, 1, .RS, 0⟩
abbrev LK_TUNNEL_0_VLAN : Fld := ⟨.LK_TUNNEL_0, 8, 12, .RS, 0⟩
abbrev LK_TUNNEL_1_LOCAL_MAC : Fld := ⟨.LK_TUNNEL_1, 0, 48, .RS, 0⟩
abbrev LK_TUNNEL_2_PEER_MAC : Fld := ⟨.LK_TUNNEL_2, 0, 48, .RS, 0⟩
abbrev LK_TUNNEL_3_LOCAL_IP_HI : Fld := ⟨.LK_TUNNEL_3, 0, 64, .RS, 0⟩
abbrev LK_TUNNEL_4_LOCAL_IP_LO : Fld := ⟨.LK_TUNNEL_4, 0, 64, .RS, 0⟩
abbrev LK_TUNNEL_5_PEER_IP_HI : Fld := ⟨.LK_TUNNEL_5, 0, 64, .RS, 0⟩
abbrev LK_TUNNEL_6_PEER_IP_LO : Fld := ⟨.LK_TUNNEL_6, 0, 64, .RS, 0⟩

/-- XM_SHARE.SHARE_s for a slot s (R148). -/
abbrev XM_SHARE (s : Nat) : Fld := ⟨.XM_SHARE, 4 * s, 4, .RM, 0⟩

/-- GK_FMAP_w.OWNER_b (R157). -/
abbrev GK_FMAP (b : Nat) : Fld := ⟨.GK_FMAP, 8 * b, 8, .RM, 0⟩

end F


/-- Part 0 of the device registers of R441. -/
def regDevice0 : List RegSpec :=
  [ ⟨.DV_PART, 0, 0x0, [],
      [F.DV_PART_STEPPING, F.DV_PART_GRADE, F.DV_PART_TILES_PER_DIE, F.DV_PART_PART_CODE]⟩
  , ⟨.DV_AIC, 0, 0x8, [],
      [F.DV_AIC_AIC, F.DV_AIC_VALID]⟩
  , ⟨.DV_FIELD_SLOT, 0, 0x100, [⟨0, 16, 8⟩],
      [F.DV_FIELD_SLOT_FIELD_ID, F.DV_FIELD_SLOT_STATE, F.DV_FIELD_SLOT_DIE_MASK, F.DV_FIELD_SLOT_TILE_ROWS]⟩
  , ⟨.TK_STATUS, 0, 0x1008, [],
      [F.TK_STATUS_STATE, F.TK_STATUS_VALID, F.TK_STATUS_SRC_KIND, F.TK_STATUS_SRC_INDEX, F.TK_STATUS_LEAD_DIE, F.TK_STATUS_STEP_WAIT, F.TK_STATUS_BOUND_PS, F.TK_STATUS_HOPS]⟩
  , ⟨.TK_NOW, 0, 0xFF8, [],
      [F.TK_NOW_COUNT]⟩
  , ⟨.TK_SRC, 0, 0x1018, [⟨0, 4, 8⟩],
      [F.TK_SRC_KIND, F.TK_SRC_HALF_PORT]⟩
  , ⟨.TK_CTRL, 0, 0x1010, [],
      [F.TK_CTRL_STEP_ARM, F.TK_CTRL_PPS_OUT_EN, F.TK_CTRL_TAI_UTC]⟩
  , ⟨.TK_HOLD, 0, 0x1038, [],
      [F.TK_HOLD_STAB_PPT, F.TK_HOLD_AGEING, F.TK_HOLD_OSC_IN_FITTED]⟩
  , ⟨.TK_PTP, 0, 0x1050, [],
      [F.TK_PTP_DOMAIN, F.TK_PTP_LOG_SYNC, F.TK_PTP_LOG_PDELAY, F.TK_PTP_LOG_ANNOUNCE, F.TK_PTP_PARENT_BOUND_PS, F.TK_PTP_IPV6]⟩
  , ⟨.TK_PTP_ROLES, 0, 0x1058, [],
      [F.TK_PTP_ROLES_ROLE]⟩
  , ⟨.TK_PPS_OUT, 0, 0x1040, [],
      [F.TK_PPS_OUT_PERIOD_NS, F.TK_PPS_OUT_WIDTH_NS]⟩
  , ⟨.TK_PPS_IN, 0, 0x1048, [],
      [F.TK_PPS_IN_CABLE_DELAY, F.TK_PPS_IN_HOP_BOUND_PS, F.TK_PPS_IN_TOD_CLASS, F.TK_PPS_IN_TOD_OK]⟩
  , ⟨.TK_EVENTS, 0, 0x1060, [],
      [F.TK_EVENTS_HOLDOVER_ENTRIES, F.TK_EVENTS_SOURCE_SWITCHES, F.TK_EVENTS_SAMPLES_REJECTED, F.TK_EVENTS_BOUND_EXCEEDED, F.TK_EVENTS_STEPS]⟩
  , ⟨.LK_ETH_CFG, 0, 0x2000, [],
      [F.LK_ETH_CFG_UDP_PORT, F.LK_ETH_CFG_ENCAP_EN, F.LK_ETH_CFG_BRIDGE_EN, F.LK_ETH_CFG_MAC_AGE_S]⟩
  , ⟨.SG_CTRL, 0, 0x3020, [],
      [F.SG_CTRL_CURRENT, F.SG_CTRL_STATE_A, F.SG_CTRL_STATE_B, F.SG_CTRL_PENDING]⟩
  , ⟨.SG_SWITCH_AT, 0, 0x3028, [],
      [F.SG_SWITCH_AT_COUNT]⟩
  , ⟨.SG_HOLD_END, 0, 0x3030, [],
      [F.SG_HOLD_END_COUNT]⟩
  , ⟨.NI_AGE, 0, 0x3000, [],
      [F.NI_AGE_LIMIT_US, F.NI_AGE_NEXT_US, F.NI_AGE_PENDING]⟩
  , ⟨.NI_AGE_AT, 0, 0x3008, [],
      [F.NI_AGE_AT_COUNT]⟩
  , ⟨.NI_E2E, 0, 0x3010, [],
      [F.NI_E2E_TIMEOUT_US, F.NI_E2E_MAX_RESENDS, F.NI_E2E_BUSY_BACKOFF_US]⟩
  ]

/-- Part 1 of the device registers of R441. -/
def regDevice1 : List RegSpec :=
  [ ⟨.RB_BANKS, 0, 0x6000, [],
      [F.RB_BANKS_STATE_A, F.RB_BANKS_STATE_B, F.RB_BANKS_ACTIVE_BANK, F.RB_BANKS_ANY_ACTIVE, F.RB_BANKS_PENDING, F.RB_BANKS_SWAP_FAILED, F.RB_BANKS_BANK_ID]⟩
  , ⟨.RB_SWAP_AT, 0, 0x6008, [],
      [F.RB_SWAP_AT_COUNT]⟩
  , ⟨.RB_EPOCH, 0, 0x6010, [],
      [F.RB_EPOCH_COUNT]⟩
  , ⟨.RB_PERIOD, 0, 0x6018, [],
      [F.RB_PERIOD_PERIOD_NS, F.RB_PERIOD_SLOTS]⟩
  , ⟨.RB_SEAL, 0, 0x6048, [],
      [F.RB_SEAL_BANK, F.RB_SEAL_OP]⟩
  , ⟨.RB_LOAD_ERR, 0, 0x6028, [],
      [F.RB_LOAD_ERR_CODE, F.RB_LOAD_ERR_BANK, F.RB_LOAD_ERR_SLOT_INDEX, F.RB_LOAD_ERR_OTHER_INDEX]⟩
  , ⟨.RB_FLOOR, 0, 0x6020, [],
      [F.RB_FLOOR_VCORE_MIN_MV, F.RB_FLOOR_TJ_MAX, F.RB_FLOOR_MARGIN_PCT, F.RB_FLOOR_PACE_FLOOR, F.RB_FLOOR_P_PLAN]⟩
  , ⟨.RB_SUSPEND, 0, 0x6030, [],
      [F.RB_SUSPEND_SUSPENDED, F.RB_SUSPEND_REASON]⟩
  , ⟨.RB_RESUME, 0, 0x6038, [],
      [F.RB_RESUME_MASK]⟩
  , ⟨.RB_RESUME_AT, 0, 0x6040, [],
      [F.RB_RESUME_AT_COUNT]⟩
  , ⟨.GL_GRANT, 0, 0xA100, [⟨0, 16, 8⟩],
      [F.GL_GRANT_CTX_BASE, F.GL_GRANT_CTX_COUNT]⟩
  , ⟨.FS_SEASONS, 0, 0xB000, [],
      [F.FS_SEASONS_OWNER, F.FS_SEASONS_OWNER_SPOILED, F.FS_SEASONS_HEDGE, F.FS_SEASONS_HEDGE_SPOILED, F.FS_SEASONS_TRIM, F.FS_SEASONS_TRIM_SPOILED, F.FS_SEASONS_DEBUG_LOCK, F.FS_SEASONS_ROLLBACK, F.FS_SEASONS_FUSE_FAULT]⟩
  , ⟨.FS_OWNER_HASH, 0, 0xB100, [⟨0, 4, 64⟩, ⟨0, 6, 8⟩],
      [F.FS_OWNER_HASH_HASH]⟩
  , ⟨.FS_HEDGE_HASH, 0, 0xB200, [⟨0, 4, 64⟩, ⟨0, 6, 8⟩],
      [F.FS_HEDGE_HASH_HASH]⟩
  , ⟨.FS_ORDER, 0, 0xB008, [],
      [F.FS_ORDER_BUSY, F.FS_ORDER_RESULT, F.FS_ORDER_GROUP, F.FS_ORDER_ORDERS]⟩
  , ⟨.TC_STATUS, 0, 0xC000, [],
      [F.TC_STATUS_STATE, F.TC_STATUS_IDENTITY_OK, F.TC_STATUS_IMAGE_OK, F.TC_STATUS_ALMANAC_OK, F.TC_STATUS_DEBUG_OPENED, F.TC_STATUS_HANDSHAKES, F.TC_STATUS_SESSIONS, F.TC_STATUS_REFUSALS, F.TC_STATUS_ATTESTATIONS]⟩
  , ⟨.TC_IDENTITY, 0, 0xC010, [⟨0, 2, 8⟩],
      [F.TC_IDENTITY_KEY_ID]⟩
  , ⟨.TC_PORT_CLASS, 0, 0xC008, [],
      [F.TC_PORT_CLASS_ENDPOINT]⟩
  , ⟨.TC_RELAY, 0, 0xC020, [],
      [F.TC_RELAY_HALF_PORT, F.TC_RELAY_ENTRY, F.TC_RELAY_START, F.TC_RELAY_STATE]⟩
  , ⟨.TC_PARTNER, 0, 0xC100, [⟨0, 16, 16⟩, ⟨0, 2, 8⟩],
      [F.TC_PARTNER_KEY_ID]⟩
  ]

/-- Part 2 of the device registers of R441. -/
def regDevice2 : List RegSpec :=
  [ ⟨.SL_NVM, 0, 0xD010, [⟨0, 2, 8⟩],
      [F.SL_NVM_MODE, F.SL_NVM_DENSITY_LOG2, F.SL_NVM_JEDEC_ID]⟩
  , ⟨.SL_STATUS, 0, 0xD000, [],
      [F.SL_STATUS_STATE, F.SL_STATUS_SOURCE, F.SL_STATUS_ROLE, F.SL_STATUS_POS, F.SL_STATUS_RESULT_PRI, F.SL_STATUS_RESULT_SEC, F.SL_STATUS_SOURCE_VIA, F.SL_STATUS_ATTEMPTS, F.SL_STATUS_IMAGE_ID]⟩
  , ⟨.SL_TIMES, 0, 0xD008, [],
      [F.SL_TIMES_TESTED_MS, F.SL_TIMES_VERIFIED_MS, F.SL_TIMES_SEEDED_MS]⟩
  , ⟨.PW_CAP, 0, 0xE000, [],
      [F.PW_CAP_CAP_W, F.PW_CAP_PACKAGE_W, F.PW_CAP_THERM_TRIPPED, F.PW_CAP_OC_TRIPPED]⟩
  , ⟨.SM_STATUS, 0, 0xF000, [],
      [F.SM_STATUS_STATE, F.SM_STATUS_MON_DISAGREE, F.SM_STATUS_DIES_FENCED, F.SM_STATUS_PORTS_SILENT, F.SM_STATUS_DETECTED, F.SM_STATUS_CONSEQUENTIAL]⟩
  , ⟨.SM_FIELD_STATE, 0, 0xF100, [⟨0, 16, 8⟩],
      [F.SM_FIELD_STATE_FENCED, F.SM_FIELD_STATE_SILENT, F.SM_FIELD_STATE_IN_RECOVERY, F.SM_FIELD_STATE_CAUSE, F.SM_FIELD_STATE_FIRST_SEQ]⟩
  , ⟨.SM_RESET, 0, 0xF008, [],
      [F.SM_RESET_KIND, F.SM_RESET_SLOT, F.SM_RESET_DIE, F.SM_RESET_BUSY, F.SM_RESET_RESULT]⟩
  , ⟨.DM_STATUS, 0, 0x11000, [],
      [F.DM_STATUS_DUMPS, F.DM_STATUS_SAMPLING, F.DM_STATUS_USED_KIB, F.DM_STATUS_NEWEST_SEQ]⟩
  , ⟨.DM_ACK, 0, 0x11008, [],
      [F.DM_ACK_DUMP_SEQ, F.DM_ACK_OLDEST_SEQ]⟩
  , ⟨.EV_STATUS, 0, 0x10000, [],
      [F.EV_STATUS_HEAD, F.EV_STATUS_HELD, F.EV_STATUS_FIFO_DEPTH, F.EV_STATUS_TORN_DISCARDS]⟩
  , ⟨.EV_LOST, 0, 0x10100, [⟨1, 15, 8⟩],
      [F.EV_LOST_COUNT]⟩
  , ⟨.EV_LOST_FIRST, 0, 0x10200, [⟨1, 15, 8⟩],
      [F.EV_LOST_FIRST_COUNT]⟩
  , ⟨.EV_LOST_LAST, 0, 0x10300, [⟨1, 15, 8⟩],
      [F.EV_LOST_LAST_COUNT]⟩
  , ⟨.SM_ADMIT, 0, 0xF010, [],
      [F.SM_ADMIT_BARRIER_ID, F.SM_ADMIT_BANK, F.SM_ADMIT_SWITCH, F.SM_ADMIT_RESUME, F.SM_ADMIT_ARMED, F.SM_ADMIT_RESULT]⟩
  , ⟨.SG_SEAL, 0, 0x3038, [],
      [F.SG_SEAL_SEAL, F.SG_SEAL_DISCARD, F.SG_SEAL_BUSY, F.SG_SEAL_RESULT, F.SG_SEAL_ERR_DIE, F.SG_SEAL_ERR_SLOT, F.SG_SEAL_ERR_BLOCK]⟩
  , ⟨.DV_MGR_STAT, 0, 0x28, [],
      [F.DV_MGR_STAT_MAC_FAILS, F.DV_MGR_STAT_SEQ_REJECTS, F.DV_MGR_STAT_PORT_REFUSED, F.DV_MGR_STAT_ABANDONED]⟩
  , ⟨.DV_SNAP, 0, 0x40, [⟨0, 4, 8⟩],
      [F.DV_SNAP_STATE, F.DV_SNAP_GROUP, F.DV_SNAP_DIE, F.DV_SNAP_TILE]⟩
  , ⟨.DV_SNAP_AT, 0, 0x60, [⟨0, 4, 8⟩],
      [F.DV_SNAP_AT_COUNT]⟩
  , ⟨.DV_ALERT, 0, 0x20, [],
      [F.DV_ALERT_CAUSE, F.DV_ALERT_LATCH, F.DV_ALERT_MASK]⟩
  , ⟨.DV_ID, 0, 0x10, [],
      [F.DV_ID_DEVICE]⟩
  ]

/-- Part 3 of the device registers of R441. -/
def regDevice3 : List RegSpec :=
  [ ⟨.DV_MGR_PORTS, 0, 0x18, [],
      [F.DV_MGR_PORTS_MGR_HALF]⟩
  , ⟨.LK_ETH_PATH, 0, 0x2008, [],
      [F.LK_ETH_PATH_KR8_NS, F.LK_ETH_PATH_KR4_NS]⟩
  , ⟨.LK_TUNNEL_0, 0, 0x2400, [⟨0, 16, 64⟩],
      [F.LK_TUNNEL_0_HALF_PORT, F.LK_TUNNEL_0_VALID, F.LK_TUNNEL_0_TAGGED, F.LK_TUNNEL_0_VLAN]⟩
  , ⟨.LK_TUNNEL_1, 0, 0x2408, [⟨0, 16, 64⟩],
      [F.LK_TUNNEL_1_LOCAL_MAC]⟩
  , ⟨.LK_TUNNEL_2, 0, 0x2410, [⟨0, 16, 64⟩],
      [F.LK_TUNNEL_2_PEER_MAC]⟩
  , ⟨.LK_TUNNEL_3, 0, 0x2418, [⟨0, 16, 64⟩],
      [F.LK_TUNNEL_3_LOCAL_IP_HI]⟩
  , ⟨.LK_TUNNEL_4, 0, 0x2420, [⟨0, 16, 64⟩],
      [F.LK_TUNNEL_4_LOCAL_IP_LO]⟩
  , ⟨.LK_TUNNEL_5, 0, 0x2428, [⟨0, 16, 64⟩],
      [F.LK_TUNNEL_5_PEER_IP_HI]⟩
  , ⟨.LK_TUNNEL_6, 0, 0x2430, [⟨0, 16, 64⟩],
      [F.LK_TUNNEL_6_PEER_IP_LO]⟩
  ]

/-- Part 0 of the die registers of R441. -/
def regDie0 : List RegSpec :=
  [ ⟨.PW_PACE_A, 1, 0x200, [],
      [F.PW_PACE_A_PACE0, F.PW_PACE_A_PACE1, F.PW_PACE_A_PACE2, F.PW_PACE_A_PACE3]⟩
  , ⟨.PW_PACE_B, 1, 0x208, [],
      [F.PW_PACE_B_PACE4, F.PW_PACE_B_PACE5, F.PW_PACE_B_PACE6, F.PW_PACE_B_PACE7]⟩
  , ⟨.PW_DIE_STATE, 1, 0x210, [],
      [F.PW_DIE_STATE_VCORE_MV, F.PW_DIE_STATE_TJ, F.PW_DIE_STATE_AT_FLOOR, F.PW_DIE_STATE_SCHED_LIVE]⟩
  , ⟨.TK_REPLICA, 1, 0x1000, [],
      [F.TK_REPLICA_ROLE, F.TK_REPLICA_AB_DIFF, F.TK_REPLICA_LEAD_DIFF]⟩
  , ⟨.TK_PORT_CAL, 1, 0x1008, [⟨0, 2, 8⟩],
      [F.TK_PORT_CAL_ASYM, F.TK_PORT_CAL_HOP_BOUND_PS, F.TK_PORT_CAL_CALIBRATED, F.TK_PORT_CAL_EXCH_EN, F.TK_PORT_CAL_INTERVAL_US]⟩
  , ⟨.TK_PORT_MEAS, 1, 0x1018, [⟨0, 2, 8⟩],
      [F.TK_PORT_MEAS_DELAY, F.TK_PORT_MEAS_OFFSET]⟩
  , ⟨.PH_PORT_CFG, 1, 0x2000, [],
      [F.PH_PORT_CFG_ENABLE, F.PH_PORT_CFG_SPLIT, F.PH_PORT_CFG_MODE, F.PH_PORT_CFG_CIRCUIT0, F.PH_PORT_CFG_CIRCUIT1, F.PH_PORT_CFG_ETH_FORM0, F.PH_PORT_CFG_ETH_FORM1]⟩
  , ⟨.PH_CTRL, 1, 0x2008, [],
      [F.PH_CTRL_RETRAIN0, F.PH_CTRL_RETRAIN1]⟩
  , ⟨.LK_FEC, 1, 0x2100, [⟨0, 2, 8⟩],
      [F.LK_FEC_CORRECTED, F.LK_FEC_UNCORRECTABLE]⟩
  , ⟨.LK_DROP, 1, 0x2110, [⟨0, 2, 8⟩],
      [F.LK_DROP_FEC, F.LK_DROP_FRAMING, F.LK_DROP_HOP_LIMIT]⟩
  , ⟨.PH_LINK, 1, 0x2010, [⟨0, 2, 8⟩],
      [F.PH_LINK_STATE, F.PH_LINK_TRAIN_FAILS, F.PH_LINK_PARTNER_DEVICE, F.PH_LINK_PARTNER_HALF, F.PH_LINK_PARTNER_ROLE, F.PH_LINK_TX_KP, F.PH_LINK_SKEW_UNITS, F.PH_LINK_RELINK_ENTRY]⟩
  , ⟨.LC_STATUS, 1, 0x2200, [⟨0, 2, 8⟩],
      [F.LC_STATUS_TX_PACKETS, F.LC_STATUS_TX_KEY_AGE_S, F.LC_STATUS_KEY_VALID, F.LC_STATUS_REKEY_PENDING, F.LC_STATUS_TAG_FAILS]⟩
  , ⟨.PH_RELINK, 1, 0x2300, [⟨0, 2, 64⟩, ⟨0, 8, 8⟩],
      [F.PH_RELINK_PARTNER_DEVICE, F.PH_RELINK_PARTNER_HALF, F.PH_RELINK_VALID, F.PH_RELINK_EQ_CACHED, F.PH_RELINK_KEY_READY]⟩
  , ⟨.NI_FIELD_MAP, 1, 0x3400, [⟨0, 2, 512⟩, ⟨0, 64, 8⟩],
      [F.NI_FIELD_MAP_MAP]⟩
  , ⟨.SG_MARK, 1, 0x3000, [],
      [F.SG_MARK_MARK_CELLS, F.SG_MARK_MARK_PRESSURE]⟩
  , ⟨.NI_DROP_A, 1, 0x3008, [],
      [F.NI_DROP_A_AGED, F.NI_DROP_A_NO_TIME, F.NI_DROP_A_TABLE]⟩
  , ⟨.NI_DROP_B, 1, 0x3010, [],
      [F.NI_DROP_B_MALFORMED, F.NI_DROP_B_UNREACHABLE, F.NI_DROP_B_FENCED, F.NI_DROP_B_HEDGE, F.NI_DROP_B_CHECK_FAIL]⟩
  , ⟨.XM_SHARE, 1, 0x4048, [],
      [F.XM_SHARE_SHARE_0, F.XM_SHARE_SHARE_1, F.XM_SHARE_SHARE_2, F.XM_SHARE_SHARE_3, F.XM_SHARE_SHARE_4, F.XM_SHARE_SHARE_5, F.XM_SHARE_SHARE_6, F.XM_SHARE_SHARE_7, F.XM_SHARE_SHARE_8, F.XM_SHARE_SHARE_9, F.XM_SHARE_SHARE_10, F.XM_SHARE_SHARE_11, F.XM_SHARE_SHARE_12, F.XM_SHARE_SHARE_13, F.XM_SHARE_SHARE_14, F.XM_SHARE_SHARE_15]⟩
  , ⟨.XM_STATUS, 1, 0x4050, [],
      [F.XM_STATUS_ROUNDS_LAST, F.XM_STATUS_FRAMES_SHORT, F.XM_STATUS_CARRIED]⟩
  , ⟨.GK_FMAP, 1, 0x5800, [⟨0, 512, 8⟩],
      [F.GK_FMAP_OWNER_0, F.GK_FMAP_OWNER_1, F.GK_FMAP_OWNER_2, F.GK_FMAP_OWNER_3, F.GK_FMAP_OWNER_4, F.GK_FMAP_OWNER_5, F.GK_FMAP_OWNER_6, F.GK_FMAP_OWNER_7]⟩
  ]

/-- Part 1 of the die registers of R441. -/
def regDie1 : List RegSpec :=
  [ ⟨.GK_OWNER, 1, 0x4800, [⟨0, 256, 8⟩],
      [F.GK_OWNER_MIN_CELLS, F.GK_OWNER_SHARE_CAP, F.GK_OWNER_SLOT, F.GK_OWNER_KIND, F.GK_OWNER_TALLY_AGE_US, F.GK_OWNER_FENCED]⟩
  , ⟨.GK_STATUS, 1, 0x4000, [],
      [F.GK_STATUS_HELD, F.GK_STATUS_PRESSURE, F.GK_STATUS_SHARED_FREE, F.GK_STATUS_RESERVE_FREE]⟩
  , ⟨.GK_REGIONS, 1, 0x4008, [],
      [F.GK_REGIONS_SCHED_CELLS, F.GK_REGIONS_MANAGED_CELLS, F.GK_REGIONS_PENDING_SCHED, F.GK_REGIONS_CEDE_PENDING]⟩
  , ⟨.GK_OUT_CFG, 1, 0x4010, [⟨0, 5, 8⟩],
      [F.GK_OUT_CFG_OUT_CAP, F.GK_OUT_CFG_CTRL_SHARE, F.GK_OUT_CFG_DEPTH_DATA, F.GK_OUT_CFG_DEPTH_CTRL]⟩
  , ⟨.GK_TALLY, 1, 0x5000, [⟨0, 256, 8⟩],
      [F.GK_TALLY_HELD, F.GK_TALLY_HIGH_WATER, F.GK_TALLY_OLDEST_AGE_US, F.GK_TALLY_FAULTS]⟩
  , ⟨.GK_FAULT, 1, 0x4040, [],
      [F.GK_FAULT_CELL, F.GK_FAULT_CELL_OWNER, F.GK_FAULT_REQ_OWNER, F.GK_FAULT_REQ_UNIT, F.GK_FAULT_KIND, F.GK_FAULT_COUNT]⟩
  , ⟨.GK_DROP, 1, 0x4038, [],
      [F.GK_DROP_BUSY, F.GK_DROP_CONTROL, F.GK_DROP_LINK_DOWN, F.GK_DROP_FENCED, F.GK_DROP_STAGE_OVERRUN]⟩
  , ⟨.RB_ALARM, 1, 0x7000, [],
      [F.RB_ALARM_FLOOR_ALARM, F.RB_ALARM_PACE_LOW, F.RB_ALARM_PACE_ALARM, F.RB_ALARM_TIME_STOP, F.RB_ALARM_SUSPEND_PENDING, F.RB_ALARM_LEAD_US]⟩
  , ⟨.RB_SUSPEND_AT, 1, 0x7008, [],
      [F.RB_SUSPEND_AT_COUNT]⟩
  , ⟨.RB_LATE, 1, 0x7010, [],
      [F.RB_LATE_LATE_SENT, F.RB_LATE_LATE_DISCARD, F.RB_LATE_SHORTFALL, F.RB_LATE_LATE_NAK]⟩
  , ⟨.SH_STATUS, 1, 0x8000, [],
      [F.SH_STATUS_NODES_DEFINED, F.SH_STATUS_NARROW_BUSY, F.SH_STATUS_WIDE_BUSY, F.SH_STATUS_RESIDUE_FAILS]⟩
  , ⟨.SH_STAT, 1, 0x8008, [],
      [F.SH_STAT_STALE, F.SH_STAT_DUPLICATE, F.SH_STAT_POISONED_CHUNKS, F.SH_STAT_RESULTS_LOST]⟩
  , ⟨.SH_STAT_B, 1, 0x8010, [],
      [F.SH_STAT_B_HORIZON_BUSY, F.SH_STAT_B_DEADLINES, F.SH_STAT_B_COUNT_OVERFLOWS]⟩
  , ⟨.SH_GRANT, 1, 0x8100, [⟨0, 16, 16⟩],
      [F.SH_GRANT_ID_BASE, F.SH_GRANT_ID_COUNT, F.SH_GRANT_NODES, F.SH_GRANT_NARROW_CHUNKS, F.SH_GRANT_WIDE_CHUNKS]⟩
  , ⟨.SH_USED, 1, 0x8108, [⟨0, 16, 16⟩],
      [F.SH_USED_NODES_USED, F.SH_USED_NARROW_USED, F.SH_USED_WIDE_USED]⟩
  , ⟨.WN_STATUS, 1, 0x9000, [],
      [F.WN_STATUS_JOBS_DEFINED, F.WN_STATUS_ROUNDS_OPEN, F.WN_STATUS_RESIDUE_FAILS]⟩
  , ⟨.WN_STAT, 1, 0x9008, [],
      [F.WN_STAT_STALE, F.WN_STAT_DUPLICATE, F.WN_STAT_POISONED_ROUNDS, F.WN_STAT_OUTPUTS_LOST]⟩
  , ⟨.WN_GRANT, 1, 0x9100, [⟨0, 16, 8⟩],
      [F.WN_GRANT_JOBS, F.WN_GRANT_JOBS_USED]⟩
  , ⟨.GL_STATUS, 1, 0xA000, [],
      [F.GL_STATUS_CONTEXTS_HOMED, F.GL_STATUS_CONTEXTS_LOST, F.GL_STATUS_RESIDUE_FAILS]⟩
  , ⟨.GL_STAT, 1, 0xA008, [],
      [F.GL_STAT_QUERIES, F.GL_STAT_DEADLINES, F.GL_STAT_POISONED]⟩
  ]

/-- Part 2 of the die registers of R441. -/
def regDie2 : List RegSpec :=
  [ ⟨.SL_BIST, 1, 0xD000, [],
      [F.SL_BIST_FAILED]⟩
  , ⟨.SM_HANG, 1, 0xF028, [],
      [F.SM_HANG_TILE_STALLS, F.SM_HANG_SHARED_STALLS, F.SM_HANG_BOUND_NS]⟩
  , ⟨.SM_DIE_STATE, 1, 0xF000, [],
      [F.SM_DIE_STATE_FENCED, F.SM_DIE_STATE_POWERED, F.SM_DIE_STATE_PORT_SILENT, F.SM_DIE_STATE_RESET_BUSY, F.SM_DIE_STATE_CAUSE, F.SM_DIE_STATE_FIRST_SEQ]⟩
  , ⟨.SM_ROWS, 1, 0xF008, [],
      [F.SM_ROWS_SUSPECT, F.SM_ROWS_CLEAN]⟩
  , ⟨.SM_FALLOW, 1, 0xF010, [],
      [F.SM_FALLOW_PHYS0, F.SM_FALLOW_LROW0, F.SM_FALLOW_IN_USE0, F.SM_FALLOW_USABLE0, F.SM_FALLOW_PHYS1, F.SM_FALLOW_LROW1, F.SM_FALLOW_IN_USE1, F.SM_FALLOW_USABLE1, F.SM_FALLOW_RETIRED]⟩
  , ⟨.SM_FALLOW_REQ, 1, 0xF018, [],
      [F.SM_FALLOW_REQ_LROW, F.SM_FALLOW_REQ_ENTRY, F.SM_FALLOW_REQ_PENDING]⟩
  , ⟨.SM_FALLOW_AT, 1, 0xF020, [],
      [F.SM_FALLOW_AT_COUNT]⟩
  ]

/-- Part 0 of the tile registers of R441. -/
def regTile0 : List RegSpec :=
  [ ⟨.TL_OWNER, 2, 0x10, [],
      [F.TL_OWNER_FIELD_SLOT, F.TL_OWNER_ASSIGNED, F.TL_OWNER_ROLE_EPOCH]⟩
  , ⟨.NI_WINDOW, 2, 0x3000, [⟨0, 256, 8⟩],
      [F.NI_WINDOW_BASE_BLK, F.NI_WINDOW_LENGTH_BLK, F.NI_WINDOW_RD, F.NI_WINDOW_WR]⟩
  , ⟨.NI_TAG_STAT, 2, 0x3800, [],
      [F.NI_TAG_STAT_OPEN, F.NI_TAG_STAT_QUARANTINED, F.NI_TAG_STAT_STALE, F.NI_TAG_STAT_DUPLICATE, F.NI_TAG_STAT_RESENDS, F.NI_TAG_STAT_GIVEUPS]⟩
  , ⟨.TL_RESIDUE, 2, 0x18, [],
      [F.TL_RESIDUE_COUNT, F.TL_RESIDUE_LAST_UNIT]⟩
  , ⟨.TL_CTRL, 2, 0x0, [],
      [F.TL_CTRL_RESET, F.TL_CTRL_RESET_BUSY]⟩
  , ⟨.TL_WB_STATE, 2, 0x20, [],
      [F.TL_WB_STATE_ACTIVE, F.TL_WB_STATE_READY_DEPTH, F.TL_WB_STATE_GATED, F.TL_WB_STATE_RUNNING]⟩
  , ⟨.TL_WB_STAT, 2, 0x28, [],
      [F.TL_WB_STAT_COMPLETED, F.TL_WB_STAT_LATE, F.TL_WB_STAT_FAULTED, F.TL_WB_STAT_STALE_REFS, F.TL_WB_STAT_NOTIFY_FAULTS]⟩
  , ⟨.TL_STALL, 2, 0x30, [],
      [F.TL_STALL_READY_FULL, F.TL_STALL_ISSUE_FULL, F.TL_STALL_STORE_FULL, F.TL_STALL_PARTIAL_WAIT]⟩
  , ⟨.TM_STAT, 2, 0x4000, [],
      [F.TM_STAT_INSTANCES, F.TM_STAT_FORM_FAULTS, F.TM_STAT_TAG_WAITS]⟩
  ]

/-- The register map (R441). -/
def regTable : List RegSpec :=
  regDevice0 ++ regDevice1 ++ regDevice2 ++ regDevice3 ++ regDie0 ++ regDie1 ++ regDie2 ++ regTile0

end Sys2Proof.Machine
end

