-- ==== Sys2Proof/Machine/State.lean ====
section
/-! DEFINITION. The state of the device: every register field, every memory, queue, table, counter, mode and pin the
spec gives it, as plain data; the faults and refusals a step can end in; and the state right after VAUX is first
applied. Fields marked MODEL are the model's own. -/

namespace Sys2Proof.Machine

/-- Why a step stops with a fault. -/
inductive Fault where
  /-- Raised by no command: the spec gives every command an effect, and an access to memory that does not exist is
  refused by the rules of R4, R30 and R94 inside the command. Safe. -/
  | noSuchMemory
  deriving DecidableEq, Repr

/-- Why a command is refused. -/
inductive Refusal where
  /-- A command that has no meaning yet; no arm answers with it. Safe. -/
  | notModelled (mnemonic : String)
  /-- Raised by `run` for every command: an operand lies outside what the wire, bus or sensor that carries it can carry
  (`Instr.wellFormed`). No such event can reach the device. Safe. -/
  | illFormed (mnemonic : String)
  deriving DecidableEq, Repr

/-- One event record before it is written (R420): the class and code of R421 and R442, SOURCE, FLAGS, the time and
sequence number it is given when it is accepted, FIELD, SLOT and the DETAIL bytes in use. -/
structure Event where
  cls : Nat
  code : Nat
  source : Nat
  flags : Nat
  seq : Nat
  time : Nat
  field : Nat
  slot : Nat
  detail : List Byte
  deriving DecidableEq, Repr

/-- A launch or Waybill gate waiting for its Milestone count (R38, R68). -/
structure Gate where
  id : GateId
  at_ : Nat
  deriving DecidableEq, Repr

/-- The states of *Time states* (R49). -/
inductive TimeMode where
  | unset | acquiring | locked | holdover | invalid
  deriving DecidableEq, Repr

/-- The link time exchange of one half-port (R54, R58): the next SEQ, t1 of the latest SYNC and whether its REPLY is
awaited, t1 of every SYNC that has had no REPLY, oldest first (R51), the values of d taken before d_ref exists, and d_ref. -/
structure Exchange where
  seq : Nat := 0
  t1 : Nat := 0
  waiting : Bool := false
  unanswered : List Nat := []
  dSamples : List Int := []
  dRef : Option Int := none
  deriving DecidableEq, Repr

/-- What the Time Keeper keeps of one TK_SRCn candidate (R51, R52): consecutive accepted samples within the hop bound,
consecutive rejected or missing ones, whether it is qualified, whether it delivers accepted samples, the count of its
latest sample, the count from which a SYNC with no REPLY has not yet been counted as a missing sample of it, and θ, the source's
bound and the HOPS of its latest accepted sample (R50). -/
structure SourceRec where
  good : Nat := 0
  bad : Nat := 0
  qualified : Bool := false
  delivering : Bool := false
  lastAt : Nat := 0
  missFrom : Nat := 0
  theta : Int := 0
  bound : Nat := 0
  hops : Nat := 0
  deriving DecidableEq, Repr

/-- A valid time-of-day message and the count at which it ended (R66). -/
structure TodRec where
  seconds : Nat
  arrivedAt : Nat
  deriving DecidableEq, Repr

/-- PTP state of one Ethernet-mode half-port (R64, R65): sequence numbers sent, the instants of the latest Sync,
Announce and Pdelay_Req sent, the Sync waiting for its Follow_Up (sequence, ingress stamp), the latest Pdelay exchange
(sequence, t1, t2, ingress of its response), the received stepsRemoved, and d_ref with its samples. -/
structure PtpPort where
  syncSeq : Nat := 0
  syncAt : Nat := 0
  announceSeq : Nat := 0
  announceAt : Nat := 0
  pdelaySeq : Nat := 0
  pdelayAt : Nat := 0
  rxSync : Option (Nat × Nat) := none
  pdelayT2 : Option Nat := none
  pdelayT4 : Option Nat := none
  steps : Nat := 0
  clockClass : Nat := 0
  dSamples : List Int := []
  dRef : Option Int := none
  deriving DecidableEq, Repr

/-- The phases of a participant's barrier (R69). -/
inductive BarrierPhase where
  | opened | arrived | released | fired | aborted | late
  deriving DecidableEq, Repr

/-- The barrier open at this device (R71): its open record, its phase, M, whether a RELEASE, ABORT or timeout has closed
the gather at the root, the distinct arrivals at the root as (INDEX, SRC_DEVICE), and the late participants; `relAt` is the count
at which RELEASE arrived. -/
structure BarrierRec where
  kind : Nat
  id : Nat
  field : Nat
  root : Nat
  n : Nat
  index : Nat
  launchSlot : Nat
  leadNs : Nat
  timeoutUs : Nat
  openedAt : Nat
  phase : BarrierPhase
  m : Nat
  relAt : Nat
  gathered : Bool
  arrivals : List (Nat × Nat)
  lateOnes : List Nat
  deriving DecidableEq, Repr

/-- A counter of a replica other than counter A of the lead (R46): how far it stands ahead of that one, in sixteenths of a
nanosecond, and the remainder in its own rate accumulator. -/
structure PeerCounter where
  off : Int := 0
  acc : Nat := 0
  deriving DecidableEq, Repr

/-- The Time Keeper. `count` is counter A of the lead replica and `acc` the remainder in its rate accumulator, in parts of 10^12
(R60). `peers` holds the other fifteen counters, by [die, 0] for counter A and [die, 1] for counter B of a die's replica (R46).
`trimSeason` is the Season whose trims are in force (R339). -/
structure TimeState where
  count : Nat := 0
  peers : Tab PeerCounter := []
  freqPpt : Int := 0
  ratePpt : Int := 0
  acc : Nat := 0
  mode : TimeMode := .unset
  replicaFailures : Nat := 0
  exch : Tab Exchange := []
  srcs : Tab SourceRec := []
  stepTheta : Option Int := none
  holdB0 : Nat := 0
  holdAt : Option Nat := none
  ppsInAt : Option Nat := none
  tod : Option TodRec := none
  ppsOutRiseAt : Option Nat := none
  ppsOutWidth : Nat := 0
  ppsOutHigh : Bool := false
  trimSeason : Nat := 0
  ptp : Tab PtpPort := []
  barrier : Option BarrierRec := none
  deriving DecidableEq, Repr

/-- Key of a half-port: 0 to 15, port × 2 + half (R72). -/
abbrev HalfNo := Nat

/-- A training frame's INFO (R82, *INFO field*). -/
structure LinkInfo where
  proto : Nat := 1
  role : Nat := 0
  width : Nat := 0
  lane : Nat := 0
  circuit : Bool := false
  time : Bool := false
  precode : Bool := false
  relink : Bool := false
  device : Nat := 0
  half : Nat := 0
  deriving DecidableEq, Repr

/-- One physical lane of a link (R80, R82, R83): the five taps in hundredths, c(−3) first; the requests in force, and those not yet
answered, with the preset of each; the five STATUS codes; RX_TRAINED sent; the run of frames with RX_TRAINED both sent and received;
COUNTING, COUNT and whether the frame of COUNT = 0 has gone; the state of the fill sent; the partner's INFO; whether the lane came
inverted; whether this end asks for precoding, and the level received last; and the consecutive failed blocks in UP. -/
structure Lane where
  taps : List Int := [0, 4, -20, 70, -6]
  req : List Nat := [0, 0, 0, 0, 0]
  preset : Nat := 0
  pend : List Nat := [0, 0, 0, 0, 0]
  pendPreset : Nat := 0
  status : List Nat := [0, 0, 0, 0, 0]
  rxTrained : Bool := false
  run : Nat := 0
  counting : Bool := false
  count : Nat := 127
  counted : Bool := false
  fill : Option Nat := none
  info : Option LinkInfo := none
  inverted : Bool := false
  wantPre : Bool := false
  prevRx : Nat := 0
  failRun : Nat := 0
  deriving DecidableEq, Repr

/-- A packet being received on a link (R79, R80, R97): the unit position of its start unit, whether it is a control packet, the units
still to come, whether it has been dropped because of a failed block or its length, the position of the SEAL unit that covers a control packet,
its number once its header has been read, and the hop tag it must have, empty where its KP names no key held. -/
structure RxPacket where
  pos : Nat
  control : Bool
  left : Nat
  bad : Bool := false
  sealAt : Option Nat := none
  pid : Option Nat := none
  want : List Byte := []
  deriving DecidableEq, Repr

/-- One direction's keys of a link (R97, R98): KP of the key in use, whether a new key is also held, packets sealed under
the current key, and the instant it was installed. -/
structure LinkKeys where
  txValid : Bool := false
  txKp : Nat := 0
  txCount : Nat := 0
  txAt : Nat := 0
  rxValid : Bool := false
  rxKp : Nat := 0
  rxNew : Bool := false
  deriving DecidableEq, Repr

/-- The parts of a half-port that no register shows (R78 to R90, R104, R105): when its state was entered, when training restarts, whether
it stays DOWN until RETRAIN, its lanes, the ALIGN exchange and the counter of the rows it sends, whether each direction has ended ALIGN;
the count at which unit position 0 left and the position after the last unit sent; the position to be received next, the blocks of the row
being received and each lane's scrambler; the packets being received, oldest first, whether the last of them may go on, the positions of the SEAL units
whose tags are still to be checked, whether a lost position has been passed since the last
unit whose place is known and which was the last lost, whether a packet with a lost start unit has been counted; the failed-block
and tag-failure instants, the notice being sent, the keys, the relink attempt, the equalisation cached by [entry, lane], the permits
(R406), what is being sent, and the handshakes tried since it last left UP (R346). -/
structure HalfPort where
  since : Nat := 0
  restartAt : Option Nat := none
  stayDown : Bool := false
  lanes : Tab Lane := []
  deskewed : Bool := false
  readyRun : Nat := 0
  rowTx : Nat := 0
  lastSent : Bool := false
  lastRcvd : Bool := false
  txAt : Nat := 0
  txNext : Nat := 0
  rxPos : Nat := 0
  rowBlocks : Tab (Option (List Slot)) := []
  scram : Tab Nat := []
  rxq : List RxPacket := []
  rxOpen : Bool := false
  seals : List Nat := []
  skipping : Bool := false
  lostAt : Option Nat := none
  orphan : Bool := false
  failTimes : List Nat := []
  lossDue : Bool := false
  tagFails : List Nat := []
  downReason : Option Nat := none
  keys : LinkKeys := {}
  relinkTry : Option Nat := none
  eqCache : Tab (List Int) := []
  permitAt : Nat := 0
  heartbeatAt : Nat := 0
  withheld : Bool := false
  sending : Option Nat := none
  attempts : Nat := 0
  deriving DecidableEq, Repr

/-- Where a packet entered the switch core (R151): a half-port, a tile NI, a Sheaf, Winnower or Gleaner slice, or the
management logic and Time Keeper of the device. -/
inductive Input where
  | half (h : Nat)
  | tile (die tile : Nat)
  | sheaf (die : Nat)
  | engine (die : Nat)
  | mgmt
  deriving DecidableEq, Repr

/-- The state of a transaction tag (R132). -/
inductive TagSt where
  | free | opened | quarantine
  deriving DecidableEq, Repr

/-- For whom a tag is open: a running Waybill of the tile, a notice of R244, or an engine slice's packet (R280, R308): kind
0 one whose end nothing follows, 1 a Sheaf result, 2 a Winnower output, with the die of the slice, the object and the target rank. -/
inductive Issuer where
  | run (slot : Nat)
  | notice
  | engine (kind die obj rank : Nat)
  | none_
  deriving DecidableEq, Repr

/-- A tag of a tile's own rank (R132 to R134): its state, epoch, the instant that state was entered, the request it holds
for resending, resends made, BUSY NAKs taken, when its timer was started, when a BUSY backoff ends, for whom
it is open, and whether the request is resendable. -/
structure TagRec where
  st : TagSt := .quarantine
  epoch : Nat := 0
  since : Nat := 0
  req : Option Packet := none
  resends : Nat := 0
  busies : Nat := 0
  timerAt : Nat := 0
  backoffAt : Option Nat := none
  issuer : Issuer := .none_
  resend : Bool := false
  input : Option Input := none
  deriving DecidableEq, Repr

/-- The rate limit of a flow (R103), in bytes per µs and hall nanoseconds, and its token bucket. -/
structure Flow where
  rate : Nat
  lastCut : Int
  created : Nat
  lastEcho : Nat
  steps : Nat
  tokens : Nat
  filledAt : Nat
  deriving DecidableEq, Repr

/-- The NIs and Signposts: rank blocks by [version, die, slot, block]; Signpost entries by [version, die, device]; the
second checker's copy of the Field maps by [half-port, word]; the two copies of row ownership by [die, row], as
slot + 1 or 0; each die's rotation pointer; tags by [die, tile, index]; the reset instant of each tile's tags by
[die, tile] and of each die by [die]; the limits L has had, oldest first, as (from, limit in µs); flows by
[die, tile, field, rank]; marked packets that await an echo, by [die, unit, field, rank] (unit: the tile, or 2048 for an engine slice), with the header to answer and the
instant, and the instant of the pair's latest echo; closed gates with the end of their drain; those whose drain has ended; the count M of the latest version switch; CHECK failures by [half-port]. -/
structure NiState where
  ranks : Tab Nat := []
  posts : Tab Nat := []
  map2 : Tab Nat := []
  own1 : Tab Nat := []
  own2 : Tab Nat := []
  rot : Tab Nat := []
  tags : Tab (Option TagRec) := []
  tagReset : Tab Nat := []
  ageHist : List (Nat × Nat) := [(0, 100)]
  flows : Tab (Option Flow) := []
  echoOwed : Tab (Option (Hdr × Nat)) := []
  echoSent : Tab Nat := []
  closed : List (Domain × Nat) := []
  drained : List Domain := []
  switchedAt : Nat := 0
  checkFails : Tab (List Nat) := []
  deriving DecidableEq, Repr

/-- The side record of a cell (R155); STATE 0 free, 1 filling, 2 eligible, 3 discarding. A cell never allocated since the
die reset reads owner 4 (R165). -/
structure CellRec where
  next : Nat := 0
  last : Bool := false
  pnext : Nat := 0
  head : Bool := false
  owner : Nat := 4
  st : Nat := 0
  allocUs : Nat := 0
  deriving DecidableEq, Repr

/-- A packet in the switch core. A link-local packet, which needs no cells, waits for its tag and, once that has passed, for the unit that
takes it (R94). Any other is filling until it is linked, queued, taken by its output, held by an engine slice, done with, or refused and waiting for its
hop tag before a NAK may be sent (R127). One whose failure is decided before its last unit has come keeps its cells until then, when the
unit named frees them (R143). -/
inductive Stage where
  | neighbour | passed | filling | ready | queued | taken | held | done | refused (code : Nat) | discarding (unit : Nat)
  deriving DecidableEq, Repr

/-- A packet or bridged frame held by a slice (R140 to R144): its bytes, its slice, output (5: the management logic) and
class queue (0 scheduled, 1 control, 2 data), the owner charged, its cells, the cells arrived in the stage and written,
where it came from, whether its hop tag has passed, whether a tile or engine of this device produced it, whether it
carries a fence's hand-off, the Road Book record of a scheduled packet and its step, the Ethernet frame it holds, and the half-port
and 802.1Q tag it leaves with; and when it entered. -/
structure Pkt where
  p : Packet
  die : Nat
  out : Nat
  q : Nat
  owner : Nat
  cells : List Nat := []
  arrived : Nat := 0
  written : Nat := 0
  input : Input
  tagOk : Bool := false
  produced : Bool := false
  handoff : Bool := false
  rbSlot : Option Nat := none
  rbStep : Nat := 0
  frame : List Byte := []
  ports : List Nat := []
  dstTile : Nat := 0
  stage : Stage := .filling
  issuedAt : Nat := 0
  deriving DecidableEq, Repr

/-- A packet of this device whose cells have been refused and whose requester repeats the request (R159): since when, and
whether it is a request of a tile NI, a response of an NI, or an engine slice's packet; the tag that it holds, 4,096 for none. -/
inductive WaitKind where
  | request (die tile tag : Nat)
  | response
  | engine (die tile tag : Nat)
  deriving DecidableEq, Repr

structure Wait where
  id : Nat
  pk : Pkt
  since : Nat
  kind : WaitKind
  deriving DecidableEq, Repr

/-- The Granary, its Keeper and the Crossing Matcher: side records by [die, cell]; packets by number; queues by
[die, output, class]; packets of an input not yet linked, oldest first, by input key; control token buckets by
[die, output] (4,096 parts of a unit, and the instant they were last filled); requests waiting for cells; Tally fault
instants by [die, owner]; 1 by [die, owner] while a leak that has been raised goes on (R164); and the matcher's frame and rotating pointers. -/
structure GranState where
  nextPid : Nat := 0
  cells : Tab CellRec := []
  pkts : Tab (Option Pkt) := []
  queues : Tab (List Nat) := []
  inOrder : Tab (List Nat) := []
  tokens : Tab (Option (Nat × Nat)) := []
  waits : List Wait := []
  tallyFaults : Tab (List Nat) := []
  leaking : Tab Nat := []
  frameNo : Nat := 0
  lastSrc : Tab Nat := []
  lastDst : Tab Nat := []
  shareAt : Tab Nat := []
  rrAt : Tab Nat := []
  deriving DecidableEq, Repr

/-- What a slot of the active bank has done in a step (R177 to R182): the step, the packets accepted, those that became
eligible, those discarded late, whether it has been checked for a shortfall, and whether its departure window has ended. -/
structure SlotRun where
  step : Nat := 0
  accepted : Nat := 0
  eligible : Nat := 0
  shortDone : Bool := false
  late : Nat := 0
  windowDone : Bool := false
  deriving DecidableEq, Repr

/-- The Road Book sequencer (R170 to R193): the bytes of banks A and B (R171); each slot's record of the step, by
[slot index]; consecutive pace readings below PACE_FLOOR and below P_plan, by [die] (R188); pending suspensions by
[die], as (cause of RB_SUSPEND.REASON, the earliest count at which it may take effect) in the order of their alarms (R191); the Fields whose records are
suspended and those whose records ceased with an eviction (R191, R193); and the mask of the armed resume (R192). -/
structure RoadState where
  bankA : List Byte := []
  bankB : List Byte := []
  runs : Tab SlotRun := []
  lowFloor : Tab Nat := []
  lowPlan : Tab Nat := []
  suspends : Tab (List (Nat × Nat)) := []
  suspended : List Nat := []
  evicted : List Nat := []
  resumeMask : Nat := 0
  deriving DecidableEq, Repr
/-- STATE of a Waybill slot (R232). -/
inductive SlotSt where
  | idle | armed | ready | running | held
  deriving DecidableEq, Repr

/-- A packed long word stream being run (R262 to R264): x0 to x31, v0 to v15 lane by lane, the recorded bundle starts, the
next bundle, the bundles run, and whether the stream has ended. -/
structure PackedRun where
  x : List Nat
  v : List (List Nat)
  starts : List Nat
  next_ : Nat
  count : Nat
  ended : Bool
  deriving DecidableEq, Repr

/-- A Waybill slot (R232): STATE, CREDITS, GEN, POISON, PENDING_ARM and the armed copy; the status it will complete with
without running, if any (R239, R242, R245); whether its start gate has released, whether it is late, when its credits
became complete, and credits that came after the gate of an ABSENT Waybill (R242, R243); the next instance and whether
the present one has run; whether every instance has; the requests whose tags are open; the status so far and its detail
(R246); the status with which it has finished; whether its release gate has released; the CALL in progress; the packed
stream; the elements of an engine stream not yet in a packet, from their stream index, and the index after the last element
streamed (R252); and whether the gate of an ABSENT Waybill has found its credits missing. -/
structure SlotRec where
  st : SlotSt := .idle
  credits : Nat := 0
  gen : Nat := 0
  poison : Bool := false
  pendingArm : Bool := false
  armed : List Byte := []
  fail : Option Nat := none
  gatePassed : Bool := false
  late : Bool := false
  fullAt : Option Nat := none
  nextCredits : Nat := 0
  k : Nat := 0
  ran : Bool := false
  allDone : Bool := false
  opened : Nat := 0
  status : Option Nat := none
  detail : Nat := 0
  finished : Option (Nat × Nat) := none
  relPassed : Bool := false
  calling : Bool := false
  packed : Option PackedRun := none
  stream : Option (Nat × List Byte) := none
  streamEnd : Nat := 0
  absent : Bool := false
  deriving DecidableEq, Repr

/-- A packet waiting at a tile NI (R103, R257): for a FREE tag, or for its flow's tokens. `tag` is the tag it holds; a
response has none and needs none. `elems` is how many elements of its Waybill's stream it carries (R252). `handoff` marks what passes a fence (R404). `input` is the unit that sends it: the tile, or an engine slice that uses its anchor
tile's tags (R280). -/
structure SendItem where
  p : Packet
  issuer : Issuer
  tag : Option Nat := none
  resp : Bool := false
  resend : Bool := false
  handoff : Bool := false
  input : Input
  elems : Nat := 0
  deriving DecidableEq, Repr

/-- A store that has been made and may not yet have drained (R230): the lane core whose buffer it is in, or 64 for the Steward's, its
address and its bytes. -/
structure BufStore where
  core : Nat
  addr : Nat
  len : Nat
  deriving DecidableEq, Repr

/-- A tile reset in progress (R261): the callers of TILE_RESET that wait for it, as (die,
tile). -/
structure ResetRec where
  callers : List (Nat × Nat) := []
  deriving DecidableEq, Repr

/-- The tiles (R227 to R265): slots by [die, tile, slot]; the ready queue (64 entries) and the pushes that wait on it, by
[die, tile]; issue queues (4 entries) by [die, tile, unit], with unit 0 the MAC array, 1 the lane cores, 2 the Steward,
3 the tile mover; the running Waybill's slot + 1, by the same key; whether dispatch is blocked on a full issue queue, and
whether the mover waits for a tag, by [die, tile]; the IEEE flags of the Steward and of the lane cores together, by
[die, tile, 0 or 1] (R201); the stores in the store buffers, oldest first, by [die, tile], and the parts of TL_STALL that they
count, by [die, tile, 0 or 1] (R230); the Stewards' data memory, byte `offset` of tile t of die d at key (d * 2048 + t) * 2^16 + offset, and what
each Almanac store of a die holds, by [die] (R228, R414); packets waiting at tile NIs,
by [die, tile]; and tile resets in progress. -/
structure TileState where
  slots : Tab SlotRec := []
  ready : Tab (List Nat) := []
  overflow : Tab (List Nat) := []
  issue : Tab (List Nat) := []
  run : Tab Nat := []
  blocked : Tab Nat := []
  tagWait : Tab Nat := []
  flags : Tab Nat := []
  stores : Tab (List BufStore) := []
  stalls : Tab Nat := []
  almanac : Tab (List Byte) := []
  steward : List Host.Cell := []
  sendQ : Tab (List SendItem) := []
  resets : Tab (Option ResetRec) := []
  deriving DecidableEq, Repr

/-- An input entry of a Sheaf plan (R271). -/
structure SheafInput where
  rank : Nat
  child : Bool
  var : Bool
  first : Nat
  count : Nat
  deriving DecidableEq, Repr

/-- A target entry of a Sheaf plan (R271). -/
structure SheafTarget where
  rank : Nat
  child : Bool
  window : Nat
  epoch : Nat
  first : Nat
  count : Nat
  offset : Nat
  ref : Nat
  deriving DecidableEq, Repr

/-- A Sheaf plan (R271). -/
structure SheafPlan where
  id : Nat
  op : Nat
  inFmt : Nat
  outFmt : Nat
  mode : Nat
  n : Nat
  parent : Nat
  laneChunks : Nat
  deadlineUs : Nat
  inputs : List SheafInput
  targets : List SheafTarget
  deriving DecidableEq, Repr

/-- One accumulator lane (R213 to R216): the integer, the NAN, POS_INF and NEG_INF flags as bits, and the rank of MAXLOC
and MINLOC. -/
structure Lane320 where
  a : Int := 0
  fl : Nat := 0
  rank : Nat := 0xFFFFF
  deriving DecidableEq, Repr

/-- A chunk of the open round (R276, R281, R288): its lanes, its n, the inputs whose held packets
have been added, and whether it is complete: its lanes are then free and what stands here is the output formed of it. -/
structure ChunkRec where
  lanes : List Lane320 := []
  n : Nat := 0
  added : List Nat := []
  done : Bool := false
  deriving DecidableEq, Repr

/-- A contribution held by a node: the packet's number, the input, its first chunk, the chunks it covers, and those taken
so far. -/
structure HeldContrib where
  pid : Nat
  input : Nat
  first : Nat
  count : Nat
  taken : Nat := 0
  deriving DecidableEq, Repr

/-- What a node holds of one round (R279, R281, R283, R292): received bits by [input, chunk], 2 where a POISON notice set one; ranges declared by VARIABLE
inputs, by [input], as (first, count); the inputs whose FINAL has come; held contributions; chunks poisoned; pieces of small partial records, by [input, part];
the inputs of a small node whose adding fails a residue check; whether a packet of the round has been accepted, and whether the node's own span has been declared. -/
structure SheafRound where
  recv : Tab Nat := []
  covers : Tab (List (Nat × Nat)) := []
  finals : List Nat := []
  held : List HeldContrib := []
  poisoned : List Nat := []
  pieces : Tab (Option (Nat × List Byte)) := []
  faults : List Nat := []
  begun : Bool := false
  declared : Bool := false
  deriving DecidableEq, Repr

/-- A Sheaf node (R266 to R292): its Field, its anchor tile and rank, its plan, CUR_ROUND, the instant its round opened,
the open round and the next, the chunks of the open round, (target, block) pairs already sent, chunks completed in the round and chunks
poisoned since definition. -/
structure SheafNode where
  field : Nat
  tile : Nat
  rank : Nat
  plan : SheafPlan
  cur : Nat := 0
  openedAt : Option Nat := none
  now_ : SheafRound := {}
  next_ : SheafRound := {}
  chunks : Tab ChunkRec := []
  sent : List (Nat × Nat) := []
  completed : Nat := 0
  poisonedEver : Nat := 0
  deriving DecidableEq, Repr

/-- The Sheaf slices: nodes by [die, Field, SHEAF_ID]. -/
structure SheafState where
  nodes : Tab (Option SheafNode) := []
  deriving DecidableEq, Repr

/-- A Winnower input entry (R301). -/
structure WinnowInput where
  rank : Nat
  stream : Nat
  maxCount : Nat
  deriving DecidableEq, Repr

/-- A Winnower target entry (R301): KIND 1 VALUES, 2 TAGS, 3 COUNT. -/
structure WinnowTarget where
  rank : Nat
  kind : Nat
  window : Nat
  epoch : Nat
  first : Nat
  count : Nat
  offset : Nat
  ref : Nat
  deriving DecidableEq, Repr

/-- A Winnower plan (R301). -/
structure WinnowPlan where
  job : Nat
  op : Nat
  fmt0 : Nat
  fmt1 : Nat
  tableFmt : Nat
  desc : Bool
  pred : Nat
  const : Nat
  k : Nat
  deadlineUs : Nat
  workOff : Nat
  workBytes : Nat
  tableOff : Nat
  tableLen : Nat
  inputs : List WinnowInput
  targets : List WinnowTarget
  deriving DecidableEq, Repr

/-- A record of a round (R310): the stream, the element's bit pattern, its source rank and its element index. -/
structure WinnowRec where
  stream : Nat
  pat : Nat
  rank : Nat
  idx : Nat
  deriving DecidableEq, Repr

/-- What a job holds of one round (R304, R305): received blocks by [input, block], recorded ends by [input] as end + 1,
held packets, and whether a notice or fault has poisoned it. -/
structure WinnowRound where
  recv : Tab Nat := []
  ends : Tab Nat := []
  held : List Nat := []
  poisoned : Bool := false
  deriving DecidableEq, Repr

/-- A Winnower job (R298 to R310): its anchor, plan and rounds, the records taken, and what the table held when the round
opened. -/
structure WinnowJob where
  die : Nat
  tile : Nat
  rank : Nat
  plan : WinnowPlan
  cur : Nat := 0
  openedAt : Option Nat := none
  now_ : WinnowRound := {}
  next_ : WinnowRound := {}
  recs : List WinnowRec := []
  table : List Byte := []
  deriving DecidableEq, Repr

/-- One head's partial (R322, R323): empty, special, or m, l and o. -/
inductive GlPart where
  | empty
  | special
  | val (m l : Nat) (o : List Nat)
  deriving DecidableEq, Repr

/-- A query of a context (R319 to R327): the number of its packet, the packet, when it was accepted, whether its batch has
started, the Bales selected, the partials yielded by [tile number] as one per head, and a checker's failure. -/
structure GlQuery where
  id : Nat
  p : Packet
  acceptedAt : Nat
  started : Bool := false
  bales : List Nat := []
  parts : Tab (List GlPart) := []
  poisoned : Bool := false
  deriving DecidableEq, Repr

/-- A Gleaner context (R312 to R315): its Field, anchor and home die, KV_FORMAT, d, NBALES, BALE_BASE, SELECT_K, deadline,
template bytes and extents as (die, first row, rows); whether it is LOST; the queries it holds, in acceptance order; and
the queries completed since definition. -/
structure GlCtx where
  field : Nat
  die : Nat
  tile : Nat
  rank : Nat
  kvFmt : Nat
  d : Nat
  nBales : Nat
  base : Nat
  selectK : Nat
  deadlineUs : Nat
  template : List Byte
  extents : List (Nat × Nat × Nat)
  lost : Bool := false
  queries : List GlQuery := []
  completed : Nat := 0
  deriving DecidableEq, Repr

/-- The engine slices: Winnower jobs by [Field, JOB], Gleaner contexts by [GL_CONTEXT]. -/
structure EngineState where
  jobs : Tab (Option WinnowJob) := []
  ctxs : Tab (Option GlCtx) := []
  deriving DecidableEq, Repr


/-- Keys of one direction of a link (R347, R348): the Key ID of the other end, the chain secret, the key and SALT in
use, and the next ones. -/
structure LinkSecret where
  peer : List Byte
  chain : List Byte
  key : List Byte
  salt : List Byte
  nextKey : List Byte
  nextSalt : List Byte
  deriving DecidableEq, Repr

/-- A handshake in progress (R346, R347): its attempt number, whether its HELLO carries RELAY or MANAGER, the number of the
draw of its ephemeral secrets and of its encapsulation, the messages sent and received, the partner's public key block, the
transcript's hash, and what has been sent and received. -/
structure HsRec where
  attempt : Nat := 0
  flags : Nat := 0
  draw : Nat := 0
  kemDraw : Nat := 0
  myHello : List Byte := []
  peerHello : List Byte := []
  myKem : List Byte := []
  peerKem : List Byte := []
  partner : List Byte := []
  keys : Option (LinkSecret × LinkSecret) := none
  sent : List Nat := []
  got : List Nat := []
  startedAt : Nat := 0
  deriving DecidableEq, Repr

/-- An open transfer of a manager session (R434): its SEQ, direction, target, argument and length, the request's packet, the
pieces received, as (offset, bytes), and when the latest arrived. -/
structure Xfer where
  seq : Nat
  target : Nat
  arg : Nat
  len : Nat
  req : Packet
  got : List (Nat × List Byte) := []
  at_ : Nat
  deriving DecidableEq, Repr

/-- A manager session (R352, R433): the key of what the manager sends and of what the device sends, the highest SEQ accepted,
the response given to it, and the open transfer. -/
structure Session where
  rxKey : List Byte
  txKey : List Byte
  high : Nat := 0
  kept : Option Packet := none
  xfer : Option Xfer := none
  deriving DecidableEq, Repr

/-- What the Trust Core keeps of the running Seed Image (R342 to R344): IMAGE_HASH, SIGNER_PK, ROLLBACK, the vendor root, the
partner roots, the manager keys, the deny list, the Hedge plan, the identity certificates of this device (subject, issuer),
the Almanac's CODE_HASH and the verified device copy of its code (R414). -/
structure ImageTrust where
  hash : List Byte := []
  signer : List Byte := []
  rollback : Nat := 0
  vendorRoot : List Byte := []
  partnerRoots : List (List Byte) := []
  mgrKeys : List (List Byte) := []
  deny : List (List Byte) := []
  plan : List Byte := []
  certs : Option (List Byte × List Byte) := none
  almanac : List Byte := []
  code : List Byte := []
  deriving DecidableEq, Repr

/-- The two copies of the anti-rollback counter, 128 bits each, and of the debug lock (R337). -/
structure FuseCopies where
  counterA : Nat := 0
  counterB : Nat := 0
  lockA : Nat := 0
  lockB : Nat := 0
  deriving DecidableEq, Repr

/-- The Trust Core and the Fuse Store: the copies of the fuses that are read as the OR of two; the Key ID a Field's admission named at an endpoint, by [slot, half-port] (R356); the
owner key and the admission record of each slot (R353); link handshakes by [half-port], the relay with the message that waits in its mailbox, and session handshakes by
[manager key] (R346, R350, R352); sessions by [manager key]; link keys by [half-port, direction], 0 what this device sends
(R347); relink keys by [link, entry, direction]; Key IDs of verified issuers (R336); the running image's trust; the draw of the
debug challenge (R362); the report signed for the latest ATTEST transfer (R435); time trims by [Season] (R339); the fuse order
in progress; rows being zeroised, as (die, row) (R358); and the first accepted SEQ of a tunnel's replay window by [half-port]
(R110). -/
structure TrustState where
  copies : FuseCopies := {}
  partnerIds : Tab Nat := []
  ownerKeys : Tab (List Byte) := []
  admits : Tab (List Byte) := []
  hs : Tab (Option HsRec) := []
  relay : Option HsRec := none
  mailbox : Option (List Byte) := none
  mgrHs : Tab (Option HsRec) := []
  sess : Tab (Option Session) := []
  secrets : Tab (Option LinkSecret) := []
  relinkKeys : Tab (Option LinkSecret) := []
  issuers : List (List Byte) := []
  image : ImageTrust := {}
  challenge : Nat := 0
  report : List Byte := []
  trims : Tab (List Byte) := []
  order : Option (List Byte) := none
  zeroing : List (Nat × Nat) := []
  tunnelSeqs : Tab (List Nat) := []
  deriving DecidableEq, Repr

/-- An entry of the filtering database (R108): VLAN, MAC, half-port and the instant it was last seen. -/
structure MacEntry where
  vlan : Nat
  mac : Nat
  half : Nat
  seen : Nat
  deriving DecidableEq, Repr

/-- A VLAN of the Seed Image (R108, R376): its Field, its members and those that send it untagged, as bits. -/
structure VlanRec where
  vlan : Nat
  field : Nat
  member : Nat
  untagged : Nat
  deriving DecidableEq, Repr

/-- The bridge (R108): the ETH_BRIDGE body in force, each half-port's PVID, the VLANs, the filtering database, and
the frames that were too long and those flooded to unlearned addresses with the table full, by [half-port] (R107, R108). -/
structure BridgeState where
  body : List Byte := []
  pvid : Tab Nat := []
  vlans : List VlanRec := []
  macs : List MacEntry := []
  tooLong : Tab Nat := []
  unlearned : Tab Nat := []
  deriving DecidableEq, Repr
/-- What leaves the device or one of its units, in the order it leaves (MODEL: the record by which a statement can speak
of what was sent). -/
inductive Emission where
  /-- A PTP message (R64, R65): its transport (EtherType 0x88F7, or UDP port 319 or 320 over IPv6), kind (0 Sync, 1 Follow_Up,
  2 Announce, 3 Pdelay_Req, 4 Pdelay_Resp and 5 its Follow_Up), sequence number, the whole nanoseconds and the correctionField,
  stepsRemoved, clockClass and currentUtcOffset. -/
  | ptp (h transport kind seq ns correction steps clockClass : Nat) (utc : Int)
  /-- What the root of a barrier tells the fabric manager (R69): BARRIER_ID, the outcome (1 released, 2 aborted, 3 late) and the
  indices of the late participants. -/
  | barrierOutcome (id outcome : Nat) (late : List Nat)
  /-- A packet on a link, with the KP under which it is sealed: the unit position of its start unit, and its units as they stand in
  their slots, sealed, with the SEAL unit of a control packet after it (R78, R96, R97). -/
  | link (h pos : Nat) (p : Packet) (units : List Slot)
  /-- A training or relink frame on a physical lane: its 680 bytes (R82, R105). -/
  | frameOut (h lane : Nat) (bytes : List Byte)
  /-- A block row of ALIGN: the unit that fills every slot of each logical lane (R85). -/
  | alignRow (h : Nat) (units : List (List Byte))
  /-- A bridged frame, with or without its 802.1Q tag. -/
  | frame (h : Nat) (tagged : Bool) (bytes : List Byte)
  /-- An Edbor packet in a tunnel, with its SEQ, and the bytes of its datagram (R110, R111). -/
  | tunnel (h seq : Nat) (p : Packet) (bytes : List Byte)
  /-- A DOWN unit goes out in every block row from now on (R90). -/
  | downUnit (h : Nat) (unit : List Byte)
  /-- A key handshake message (R346): MSG, the unit position of its first packet on a link, and the KEY_HS packets that carry it, in
  order, unsealed. -/
  | handshake (h msg pos : Nat) (packets : List Packet)
  /-- The answer of the SMBus target: the status byte and the eight bytes of the value, most significant first (R11, R431); or its
  address to an alert response. -/
  | smbus (reply : List Byte)
  | smbusAlert (address : Nat)
  /-- A chain frame (R382). -/
  | chain (f : ChainFrame)
  /-- The Trust Core issues a challenge over JTAG (R362). -/
  | challenge (bytes : List Byte)
  deriving DecidableEq, Repr

/-- A dump (R418): its DUMP_SEQ and its bytes, and whether DM_ACK has released it (R419). -/
structure Dump where
  seq : Nat
  bytes : List Byte
  released : Bool := false
  deriving DecidableEq, Repr

/-- A pre-reset sample being taken (R417, R418): CAUSE, the affected dies and those whose part is missing, as bits, the count
at which it began, the SEQ of the newest event record then, and whether it was cut short. -/
structure Sample where
  cause : Nat
  mask : Nat
  missing : Nat := 0
  time : Nat
  eventSeq : Nat
  incomplete : Bool := false
  deriving DecidableEq, Repr

/-- The Recorder (R417 to R423): the event FIFO, the ring of records written (oldest first), the classes that lost
events since their last LOST record, as bits; the dumps held, oldest first, the next DUMP_SEQ, and the sample being taken. -/
structure RecState where
  fifo : List Event := []
  ring : List Event := []
  lostSince : Nat := 0
  dumps : List Dump := []
  dumpSeq : Nat := 0
  sample : Option Sample := none
  deriving DecidableEq, Repr

/-- A reset or power request that runs (R411): KIND of SM_RESET, its Field slot or die, and the register fields of the die
to be reloaded (R414); whether the tiles of a Field reset, or the units of a die, have been reset. -/
structure ResetReq where
  kind : Nat
  target : Nat
  regs : Tab Nat := []
  begun : Bool := false
  deriving DecidableEq, Repr

/-- The Safety Monitor (R398 to R410): reports on their way to it, the pace regions (die × 8 + region) whose stall has
been reported, the hand-offs in progress, as (Field slot, the count at which it ends at the latest) (R404), the detected faults in recovery,
as (domain, unit) with the domain [0, slot], [1, die], [2, half-port] or [3] (R407), consecutive comparisons in which the device monitors
differed (R410), the request that runs, tiles named by detected faults (R417), lane chunks withheld from grants, by [die, 0 narrow or 1 wide] (row 2),
and when the latest CHECK_STORM was logged. -/
structure SafeState where
  reports : List FaultNote := []
  paceZero : List Nat := []
  handoffs : List (Nat × Nat) := []
  faults : List (List Nat × List Nat) := []
  differ : Nat := 0
  request : Option ResetReq := none
  named : List (Nat × Nat) := []
  lanesOut : Tab Nat := []
  stormAt : Option Nat := none
  deriving DecidableEq, Repr

/-- A chain stream as a follower stages it (R382, R383): its source and attempt, the image header of START, the signature block and the image
bytes so far, whether a transport error marked it bad, and whether END has come. -/
structure ChainStream where
  source : Nat
  attempt : Nat
  header : List Byte := []
  sig : List Byte := []
  data : List Byte := []
  bad : Bool := false
  ended : Bool := false
  deriving DecidableEq, Repr

/-- Power and start-up (R365 to R385): whether VAUX is in its range, the levels of PWR_GOOD and RESET_N, whether the reset in force was
asked for by message, so that straps keep, the count at which boot began, the source being tried and how often it has been, whether
an image is applied, the chain stream of a follower; at the head, the results reported by followers, as result + 1 by position,
the count at which END was sent and BOARD_DEVICES; the fused repair map, by [die, logical row], the row itself where none is
listed (R25); and the copy of the die-level registers of a powered-down die, by die. -/
structure BootState where
  vaux : Bool := true
  pwrGood : Bool := false
  resetN : Bool := false
  byMessage : Bool := false
  bootAt : Nat := 0
  trying : Nat := 0
  tries : Nat := 0
  applied : Bool := false
  stream : Option ChainStream := none
  statuses : Tab Nat := []
  endAt : Option Nat := none
  board : Nat := 1
  rowMap : Tab (Option Nat) := []
  kept : Tab Nat := []
  deriving DecidableEq, Repr

/-- The levels of the output pins that follow the state (R387, R394, R409, R438): FAULT_N, THERM_TRIP_N, DIE_FENCE_N[7:0] as bits, and
SMB_ALERT_N. -/
structure PinState where
  faultN : Bool := true
  thermTripN : Bool := true
  dieFenceN : Nat := 0
  smbAlertN : Bool := false
  deriving DecidableEq, Repr

/-- The snapshot banks (R436, R437): by bank, the registers held, as (address, value). -/
structure SnapState where
  banks : Tab (List (Nat × Nat)) := []
  deriving DecidableEq, Repr

/-- The whole device. `flds` holds every register field of R441 that is not computed from the parts below (`State.view` in
Machine/Regview.lean names those); an unlisted field reads 0. `mem` is tile memory: byte `offset` of logical tile t of
die d lies at key (d * 2048 + t) * 2^21 + offset; an unlisted byte reads 0. -/
structure State where
  flds : Tab Nat := []
  mem : List Host.Cell := []
  gates : List Gate := []
  time : TimeState := {}
  halves : Tab HalfPort := []
  ni : NiState := {}
  gran : GranState := {}
  road : RoadState := {}
  tiles : TileState := {}
  sheaf : SheafState := {}
  engine : EngineState := {}
  trust : TrustState := {}
  bridge : BridgeState := {}
  recorder : RecState := {}
  safe : SafeState := {}
  boot : BootState := {}
  pins : PinState := {}
  snaps : SnapState := {}
  fresh : Nat := 0
  out : List Emission := []
  pending : List Instr := []
  deriving DecidableEq, Repr

/-- Register fields with a value at reset that is not their default: the part of this model's fuses (DV_PART, SM_FALLOW:
an S1 YFK-8800-A whose repair map sends logical row r to physical row r), ROLE of die 0's replica (R48), no Season
committed (R338), and cause 2 of DV_ALERT with its mask (R438). -/
def State.resetFlds : Tab Nat :=
  let row (f : Fld) (k : List Nat) (v : Nat) : List Nat × Nat := (f.reg.ctorIdx :: f.lo :: k, v)
  [row F.DV_PART_STEPPING [] 1, row F.DV_PART_GRADE [] 1, row F.DV_PART_TILES_PER_DIE [] 0x800, row F.TK_REPLICA_ROLE [0] 1,
   row F.FS_SEASONS_OWNER [] 7, row F.FS_SEASONS_HEDGE [] 7]
  ++ [0, 1, 2, 3, 4, 5, 6, 7].map (fun d => row F.SM_FALLOW_PHYS0 [d] 32) ++ [0, 1, 2, 3, 4, 5, 6, 7].map (fun d => row F.SM_FALLOW_PHYS1 [d] 33)
  ++ [row F.DV_ALERT_CAUSE [] 4, row F.DV_ALERT_LATCH [] 4, row F.DV_ALERT_MASK [] 0x3FF]

/-- The device right after VAUX is first applied. -/
def State.reset : State := { flds := State.resetFlds }

end Sys2Proof.Machine
end

