-- ==== Sys2Proof/Machine/Tab.lean ====
section
/-! DEFINITION. Reading and writing a sparse table. One reader and one writer serve every table of the state and the
tile memory (whose keys are plain addresses), so the canonical form is decided here once. -/

namespace Sys2Proof.Machine

variable {κ α : Type}

/-- The value at key `k`: the first entry listed for it, or `d` where none is listed. -/
def tabGet [DecidableEq κ] (d : α) : List (κ × α) → κ → α
  | [], _ => d
  | e :: t, k => if e.1 = k then e.2 else tabGet d t k

/-- Every entry but those of key `k`. -/
def tabErase [DecidableEq κ] (t : List (κ × α)) (k : κ) : List (κ × α) :=
  t.filter (fun e => !decide (e.1 = k))

/-- `t` with an entry put before the first entry of a larger key. -/
def tabInsert [Ord κ] (k : κ) (v : α) : List (κ × α) → List (κ × α)
  | [] => [(k, v)]
  | e :: t => if compare k e.1 == .lt then (k, v) :: e :: t else e :: tabInsert k v t

/-- The table after `v` is written at `k`; a write of the value an unlisted key reads as removes the entry. -/
def tabSet [DecidableEq κ] [Ord κ] [DecidableEq α] (d : α) (t : List (κ × α)) (k : κ) (v : α) :
    List (κ × α) :=
  if v = d then tabErase t k else tabInsert k v (tabErase t k)

/-- The canonical form: keys strictly rising, and no entry equal to what an unlisted key reads as. -/
abbrev tabWf [Ord κ] (d : α) (t : List (κ × α)) : Prop :=
  t.Pairwise (fun a b => compare a.1 b.1 = .lt) ∧ ∀ e ∈ t, e.2 ≠ d

/-- The table without the entries whose key begins with `p` (a reset of everything held there). -/
def tabClear (t : Tab α) (p : List Nat) : Tab α :=
  t.filter (fun e => !p.isPrefixOf e.1)

end Sys2Proof.Machine
end

