-- ==== Sys2Proof/WellFormed.lean ====
section
/-! DEFINITION. Which operands an event can carry: every check here is a width or a length of the wire, bus or sensor the
operand comes from. `run` (Machine/Ops.lean) refuses a command that fails it. -/

namespace Sys2Proof

/-- The gate exists in the device: a die, a bank, a slot or a Waybill slot of a tile (R34, R68, R242). -/
def GateId.wellFormed : GateId → Bool
  | .sgSwitch | .niAge | .rbSwap | .rbResume | .barrier => true
  | .fallow d => decide (d < 8)
  | .snap b => decide (b < 4)
  | .admitAt n => decide (n < 16)
  | .wbStart d t n | .wbRelease d t n => decide (d < 8 ∧ t < 2048 ∧ n < 1024)

/-- The domain exists in the device (R137). -/
def Domain.wellFormed : Domain → Bool
  | .die d => decide (d < 8)
  | .field n => decide (n < 16)
  | .tile d t => decide (d < 8 ∧ t < 2048)

/-- The widths of the PTP fields used (R64): an 8-bit domain, 16-bit sequence numbers and stepsRemoved, an 8-bit clockClass. -/
def PtpMsg.wellFormed (m : PtpMsg) : Bool :=
  decide (m.domain < 256) && (match m.body with
    | .sync q | .followUp q _ | .pdelayReq q _ | .pdelayResp q _ | .pdelayRespFollowUp q _ => decide (q < 65536)
    | .announce n c => decide (n < 65536 ∧ c < 256)
    | .unsupported => true)

/-- The widths of the header's fields (R91). -/
def Hdr.wellFormed (h : Hdr) : Bool :=
  decide (h.version < 16 ∧ h.cls < 4 ∧ h.tailback < 4 ∧ h.tv < 2 ∧ h.ord < 2 ∧ h.kp < 2 ∧ h.tr < 2 ∧ h.hop < 16 ∧
    h.typ < 256 ∧ h.units < 256 ∧ h.roleEpoch < 256 ∧ h.field < 4096 ∧ h.rsv < 16 ∧ h.tagEpoch < 16 ∧
    h.tagIndex < 4096 ∧ h.dstDevice < 65536 ∧ h.srcDevice < 65536 ∧ h.dstRank < 2 ^ 20 ∧ h.srcRank < 2 ^ 20 ∧
    h.depart < 2 ^ 48)

/-- A packet as framing delivers it (R79, R80): its unit count is the one its header declares. -/
def Packet.wellFormed (p : Packet) : Bool :=
  p.h.wellFormed && decide (p.check < 2 ^ 64) &&
  (if p.h.typ < 128 then decide (p.body.length = 32) && p.data.isEmpty
   else decide (p.body.length = 40) && decide (p.data.length = 64 * p.h.units))

/-- The widths of a datagram's fields (R110). -/
def Datagram.wellFormed (g : Datagram) : Bool :=
  decide (g.dstMac < 2 ^ 48 ∧ g.srcIp < 2 ^ 128 ∧ g.dstIp < 2 ^ 128 ∧ g.ecn < 4 ∧ g.udpPort < 65536 ∧ g.seq < 2 ^ 64)
    && (match g.vlan with
      | some v => decide (v < 4096)
      | none => true) && g.p.wellFormed && g.tag.length = 16

/-- The widths of a chain frame's fields (R382). -/
def ChainFrame.wellFormed (f : ChainFrame) : Bool :=
  decide (f.typ < 256 ∧ f.seq < 2 ^ 32 ∧ f.len < 65536 ∧ f.crc < 2 ^ 32)

/-- The stalled unit exists in the device (R22, R401). -/
def Stalled.wellFormed : Stalled → Bool
  | .tile d t unit => decide (d < 8 ∧ t < 2048 ∧ unit < 4)
  | .shared d unit region => decide (d < 8 ∧ unit < 256 ∧ region < 8)
  | .crossing d e => decide (d < 8 ∧ e < 8 ∧ d ≠ e)

/-- A report names a row of *Fault domains* and units of this device (R402). -/
def FaultNote.wellFormed (n : FaultNote) : Bool :=
  decide (1 ≤ n.row ∧ n.row ≤ 13 ∧ n.die < 8 ∧ n.die2 < 8 ∧ n.field < 65536 ∧ n.cls < 17 ∧ n.code < 256 ∧ n.detail.length ≤ 40)
    && (match n.lrow with
      | some r => decide (r < 32)
      | none => true)

/-- An event the device can meet: its operands fit what carries them. -/
def Instr.wellFormed : Instr → Bool
  | .gateRelease g => decide (g.wellFormed)
  | .paceUpdate readings => decide (readings.length = 64 ∧ ∀ r ∈ readings, r < 65536)
  | .replicaCompare readings => decide (readings.length = 8)
  | .clockMonitorFire _ => true
  | .syncSend h => decide (h < 16)
  | .syncReceive _ => true
  | .replyReceive _ => true
  | .sampleMissing src => decide (src < 4)
  | .counterStep => true
  | .holdoverUpdate => true
  | .ptpSyncSend h => decide (h < 16)
  | .announceSend h => decide (h < 16)
  | .ptpMessageReceive h m => decide (h < 16 ∧ m.wellFormed)
  | .pdelayReqSend h => decide (h < 16)
  | .ppsInEdge => true
  | .todMessage bytes => decide (bytes.length = 16)
  | .ppsOutRise => true
  | .ppsOutFall => true
  | .barrierArriveSend => true
  | .barrierArrive _ => true
  | .barrierRelease _ => true
  | .barrierFire => true
  | .barrierTimeout => true
  | .barrierAbort _ => true
  | .barrierLate _ => true
  | .signalDetect h => decide (h < 16)
  | .trainingFrame h lane f => decide (h < 16 ∧ lane < 16 ∧ f.bytes.length = 32 ∧ f.asks < 8192 ∧ ∀ i < 5, f.asks / 4 ^ i % 4 ≠ 3)
  | .tapUpdate h lane => decide (h < 16 ∧ lane < 16)
  | .alignUnit h row => decide (h < 16 ∧ (row.length = 8 ∨ row.length = 16) ∧ ∀ x ∈ row, x.unit.length = 64 ∧ x.arrived < 4096)
  | .phaseTimeout h => decide (h < 16)
  | .trainRestart h => decide (h < 16)
  | .retrain _ => true
  | .blockReceive h lane levels => decide (h < 16 ∧ lane < 16 ∧ levels.length = 2720 ∧ ∀ x ∈ levels, x < 4)
  | .linkLoss h _ => decide (h < 16)
  | .downUnitReceive h unit => decide (h < 16 ∧ unit.length = 64)
  | .sealUnit h unit => decide (h < 16 ∧ unit.length = 64)
  | .packetArrival h p => decide (h < 16 ∧ p.wellFormed)
  | .packetEligible _ tag => decide (tag.length = 16)
  | .matcherFrame => true
  | .outputStart die out => decide (die < 8 ∧ out < 5)
  | .packetDeparted _ => true
  | .tileAllocTimeout _ => true
  | .tallyScan die errors => decide (die < 8 ∧ ∀ e ∈ errors, e.1 < 24576)
  | .echoSend die unit field peer => decide (die < 8 ∧ unit ≤ 2048 ∧ field < 4096 ∧ peer < 2 ^ 20)
  | .echoReceive _ => true
  | .rateRecover die tile field peer => decide (die < 8 ∧ tile ≤ 2048 ∧ field < 4096 ∧ peer < 2 ^ 20)
  | .rekeyStart half => decide (half < 16)
  | .keyInstalled half => decide (half < 16)
  | .keyRetire half => decide (half < 16)
  | .hello half _ => decide (half < 16)
  | .kemct half _ => decide (half < 16)
  | .finish half _ => decide (half < 16)
  | .done half => decide (half < 16)
  | .abort half reason => decide (half < 16 && reason < 256)
  | .relinkSignal h found => decide (h < 16 ∧ ∀ e ∈ found, e < 8)
  | .relinkTimeout h => decide (h < 16)
  | .ethFrameReceive h _ => decide (h < 16)
  | .macAgeExpire vlan mac => decide (vlan < 4096 ∧ mac < 2 ^ 48)
  | .tunnelDatagram h g => decide (h < 16 ∧ g.wellFormed)
  | .sgSwitchAt _ => true
  | .signpostSwitch => true
  | .heldVersionExpire => true
  | .niAgeAt _ => true
  | .ageLimitChange => true
  | .hedgeCopyCompare => true
  | .tileDelivery _ => true
  | .responseReceive _ => true
  | .nakReceive _ => true
  | .busyBackoffExpire die tile tag => decide (die < 8 ∧ tag < 4096 ∧ tile < 2048)
  | .e2eTimeout die tile tag => decide (die < 8 ∧ tag < 4096 ∧ tile < 2048)
  | .tagQuarantineEnd die tile tag => decide (die < 8 ∧ tag < 4096 ∧ tile < 2048)
  | .drainEnd x => decide (x.wellFormed)
  | .schedDeparture slot _ => decide (slot < 16384)
  | .slotShortfallCheck slot => decide (slot < 16384)
  | .departureWindowEnd slot => decide (slot < 16384)
  | .bankSeal _ => true
  | .bankDiscard _ => true
  | .bankSealDone bank => decide (bank < 2)
  | .rbSwapAt _ => true
  | .bankSwap => true
  | .floorAlarm die _ => decide (die < 8)
  | .floorBreach die vcore tj => decide (die < 8 ∧ vcore < 65536 ∧ tj < 4096)
  | .suspend die => decide (die < 8)
  | .rbResumeAt _ => true
  | .resume => true
  | .dispatch die tile => decide (die < 8 ∧ tile < 2048)
  | .waybillStart die tile unit => decide (die < 8 ∧ unit < 4 ∧ tile < 2048)
  | .instanceDone die tile unit => decide (die < 8 ∧ unit < 4 ∧ tile < 2048)
  | .waybillComplete die tile slot => decide (die < 8 ∧ slot < 1024 ∧ tile < 2048)
  | .join die tile => decide (die < 8 ∧ tile < 2048)
  | .matmul die tile fault => decide (die < 8 ∧ fault < 3 ∧ tile < 2048)
  | .vfloat die tile fault => decide (die < 8 ∧ fault < 3 ∧ tile < 2048)
  | .vint die tile fault => decide (die < 8 ∧ fault < 3 ∧ tile < 2048)
  | .vreduce die tile fault => decide (die < 8 ∧ fault < 3 ∧ tile < 2048)
  | .copy die tile fault => decide (die < 8 ∧ fault < 3 ∧ tile < 2048)
  | .fill die tile fault => decide (die < 8 ∧ fault < 3 ∧ tile < 2048)
  | .put die tile fault => decide (die < 8 ∧ fault < 3 ∧ tile < 2048)
  | .get die tile fault => decide (die < 8 ∧ fault < 3 ∧ tile < 2048)
  | .call die tile fault => decide (die < 8 ∧ fault < 3 ∧ tile < 2048)
  | .packed die tile => decide (die < 8 ∧ tile < 2048)
  | .packedBundle die tile fault => decide (die < 8 ∧ fault < 4 ∧ tile < 2048)
  | .windowSet die tile => decide (die < 8 ∧ tile < 2048)
  | .roleDeclare die tile => decide (die < 8 ∧ tile < 2048)
  | .tileReset die tile => decide (die < 8 ∧ tile < 2048)
  | .tlCtrlReset _ => true
  | .tileResetDone die tile => decide (die < 8 ∧ tile < 2048)
  | .wbArm die tile => decide (die < 8 ∧ tile < 2048)
  | .wbBcast die tile => decide (die < 8 ∧ tile < 2048)
  | .wbRenew die tile => decide (die < 8 ∧ tile < 2048)
  | .wbQuery die tile => decide (die < 8 ∧ tile < 2048)
  | .flagsRead die tile => decide (die < 8 ∧ tile < 2048)
  | .timeRead die tile => decide (die < 8 ∧ tile < 2048)
  | .patch die tile => decide (die < 8 ∧ tile < 2048)
  | .branch die tile => decide (die < 8 ∧ tile < 2048)
  | .scalarF die tile => decide (die < 8 ∧ tile < 2048)
  | .sheafDefine die tile => decide (die < 8 ∧ tile < 2048)
  | .sheafUndefine die tile => decide (die < 8 ∧ tile < 2048)
  | .sheafQuery die tile => decide (die < 8 ∧ tile < 2048)
  | .sheafContribReceive _ => true
  | .chunkAccumulate die _ _ _ _ _ => decide (die < 8)
  | .sheafCountCover _ => true
  | .sheafCountPoison _ => true
  | .sheafResultReceive _ => true
  | .sheafDeadline die _ _ => decide (die < 8)
  | .smallContrib _ _ => true
  | .smallPiece _ _ => true
  | .smallResult _ => true
  | .smallDown _ => true
  | .winnowDefine die tile => decide (die < 8 ∧ tile < 2048)
  | .winnowUndefine die tile => decide (die < 8 ∧ tile < 2048)
  | .winnowQuery die tile => decide (die < 8 ∧ tile < 2048)
  | .winnowIn _ => true
  | .winnowRoundProcess field _ _ => decide (field < 4096)
  | .winnowDeadline field _ => decide (field < 4096)
  | .glDefine die tile => decide (die < 8 ∧ tile < 2048)
  | .glUndefine die tile => decide (die < 8 ∧ tile < 2048)
  | .glStatus die tile => decide (die < 8 ∧ tile < 2048)
  | .gleanKv _ => true
  | .gleanQuery _ => true
  | .gleanBatchStart context => decide (context < 4096)
  | .baleTaskDone context _ _ _ => decide (context < 4096)
  | .gleanResultForm context _ => decide (context < 4096)
  | .gleanDeadline context _ => decide (context < 4096)
  | .gleanResultReceive _ => true
  | .attest d t => decide (d < 8 ∧ t < 2048)
  | .vauxUp => true
  | .vauxLoss => true
  | .pwrGoodRise => true
  | .pwrGoodFall => true
  | .resetNFall => true
  | .bootStart _ pos _ => decide (pos < 4)
  | .imageStaged src r => decide (src < 3 ∧ r.densityLog2 < 64 ∧ r.jedec < 2 ^ 24)
  | .chainFrameReceive f => decide (f.wellFormed)
  | .chainStatusTimeout pos => decide (pos < 4)
  | .followerTimeout => true
  | .thermalTrip d => decide (d < 8)
  | .overcurrentTrip d => decide (d < 8)
  | .fuseOrder _ => true
  | .fuseOrderDone _ => true
  | .admitField _ => true
  | .evict _ => true
  | .fieldActivate n => decide (n < 16)
  | .rowZeroiseDone d r _ => decide (d < 8 ∧ r < 32)
  | .evictionDone n => decide (n < 16)
  | .relayStart _ => true
  | .relay _ => true
  | .relayTimeout => true
  | .session _ => true
  | .debugToken _ => true
  | .faultReport n => decide (n.wellFormed)
  | .handoffEnd n => decide (n < 16)
  | .hangStall u => decide (u.wellFormed)
  | .portPermit h _ => decide (h < 16)
  | .permitLoss h => decide (h < 16)
  | .heartbeatLoss h => decide (h < 16)
  | .monitorCompare _ => true
  | .fieldReset _ => true
  | .dieReset _ => true
  | .deviceReset _ => true
  | .diePowerDown _ => true
  | .diePowerUp _ => true
  | .eventWrite => true
  | .smFallowAt _ => true
  | .fallowSwitchIn d => decide (d < 8)
  | .smAdmit _ => true
  | .dmAck _ => true
  | .stepArm _ => true
  | .smbusRead target _ _ => decide (target < 128)
  | .smbusSnapRead target _ _ => decide (target < 128)
  | .alertResponse => true
  | .read _ => true
  | .write _ => true
  | .snapArm _ => true
  | .snapRead _ => true
  | .close _ => true
  | .snapLatch bank => decide (bank < 4)
  | .mgrDataReceive _ => true
  | .xferGapTimeout key => decide (key < 4)
  | .signpost _ => true
  | .rank _ => true
  | .roadBook _ => true
  | .admission _ => true
  | .dump _ => true
  | .registers _ => true
  | .events _ => true
  | .attestTransfer _ => true
  | .bridge _ => true
  | .barrier _ => true
  | .signpostSeal _ => true
  | .signpostDiscard _ => true
  | .signpostSealDone => true
  | .ethLinkUp h => decide (h < 16)
  | .ethLinkDown h => decide (h < 16)
  | .vcoreSettle d mv watts => decide (d < 8 ∧ mv < 65536 ∧ watts < 65536)
  | .memorySelfTestDone die failed _ _ => decide ((∀ x ∈ failed, x < 272) ∧ ∀ d ∈ die, d < 8)
  | .dumpSampleDone => true

/-- The mnemonic of a command, as spec/opcode_table.json spells it. -/
def Instr.mnemonic : Instr → String
  | .gateRelease _ => "GATE_RELEASE"
  | .paceUpdate _ => "PACE_UPDATE"
  | .replicaCompare _ => "REPLICA_COMPARE"
  | .clockMonitorFire _ => "CLOCK_MONITOR_FIRE"
  | .syncSend _ => "SYNC_SEND"
  | .syncReceive _ => "SYNC_RECEIVE"
  | .replyReceive _ => "REPLY_RECEIVE"
  | .sampleMissing _ => "SAMPLE_MISSING"
  | .counterStep => "COUNTER_STEP"
  | .holdoverUpdate => "HOLDOVER_UPDATE"
  | .ptpSyncSend _ => "PTP_SYNC_SEND"
  | .announceSend _ => "ANNOUNCE_SEND"
  | .ptpMessageReceive _ _ => "PTP_MESSAGE_RECEIVE"
  | .pdelayReqSend _ => "PDELAY_REQ_SEND"
  | .ppsInEdge => "PPS_IN_EDGE"
  | .todMessage _ => "TOD_MESSAGE"
  | .ppsOutRise => "PPS_OUT_RISE"
  | .ppsOutFall => "PPS_OUT_FALL"
  | .barrierArriveSend => "BARRIER_ARRIVE_SEND"
  | .barrierArrive _ => "BARRIER_ARRIVE"
  | .barrierRelease _ => "BARRIER_RELEASE"
  | .barrierFire => "BARRIER_FIRE"
  | .barrierTimeout => "BARRIER_TIMEOUT"
  | .barrierAbort _ => "BARRIER_ABORT"
  | .barrierLate _ => "BARRIER_LATE"
  | .signalDetect _ => "SIGNAL_DETECT"
  | .trainingFrame _ _ _ => "TRAINING_FRAME"
  | .tapUpdate _ _ => "TAP_UPDATE"
  | .alignUnit _ _ => "ALIGN_UNIT"
  | .phaseTimeout _ => "PHASE_TIMEOUT"
  | .trainRestart _ => "TRAIN_RESTART"
  | .retrain _ => "RETRAIN"
  | .blockReceive _ _ _ => "BLOCK_RECEIVE"
  | .linkLoss _ _ => "LINK_LOSS"
  | .downUnitReceive _ _ => "DOWN_UNIT_RECEIVE"
  | .sealUnit _ _ => "SEAL_UNIT"
  | .packetArrival _ _ => "PACKET_ARRIVAL"
  | .packetEligible _ _ => "PACKET_ELIGIBLE"
  | .matcherFrame => "MATCHER_FRAME"
  | .outputStart _ _ => "OUTPUT_START"
  | .packetDeparted _ => "PACKET_DEPARTED"
  | .tileAllocTimeout _ => "TILE_ALLOC_TIMEOUT"
  | .tallyScan _ _ => "TALLY_SCAN"
  | .echoSend _ _ _ _ => "ECHO_SEND"
  | .echoReceive _ => "ECHO_RECEIVE"
  | .rateRecover _ _ _ _ => "RATE_RECOVER"
  | .rekeyStart _ => "REKEY_START"
  | .keyInstalled _ => "KEY_INSTALLED"
  | .keyRetire _ => "KEY_RETIRE"
  | .hello _ _ => "HELLO"
  | .kemct _ _ => "KEMCT"
  | .finish _ _ => "FINISH"
  | .done _ => "DONE"
  | .abort _ _ => "ABORT"
  | .relinkSignal _ _ => "RELINK_SIGNAL"
  | .relinkTimeout _ => "RELINK_TIMEOUT"
  | .ethFrameReceive _ _ => "ETH_FRAME_RECEIVE"
  | .macAgeExpire _ _ => "MAC_AGE_EXPIRE"
  | .tunnelDatagram _ _ => "TUNNEL_DATAGRAM"
  | .sgSwitchAt _ => "SG_SWITCH_AT"
  | .signpostSwitch => "SIGNPOST_SWITCH"
  | .heldVersionExpire => "HELD_VERSION_EXPIRE"
  | .niAgeAt _ => "NI_AGE_AT"
  | .ageLimitChange => "AGE_LIMIT_CHANGE"
  | .hedgeCopyCompare => "HEDGE_COPY_COMPARE"
  | .tileDelivery _ => "TILE_DELIVERY"
  | .responseReceive _ => "RESPONSE_RECEIVE"
  | .nakReceive _ => "NAK_RECEIVE"
  | .busyBackoffExpire _ _ _ => "BUSY_BACKOFF_EXPIRE"
  | .e2eTimeout _ _ _ => "E2E_TIMEOUT"
  | .tagQuarantineEnd _ _ _ => "TAG_QUARANTINE_END"
  | .drainEnd _ => "DRAIN_END"
  | .schedDeparture _ _ => "SCHED_DEPARTURE"
  | .slotShortfallCheck _ => "SLOT_SHORTFALL_CHECK"
  | .departureWindowEnd _ => "DEPARTURE_WINDOW_END"
  | .bankSeal _ => "BANK_SEAL"
  | .bankDiscard _ => "BANK_DISCARD"
  | .bankSealDone _ => "BANK_SEAL_DONE"
  | .rbSwapAt _ => "RB_SWAP_AT"
  | .bankSwap => "BANK_SWAP"
  | .floorAlarm _ _ => "FLOOR_ALARM"
  | .floorBreach _ _ _ => "FLOOR_BREACH"
  | .suspend _ => "SUSPEND"
  | .rbResumeAt _ => "RB_RESUME_AT"
  | .resume => "RESUME"
  | .dispatch _ _ => "DISPATCH"
  | .waybillStart _ _ _ => "WAYBILL_START"
  | .instanceDone _ _ _ => "INSTANCE_DONE"
  | .waybillComplete _ _ _ => "WAYBILL_COMPLETE"
  | .join _ _ => "JOIN"
  | .matmul _ _ _ => "MATMUL"
  | .vfloat _ _ _ => "VFLOAT"
  | .vint _ _ _ => "VINT"
  | .vreduce _ _ _ => "VREDUCE"
  | .copy _ _ _ => "COPY"
  | .fill _ _ _ => "FILL"
  | .put _ _ _ => "PUT"
  | .get _ _ _ => "GET"
  | .call _ _ _ => "CALL"
  | .packed _ _ => "PACKED"
  | .packedBundle _ _ _ => "PACKED_BUNDLE"
  | .windowSet _ _ => "WINDOW_SET"
  | .roleDeclare _ _ => "ROLE_DECLARE"
  | .tileReset _ _ => "TILE_RESET"
  | .tlCtrlReset _ => "TL_CTRL_RESET"
  | .tileResetDone _ _ => "TILE_RESET_DONE"
  | .wbArm _ _ => "WB_ARM"
  | .wbBcast _ _ => "WB_BCAST"
  | .wbRenew _ _ => "WB_RENEW"
  | .wbQuery _ _ => "WB_QUERY"
  | .flagsRead _ _ => "FLAGS_READ"
  | .timeRead _ _ => "TIME_READ"
  | .patch _ _ => "PATCH"
  | .branch _ _ => "BRANCH"
  | .scalarF _ _ => "SCALAR_F"
  | .sheafDefine _ _ => "SHEAF_DEFINE"
  | .sheafUndefine _ _ => "SHEAF_UNDEFINE"
  | .sheafQuery _ _ => "SHEAF_QUERY"
  | .sheafContribReceive _ => "SHEAF_CONTRIB_RECEIVE"
  | .chunkAccumulate _ _ _ _ _ _ => "CHUNK_ACCUMULATE"
  | .sheafCountCover _ => "SHEAF_COUNT_COVER"
  | .sheafCountPoison _ => "SHEAF_COUNT_POISON"
  | .sheafResultReceive _ => "SHEAF_RESULT_RECEIVE"
  | .sheafDeadline _ _ _ => "SHEAF_DEADLINE"
  | .smallContrib _ _ => "SMALL_CONTRIB"
  | .smallPiece _ _ => "SMALL_PIECE"
  | .smallResult _ => "SMALL_RESULT"
  | .smallDown _ => "SMALL_DOWN"
  | .winnowDefine _ _ => "WINNOW_DEFINE"
  | .winnowUndefine _ _ => "WINNOW_UNDEFINE"
  | .winnowQuery _ _ => "WINNOW_QUERY"
  | .winnowIn _ => "WINNOW_IN"
  | .winnowRoundProcess _ _ _ => "WINNOW_ROUND_PROCESS"
  | .winnowDeadline _ _ => "WINNOW_DEADLINE"
  | .glDefine _ _ => "GL_DEFINE"
  | .glUndefine _ _ => "GL_UNDEFINE"
  | .glStatus _ _ => "GL_STATUS"
  | .gleanKv _ => "GLEAN_KV"
  | .gleanQuery _ => "GLEAN_QUERY"
  | .gleanBatchStart _ => "GLEAN_BATCH_START"
  | .baleTaskDone _ _ _ _ => "BALE_TASK_DONE"
  | .gleanResultForm _ _ => "GLEAN_RESULT_FORM"
  | .gleanDeadline _ _ => "GLEAN_DEADLINE"
  | .gleanResultReceive _ => "GLEAN_RESULT_RECEIVE"
  | .attest _ _ => "ATTEST"
  | .vauxUp => "VAUX_UP"
  | .vauxLoss => "VAUX_LOSS"
  | .pwrGoodRise => "PWR_GOOD_RISE"
  | .pwrGoodFall => "PWR_GOOD_FALL"
  | .resetNFall => "RESET_N_FALL"
  | .bootStart _ _ _ => "BOOT_START"
  | .imageStaged _ _ => "IMAGE_STAGED"
  | .chainFrameReceive _ => "CHAIN_FRAME_RECEIVE"
  | .chainStatusTimeout _ => "CHAIN_STATUS_TIMEOUT"
  | .followerTimeout => "FOLLOWER_TIMEOUT"
  | .thermalTrip _ => "THERMAL_TRIP"
  | .overcurrentTrip _ => "OVERCURRENT_TRIP"
  | .fuseOrder _ => "FUSE_ORDER"
  | .fuseOrderDone _ => "FUSE_ORDER_DONE"
  | .admitField _ => "ADMIT"
  | .evict _ => "EVICT"
  | .fieldActivate _ => "FIELD_ACTIVATE"
  | .rowZeroiseDone _ _ _ => "ROW_ZEROISE_DONE"
  | .evictionDone _ => "EVICTION_DONE"
  | .relayStart _ => "RELAY_START"
  | .relay _ => "RELAY"
  | .relayTimeout => "RELAY_TIMEOUT"
  | .session _ => "SESSION"
  | .debugToken _ => "DEBUG_TOKEN"
  | .faultReport _ => "FAULT_REPORT"
  | .handoffEnd _ => "HANDOFF_END"
  | .hangStall _ => "HANG_STALL"
  | .portPermit _ _ => "PORT_PERMIT"
  | .permitLoss _ => "PERMIT_LOSS"
  | .heartbeatLoss _ => "HEARTBEAT_LOSS"
  | .monitorCompare _ => "MONITOR_COMPARE"
  | .fieldReset _ => "FIELD_RESET"
  | .dieReset _ => "DIE_RESET"
  | .deviceReset _ => "DEVICE_RESET"
  | .diePowerDown _ => "DIE_POWER_DOWN"
  | .diePowerUp _ => "DIE_POWER_UP"
  | .eventWrite => "EVENT_WRITE"
  | .smFallowAt _ => "SM_FALLOW_AT"
  | .fallowSwitchIn _ => "FALLOW_SWITCH_IN"
  | .smAdmit _ => "SM_ADMIT"
  | .dmAck _ => "DM_ACK"
  | .stepArm _ => "STEP_ARM"
  | .smbusRead _ _ _ => "SMBUS_READ"
  | .smbusSnapRead _ _ _ => "SMBUS_SNAP_READ"
  | .alertResponse => "ALERT_RESPONSE"
  | .read _ => "READ"
  | .write _ => "WRITE"
  | .snapArm _ => "SNAP_ARM"
  | .snapRead _ => "SNAP_READ"
  | .close _ => "CLOSE"
  | .snapLatch _ => "SNAP_LATCH"
  | .mgrDataReceive _ => "MGR_DATA_RECEIVE"
  | .xferGapTimeout _ => "XFER_GAP_TIMEOUT"
  | .signpost _ => "SIGNPOST"
  | .rank _ => "RANK"
  | .roadBook _ => "ROAD_BOOK"
  | .admission _ => "ADMISSION"
  | .dump _ => "DUMP"
  | .registers _ => "REGISTERS"
  | .events _ => "EVENTS"
  | .attestTransfer _ => "ATTEST_TRANSFER"
  | .bridge _ => "BRIDGE"
  | .barrier _ => "BARRIER"
  | .signpostSeal _ => "SIGNPOST_SEAL"
  | .signpostDiscard _ => "SIGNPOST_DISCARD"
  | .signpostSealDone => "SIGNPOST_SEAL_DONE"
  | .ethLinkUp _ => "ETH_LINK_UP"
  | .ethLinkDown _ => "ETH_LINK_DOWN"
  | .vcoreSettle _ _ _ => "VCORE_SETTLE"
  | .memorySelfTestDone _ _ _ _ => "MEMORY_SELF_TEST_DONE"
  | .dumpSampleDone => "DUMP_SAMPLE_DONE"

end Sys2Proof
end

