-- ==== Sys2Proof/Machine/Ops.lean ====
section
/-! DEFINITION. The named operations every family of commands shares: reading and writing a register field, the
saturating counters, the event FIFO of the Recorder, fault reports, hall time and its validity, and `run`, which turns
a total effect into the outcome of a command. -/

namespace Sys2Proof.Machine

/-- The outcome of one command. -/
abbrev Result := Host.Outcome State Fault Refusal

/-! ## Register fields -/

/-- The key of field `f` at location `k` ([die], [die, tile] and the register's indices). -/
def fldKey (f : Fld) (k : List Nat) : List Nat := f.reg.ctorIdx :: f.lo :: k

/-- What a field reads when nothing is listed for it: the number of its Reset column, or its value in *Image defaults*
(R443) and *Time Keeper defaults* (R53). -/
def fldDefault (f : Fld) (k : List Nat) : Nat :=
  match f.reg, f.lo with
  | .TK_PORT_CAL, 32 => 1000
  | .TK_PORT_CAL, 50 => 100
  | .TK_HOLD, 0 => 0xFFFF
  | .TK_HOLD, 16 => 0xFFFF
  | .TK_PPS_OUT, 0 => 1000000000
  | .TK_PPS_OUT, 32 => 100000000
  | .TK_PPS_IN, 16 => 1000
  | .TK_PTP, 16 => 1
  | .TK_PTP, 24 => 0xFFFFFF
  | .SG_MARK, 0 => 24576
  | .NI_AGE, 0 => 100
  | .NI_AGE, 16 => 100
  | .NI_E2E, 0 => 110
  | .NI_E2E, 16 => 3
  | .NI_E2E, 24 => 8
  | .LK_ETH_CFG, 32 => 300
  | .GK_OUT_CFG, 0 => 2048
  | .GK_OUT_CFG, 16 => 8
  | .GK_FMAP, _ => 2
  | .GK_OWNER, 0 => if k.drop 1 = [1] then 256 else 0
  | .GK_OWNER, 16 => if k.drop 1 = [1] then 1024 else if k.drop 1 = [2] then 4096 else if k.drop 1 = [3] then 1024 else 0
  | _, _ => f.reset

/-- The value of field `f` at `k`. -/
def State.fld (s : State) (f : Fld) (k : List Nat := []) : Nat :=
  tabGet (fldDefault f k) s.flds (fldKey f k)

/-- `s` with field `f` at `k` holding `v`, cut to the field's width. -/
def State.setFld (s : State) (f : Fld) (v : Nat) (k : List Nat := []) : State :=
  { s with flds := tabSet (fldDefault f k) s.flds (fldKey f k) (v % 2 ^ f.width) }

/-- Add `n` to a counter field, which saturates at its largest value. -/
def State.bump (s : State) (f : Fld) (k : List Nat := []) (n : Nat := 1) : State :=
  s.setFld f (min (s.fld f k + n) (2 ^ f.width - 1)) k

/-- Bit `b` of field `f`. -/
def State.fbit (s : State) (f : Fld) (b : Nat) (k : List Nat := []) : Bool := (s.fld f k).testBit b

/-- Set or clear bit `b` of a number. -/
def putBit (w b : Nat) (v : Bool) : Nat :=
  if v then w ||| 2 ^ b else if w.testBit b then w - 2 ^ b else w

/-- `s` with bit `b` of field `f` set or cleared. -/
def State.setBit (s : State) (f : Fld) (b : Nat) (v : Bool) (k : List Nat := []) : State :=
  s.setFld f (putBit (s.fld f k) b v) k

/-- A Bool as a register bit. -/
abbrev b2n (b : Bool) : Nat := if b then 1 else 0

/-- The value of a signed field of `w` bits. -/
def toSigned (w n : Nat) : Int := if n < 2 ^ (w - 1) then (n : Int) else (n : Int) - 2 ^ w

/-- The bits a signed field of `w` bits holds for `i`. -/
def ofSigned (w : Nat) (i : Int) : Nat := (i % (2 ^ w : Int)).toNat

/-- The parts of a half-port no register shows. -/
def State.half (s : State) (h : Nat) : HalfPort := tabGet {} s.halves [h]

def State.setHalf (s : State) (h : Nat) (r : HalfPort) : State := { s with halves := tabSet {} s.halves [h] r }

/-- The location [die, half] of half-port `h`, numbered port × 2 + half (R52). -/
abbrev hp (h : Nat) : List Nat := [h / 2, h % 2]

/-- The dies. -/
abbrev dies : List Nat := [0, 1, 2, 3, 4, 5, 6, 7]

/-- Run an update for every element of a list, in order. -/
def State.forAll {α : Type} (s : State) (l : List α) (f : α → State → State) : State :=
  l.foldl (fun t a => f a t) s

/-! ## Bytes -/

/-- The `n` bytes of `v`, most significant first (R11: fields on a port, registers in messages). -/
def beBytes : Nat → Nat → List Byte
  | 0, _ => []
  | n + 1, v => BitVec.ofNat 8 (v / 2 ^ (8 * n)) :: beBytes n v

/-- The number a big-endian byte string spells. -/
def beNat (l : List Byte) : Nat := l.foldl (fun a b => a * 256 + b.toNat) 0

/-- The `n` bytes of `v`, least significant first (R11: tile memory). -/
def leBytes : Nat → Nat → List Byte
  | 0, _ => []
  | n + 1, v => BitVec.ofNat 8 v :: leBytes n (v / 256)

/-- The number a little-endian byte string spells. -/
def leNat : List Byte → Nat
  | [] => 0
  | b :: t => b.toNat + 256 * leNat t

/-! ## Device facts -/

/-- Logical tiles per die on this grade (R4, R5). -/
def State.tilesPerDie (s : State) : Nat := s.fld F.DV_PART_TILES_PER_DIE

/-- Logical rows per die on this grade. -/
def State.rowsPerDie (s : State) : Nat := s.tilesPerDie / 64

/-- A logical tile exists on this grade (R4). -/
def State.tileExists (s : State) (d t : Nat) : Bool := decide (d < 8) && decide (t < s.tilesPerDie)

/-- This device's number (DV_ID). -/
def State.device (s : State) : Nat := s.fld F.DV_ID_DEVICE

/-- The Arithmetic Identity Code (R6): LAYOUT 1, the stepping, the version of the Almanac loaded (0 until one is), NUMERICS 1. -/
def State.aic (s : State) : Nat :=
  2 ^ 28 + s.fld F.DV_PART_STEPPING * 2 ^ 20 + s.fld F.DV_AIC_AIC / 2 ^ 8 % 4096 * 2 ^ 8 + 1

/-! ## Hall time -/

/-- The Milestone count: counter A of the lead replica. -/
abbrev State.now (s : State) : Nat := s.time.count

/-- Counter A (`c` = 0) or B (1) of the replica on die `d`, as its difference from counter A of the lead (R46). -/
def State.peer (s : State) (d c : Nat) : PeerCounter := tabGet {} s.time.peers [d, c]

/-- Counter A of the replica on die `d`, which the gates of that die count by (R38, R70). -/
def State.nowAt (s : State) (d : Nat) : Nat := (((s.time.count : Int) + (s.peer d 0).off) % 2 ^ 64).toNat

/-- Sixteenths of a nanosecond in a nanosecond and in a microsecond (R13). -/
abbrev nsUnits (n : Nat) : Nat := n * 16
abbrev usUnits (n : Nat) : Nat := n * 16000

/-- Time is valid (R49). -/
def State.timeValid (s : State) : Bool := s.fld F.TK_STATUS_VALID = 1

/-- Time as the gates of die `d` see it: a die whose replica has failed treats it as invalid (R47). -/
def State.gateTime (s : State) (d : Nat) : Bool := s.timeValid && s.fld F.TK_REPLICA_ROLE [d] ≠ 2

/-- The counts a manager message may name (R68): time valid, and between 10 µs and 1,000 s ahead. -/
def State.launchLead (s : State) (m : Nat) : Bool := s.timeValid && decide (s.now + usUnits 10 ≤ m)
def State.launchRange (s : State) (m : Nat) : Bool := decide (m ≤ s.now + 1000 * 16000000000)

/-- A Milestone gate at `m` on a die with `valid` time may release now (R38). -/
def State.gateOpen (s : State) (d m : Nat) : Bool := s.gateTime d && decide (m ≤ s.nowAt d)

/-- A release now of a gate of die `d` set to `m` is late: it falls more than one port unit, 80 ps, after the count (R38). -/
def State.gateLate (s : State) (d m : Nat) : Bool := decide (m + 1 < s.nowAt d)

/-- The launch waiting at gate `g`, if any. -/
def State.gateAt (s : State) (g : GateId) : Option Nat := (s.gates.find? (fun x => x.id = g)).map (·.at_)

/-- Arm gate `g` at `m`; a gate holds one launch. -/
def State.armGate (s : State) (g : GateId) (m : Nat) : State :=
  { s with gates := s.gates.filter (fun x => x.id ≠ g) ++ [⟨g, m⟩] }

/-- Take the launch away from gate `g`. -/
def State.dropGate (s : State) (g : GateId) : State :=
  { s with gates := s.gates.filter (fun x => x.id ≠ g) }

/-- The launch at `g` may release now, on the device's own gates. -/
def State.launchDue (s : State) (g : GateId) : Bool :=
  match s.gateAt g with
  | some m => s.timeValid && decide (m ≤ s.now)
  | none => false

/-! ## Events and fault reports -/

/-- The Field slot that holds Field number `f`: its state is not free (R33). -/
def State.slotOf (s : State) (f : Nat) : Option Nat :=
  (List.range 16).find? (fun n => s.fld F.DV_FIELD_SLOT_STATE [n] ≠ 0 && s.fld F.DV_FIELD_SLOT_FIELD_ID [n] = f)

/-- An event is detected: it waits in the Recorder's FIFO, with the next record number, or, when the FIFO is full, is
folded into the lost counters of its class (R420, R423). `source` is the die, plus 8 for a device-level unit. `field`
0xFFFF stands for none. -/
def State.log (s : State) (cls code source : Nat) (detail : List Byte := []) (field : Nat := 0xFFFF)
    (flags : Nat := 0) : State :=
  let depth := s.recorder.fifo.length
  if depth < 64 then
    let slot := if field = 0xFFFF then 0xFF else (s.slotOf field).getD 0xFF
    let fl := putBit flags 4 (s.fld F.SM_STATUS_STATE ≠ 0 || flags.testBit 4)
    let e : Event := ⟨cls, code, source, fl, (s.fld F.EV_STATUS_HEAD + depth + 1) % 2 ^ 32, s.now, field, slot, detail⟩
    let s := { s with recorder := { s.recorder with fifo := s.recorder.fifo ++ [e] } }
    s.setFld F.EV_STATUS_FIFO_DEPTH (depth + 1)
  else
    let s := if s.fld F.EV_LOST_COUNT [cls] = 0 then s.setFld F.EV_LOST_FIRST_COUNT s.now [cls] else s
    let s := (s.bump F.EV_LOST_COUNT [cls]).setFld F.EV_LOST_LAST_COUNT s.now [cls]
    { s with recorder := { s.recorder with lostSince := putBit s.recorder.lostSince cls true } }

/-- A checker sends a fault report towards the Safety Monitor; FAULT_REPORT is its arrival there, where its event is
logged with the flags the decision gives it (R400). A note of class 0 is of an event already logged. -/
def State.report (s : State) (n : FaultNote) : State :=
  { s with safe := { s.safe with reports := s.safe.reports ++ [n] } }

/-- Something leaves the device or one of its units. -/
def State.emit (s : State) (e : Emission) : State := { s with out := s.out ++ [e] }

/-! ## Alerts and pins (R394, R409, R438) -/

/-- The causes of R438 in force, bit k for cause k. -/
def alertCauses (s : State) : Nat :=
  let c (k : Nat) (b : Bool) : Nat := if b then 2 ^ k else 0
  c 0 (s.fld F.SM_STATUS_STATE ≠ 0) + c 1 (dies.any (fun d => s.fld F.SM_DIE_STATE_FENCED [d] = 1))
    + c 2 (s.fld F.TK_STATUS_VALID = 0)
    + c 3 (dies.any (fun d => s.fld F.RB_ALARM_FLOOR_ALARM [d] = 1 || s.fld F.RB_ALARM_PACE_LOW [d] = 1 ||
        s.fld F.RB_ALARM_PACE_ALARM [d] = 1 || s.fld F.RB_ALARM_TIME_STOP [d] = 1))
    + c 4 (dies.any (fun d => s.fld F.GK_STATUS_PRESSURE [d] = 2)) + c 5 (s.recorder.fifo.length ≥ 64)
    + c 6 (s.recorder.dumps.any (fun x => !x.released)) + c 7 (s.fld F.SL_STATUS_STATE = 5)
    + c 8 (match s.safe.stormAt with
        | some t => decide (s.now < t + usUnits 1000)
        | none => false)
    + c 9 (s.fld F.PW_CAP_THERM_TRIPPED = 1 || s.fld F.PW_CAP_OC_TRIPPED ≠ 0)

/-- DV_ALERT.LATCH after the causes have come to be `now`: a bit is set when its cause becomes true. -/
def latchAfter (latch old now : Nat) : Nat := latch ||| (now ^^^ (now &&& old))

/-- The dies whose domain is powered, as bits (R394). -/
def poweredDies (s : State) : Nat := (dies.map (fun d => if s.fld F.SM_DIE_STATE_POWERED [d] = 1 then 2 ^ d else 0)).sum

/-- The alert latch and the pins follow the state after every command: FAULT_N is low while the device is unseeded or
fail-silent, THERM_TRIP_N after a thermal trip, DIE_FENCE_N[d] while die d is unpowered, SMB_ALERT_N while LATCH & MASK is
not zero. -/
def settle (s : State) : State :=
  let now := alertCauses s
  let latch := latchAfter (s.fld F.DV_ALERT_LATCH) (s.fld F.DV_ALERT_CAUSE) now
  let mask := s.fld F.DV_ALERT_MASK
  let pins : PinState := ⟨!(s.fld F.SL_STATUS_STATE = 5 || s.fld F.SM_STATUS_STATE = 2), s.fld F.PW_CAP_THERM_TRIPPED = 0, poweredDies s, (latch &&& mask) = 0⟩
  { (s.setFld F.DV_ALERT_CAUSE now).setFld F.DV_ALERT_LATCH latch with pins := pins }

/-- What a command leaves: its effect `t` on `s`, with the latch and the pins following it. The queue of waiting commands is the
step's affair, and no command touches it. -/
def finish (s t : State) : State := { settle t with pending := s.pending }

/-- The outcome of a command on `s` whose total effect gives `t`: a next state, unless an operand is one that nothing could have
carried to the device. `run` is what every meaning ends in. -/
def run (i : Instr) (s t : State) : Result :=
  if i.wellFormed then .next (finish s t) else .refused (.illFormed i.mnemonic)

/-- A fresh index for the next free value (MODEL). -/
def State.tick (s : State) : State := { s with fresh := s.fresh + 1 }

end Sys2Proof.Machine
end

