-- ==== Sys2Proof/Machine/Clock.lean ====
section
/-! DEFINITION. The oscillator's tick. -/

namespace Sys2Proof.Machine

/-- The counts a tick of the oscillator adds to an accumulator at `ratePpt`, and what stays in it (R60). -/
def counterTick (ratePpt : Int) (acc : Nat) : Nat × Nat :=
  let a := (acc : Int) + (1000000000000 + ratePpt)
  ((a / 1000000000000).toNat, (a % 1000000000000).toNat)

/-- Another replica's counter advances from its own accumulator, while counter A of the lead advances by `n`. -/
def PeerCounter.advance (ratePpt : Int) (n : Nat) (p : PeerCounter) : PeerCounter :=
  let (m, acc) := counterTick ratePpt p.acc
  ⟨p.off + m - n, acc⟩

/-- Counters A and B of every die's replica, but for counter A of the lead (R46). -/
def peerKeys (lead : Nat) : List (List Nat) :=
  (dies.flatMap (fun d => [[d, 0], [d, 1]])).filter (fun k => decide (k ≠ [lead, 0]))

/-- A sixteenth of a nanosecond of the oscillator in use passes: every replica's counters advance at the rate of R60, each from its own accumulator (R43, R44, R46). Without
VAUX nothing counts. DESIGN CHOICE: this is what a step with no command waiting does. -/
def timeTick (s : State) : State :=
  if s.boot.vaux then
    let (n, acc) := counterTick s.time.ratePpt s.time.acc
    let peers := (peerKeys (s.fld F.TK_STATUS_LEAD_DIE)).foldl (fun t k =>
      tabSet {} t k ((tabGet {} t k).advance s.time.ratePpt n)) s.time.peers
    { s with time := { s.time with count := (s.time.count + n) % 2 ^ 64, acc := acc, peers := peers } }
  else s

end Sys2Proof.Machine
end

