-- ==== Sys2Proof/Machine/Packets.lean ====
section
/-! DEFINITION. Packets: the bytes of a header (R91), the end-to-end check (R95), the smaller checks of other messages,
the fields of payloads and data headers, and the format check (R94). -/

namespace Sys2Proof

/-- All bytes of a list are zero. -/
def Machine.allZero (l : List Byte) : Bool := l.all (· = 0)

/-! ## The fields of a packet -/

open Machine

/-- A control type (R94): TYPE[7] is 0. -/
abbrev Packet.isControl (p : Packet) : Bool := p.h.typ < 128

/-- Byte `i` of the packet's first unit, for i at least 24. -/
def Packet.byte (p : Packet) (i : Nat) : Nat := (p.body.getD (i - 24) 0).toNat

/-- Bytes `i` to `i + n - 1` of the first unit, as a big-endian number. -/
def Packet.be (p : Packet) (i n : Nat) : Nat := beNat ((p.body.drop (i - 24)).take n)

/-- Bytes `i` to `i + n - 1` of a control payload, numbered from 0. -/
def Packet.pay (p : Packet) (i n : Nat) : Nat := p.be (24 + i) n

/-- Cells a packet takes: it is held in 256-byte cells, 4 units each (R155): header unit, payload, trailer. -/
def Packet.unitCount (p : Packet) : Nat := if p.isControl then 1 else p.h.units + 2

/-! Fields of a data header (*Data header*). -/
def Packet.window (p : Packet) : Nat := p.byte 24

def Packet.offset (p : Packet) : Nat := p.be 25 5

def Packet.waybillRef (p : Packet) : Nat := p.be 30 4

def Packet.sheafId (p : Packet) : Nat := p.be 34 2

def Packet.elemFormat (p : Packet) : Nat := p.byte 36

def Packet.elemBase (p : Packet) : Nat := p.be 38 4

def Packet.glContext (p : Packet) : Nat := p.be 42 2 / 16

def Packet.baleIndex (p : Packet) : Nat := p.be 44 2 / 2

def Packet.rbSlot (p : Packet) : Nat := p.be 46 2 / 4

/-- Bytes `a` to `b` of a control payload are zero. -/
def Packet.zeroPay (p : Packet) (a b : Nat) : Bool := allZero ((p.body.drop a).take (b + 1 - a))

/-- Bytes `a` to `b` of a data packet's header unit are zero. -/
def Packet.zeroHdr (p : Packet) (a b : Nat) : Bool := allZero ((p.body.drop (a - 24)).take (b + 1 - a))

end Sys2Proof

namespace Sys2Proof.Machine

/-! ## Checks -/

/-- One bit of a check of `w` bits with polynomial `poly`, most significant bit first. -/
def crcBit (w poly c : Nat) : Nat :=
  let s := (c * 2) % 2 ^ w
  if c.testBit (w - 1) then s ^^^ poly else s

/-- One byte of such a check. -/
def crcByte (w poly c : Nat) (b : Byte) : Nat :=
  Nat.repeat (crcBit w poly) 8 (c ^^^ (b.toNat * 2 ^ (w - 8)))

/-- The check over bytes in order, from `init`, with no reflection and no final XOR. -/
def crc (w poly init : Nat) (l : List Byte) : Nat := l.foldl (crcByte w poly) init

/-- CHECK of R95: CRC-64 with the ECMA-182 polynomial, all ones in and XORed with all ones at the end. -/
def crc64 (l : List Byte) : Nat := crc 64 0x42F0E1EBA9EA3693 (2 ^ 64 - 1) l ^^^ (2 ^ 64 - 1)

/-- CRC-16 of R66 and R122: polynomial 0x1021, all ones in. -/
def crc16 (l : List Byte) : Nat := crc 16 0x1021 0xFFFF l

/-- The eight bits of a byte in the other order. -/
def revByte (b : Byte) : Byte := BitVec.reverse b

/-- The low `w` bits of a number in the other order. -/
def revBits : Nat → Nat → Nat
  | 0, _ => 0
  | w + 1, n => (n % 2) * 2 ^ w + revBits w (n / 2)

/-- CRC-32 of IEEE 802.3 (R382, R420): reflected, all ones in and XORed with all ones at the end. -/
def crc32 (l : List Byte) : Nat :=
  revBits 32 (crc 32 0x04C11DB7 0xFFFFFFFF (l.map revByte)) ^^^ 0xFFFFFFFF

/-! ## Packet bytes -/

/-- Bytes 0 to 23 of a header (R91). -/
def hdrBytes (h : Hdr) : List Byte :=
  [BitVec.ofNat 8 (h.version * 16 + h.cls * 4 + h.tailback),
   BitVec.ofNat 8 (h.tv * 128 + h.ord * 64 + h.kp * 32 + h.tr * 16 + h.hop),
   BitVec.ofNat 8 h.typ, BitVec.ofNat 8 h.units, BitVec.ofNat 8 h.roleEpoch]
  ++ beBytes 2 (h.field * 16 + h.rsv) ++ beBytes 2 (h.tagEpoch * 4096 + h.tagIndex)
  ++ beBytes 2 h.dstDevice ++ beBytes 2 h.srcDevice ++ beBytes 5 (h.dstRank * 2 ^ 20 + h.srcRank)
  ++ beBytes 6 h.depart

/-- A header with the mutable fields of R92 taken as zero. -/
def hdrFixed (h : Hdr) : Hdr :=
  { h with tailback := 0, tv := 0, kp := 0, tr := 0, hop := 0, dstDevice := 0, srcDevice := 0 }

/-- The bytes CHECK covers (R95). -/
def checkedBytes (p : Packet) : List Byte := hdrBytes (hdrFixed p.h) ++ p.body ++ p.data

/-- CHECK as the source computes it. -/
def checkOf (p : Packet) : Nat := crc64 (checkedBytes p)

/-- The packet carries the CHECK of its bytes. -/
def checkOk (p : Packet) : Bool := p.check = checkOf p

/-- A packet with its CHECK computed by its source. -/
def sealCheck (p : Packet) : Packet := { p with check := checkOf p }

/-- The bytes of a packet as its units carry them (R91), without the hop tag: the 64 of a control packet; of a data packet the header
unit, the payload units and bytes 0 to 47 of the trailer. -/
def packetBytes (p : Packet) : List Byte :=
  hdrBytes p.h ++ p.body ++ p.data ++ beBytes 8 p.check ++ (if p.isControl then [] else List.replicate 40 0)

/-- No Waybill named. -/
abbrev noRef : Nat := 0xFFFFFFFF

/-- Bytes 24 to 63 of a data header. -/
def dataBody (window offset ref sheaf fmt base ctx bale slot : Nat) : List Byte :=
  [BitVec.ofNat 8 window] ++ beBytes 5 offset ++ beBytes 4 ref ++ beBytes 2 sheaf ++ [BitVec.ofNat 8 fmt, 0]
  ++ beBytes 4 base ++ beBytes 2 (ctx * 16) ++ beBytes 2 (bale * 2) ++ beBytes 2 (slot * 4) ++ List.replicate 16 0

/-- A byte string filled with zeros to `n` bytes. -/
def padTo (n : Nat) (l : List Byte) : List Byte := l ++ List.replicate (n - l.length) 0

/-- The whole nanoseconds of a count, low 48 bits (R13, DEPART_NS). -/
def departOf (count : Nat) : Nat := (count / 16) % 2 ^ 48

/-- The age in nanoseconds of a packet that departed at header time `h`, as a receiver at `count` reads it (R45). -/
def ageNs (count h : Nat) : Int :=
  let now : Int := (count / 16 : Nat)
  let cand : Int := ((count / 16) / 2 ^ 48 * 2 ^ 48 + h : Nat)
  let cand := if cand > now + 2 ^ 47 then cand - 2 ^ 48 else cand
  let cand := if cand < now - 2 ^ 47 then cand + 2 ^ 48 else cand
  now - cand

/-! ## The format check (R94) -/

/-- The types of *Packet types*. -/
def knownType (t : Nat) : Bool :=
  t ∈ [0x01, 0x02, 0x03, 0x04, 0x05, 0x06, 0x07, 0x10, 0x11, 0x12, 0x20, 0x21,
    0x80, 0x81, 0x82, 0x83, 0x84, 0x85, 0x86, 0x87, 0x88, 0x8F]

/-- TIME_EXCH and KEY_HS travel only to the neighbour. -/
def linkLocal (t : Nat) : Bool := t = 0x10 || t = 0x12

/-- The types that belong to no Field and are never answered by a NAK (R100). -/
def fieldless (t : Nat) : Bool := t = 0x11 || t = 0x20 || t = 0x21 || t = 0x8F

/-- A class is one of the two scheduled ones. -/
def schedClass (c : Nat) : Bool := c ≥ 2

/-- A NAK code the table lists, with CUR_ROLE_EPOCH zero but for ROLE_CHANGED (*NAK payload*). -/
def nakOk (p : Packet) : Bool :=
  1 ≤ p.pay 0 1 && p.pay 0 1 ≤ 6 && p.pay 2 1 < 4 && (p.pay 0 1 = 2 || p.pay 3 1 = 0) && p.zeroPay 12 31

/-- The payload of a control packet keeps to its table. -/
def controlPayloadOk (p : Packet) : Bool :=
  match p.h.typ with
  | 0x01 => 4 ≤ p.pay 6 2 && p.pay 6 2 ≤ 128 && p.zeroPay 18 31
  | 0x02 => 1 ≤ p.pay 6 1 && p.pay 6 1 ≤ 16 && p.zeroPay 7 7 && p.zeroPay 12 15 && p.zeroPay (16 + p.pay 6 1) 31
  | 0x03 => p.zeroPay 0 31
  | 0x04 => nakOk p
  | 0x05 => p.zeroPay 0 31 && p.h.tailback = 2
  | 0x06 => smallPayloadOk p
  | 0x07 => countPayloadOk p
  | 0x10 => (p.pay 0 1 = 0x11 || p.pay 0 1 = 0x21) && p.pay 1 1 < 16 && (p.pay 0 1 = 0x21 || p.zeroPay 16 31)
  | 0x11 => 1 ≤ p.pay 0 1 && p.pay 0 1 ≤ 4 && p.zeroPay 1 1 && p.pay 4 2 < 4096 && p.zeroPay 16 31
  | 0x12 => keyPayloadOk p
  | 0x21 => p.pay 1 1 ≤ 0x0B && p.zeroPay 14 15 && (p.pay 13 1 = 0 || p.pay 0 1 = 3 || p.pay 0 1 = 4 || p.pay 1 1 = 4)
  | _ => true
where
  /-- *KEY_HS payload* (R346). -/
  keyPayloadOk (p : Packet) : Bool :=
    match p.pay 0 1 with
    | 1 | 2 | 3 => 1 ≤ p.pay 6 1 && p.pay 6 1 ≤ 24
    | 4 => p.pay 6 1 = 0
    | 5 => p.pay 6 1 = 0 && 1 ≤ p.pay 7 1 && p.pay 7 1 ≤ 5
    | _ => false
  /-- *SHEAF_SMALL payload* (R292). -/
  smallPayloadOk (p : Packet) : Bool :=
    let pois := (p.pay 1 1).testBit 4
    p.pay 1 1 < 32 &&
    match p.pay 0 1 with
    | 1 | 4 => p.zeroPay 4 15 && (!pois || p.zeroPay 16 31)
    | 2 => p.zeroPay 6 7 && !pois
    | 3 => p.zeroPay 14 15 && (!pois || p.zeroPay 16 31)
    | _ => false
  /-- *SHEAF_COUNT payload* (R283). -/
  countPayloadOk (p : Packet) : Bool :=
    p.zeroPay 4 7 &&
    match p.pay 0 1 with
    | 1 => p.pay 1 1 < 32
    | 2 => p.pay 1 1 < 16 && p.zeroPay 22 31
    | _ => false

/-- A code of *Element format codes* (R196): one it does not list is malformed wherever it stands. -/
def listedFormat (c : Nat) : Bool := decide (c ≤ 7 ∨ (0x10 ≤ c ∧ c ≤ 0x14) ∨ (0x20 ≤ c ∧ c ≤ 0x27))

/-- The fields of a data header that its type does not list are zero (*Packet types*), and ELEM_FORMAT holds a listed code. SLOT
may be used only by the scheduled-data class. -/
def dataHeaderOk (p : Packet) : Bool :=
  let z := p.zeroHdr
  let win := z 24 29
  let ref := z 30 33
  let sheaf := z 34 35
  let fmt := z 36 36
  let base := z 38 41
  let ctx := z 42 43
  let bale := z 44 45
  (if p.h.typ = 0x8F then z 42 47 && p.byte 26 < 4 && p.byte 27 < 2 else
    z 37 37 && z 48 63 && p.byte 43 % 16 = 0 && p.byte 45 % 2 = 0 && p.byte 47 % 4 = 0 &&
    (schedClass p.h.cls || z 46 47) && listedFormat p.elemFormat) &&
  match p.h.typ with
  | 0x80 | 0x81 => sheaf && fmt && base && ctx && bale
  | 0x82 => win && ctx && bale
  | 0x83 => ctx && bale
  | 0x84 | 0x85 => sheaf && ctx && bale
  | 0x86 => win && sheaf && bale
  | 0x87 => sheaf && base && bale
  | 0x88 => win && ref && sheaf
  | _ => true

/-- Check 1 of *Arrival checks*: the packet is well formed (R94). A data packet with a data type travels in a data
class, a control one in a control class; a link-local packet carries no identity. -/
def formatOk (p : Packet) : Bool :=
  p.h.version = 1 && knownType p.h.typ && p.h.tailback ≠ 3 && p.h.rsv = 0 &&
  (if p.isControl then p.h.cls % 2 = 0 && p.h.units = 0 && controlPayloadOk p
   else p.h.cls % 2 = 1 && 4 ≤ p.h.units && p.h.units ≤ 128 && dataHeaderOk p) &&
  (!linkLocal p.h.typ || (p.h.field = 0 && p.h.tagEpoch = 0 && p.h.tagIndex = 0 && p.h.dstDevice = 0 &&
    p.h.srcDevice = 0 && p.h.dstRank = 0 && p.h.srcRank = 0))

end Sys2Proof.Machine
end

