-- ==== Sys2Proof/Machine/Granary.lean ====
section
/-! DEFINITION. The Granary slice and its Keeper: cells and their side records, owners, the allocation decision (R158),
the pressure state (R161), frees and Tally faults (R165), queues and eligibility (R143, R151), and the discards of R144
and R162. -/

namespace Sys2Proof.Machine

/-! ## Packets held and cells -/

/-- The stored packet with number `pid`. -/
def State.pkt (s : State) (pid : Nat) : Option Pkt := tabGet none s.gran.pkts [pid]

def State.setPkt (s : State) (pid : Nat) (p : Option Pkt) : State :=
  { s with gran := { s.gran with pkts := tabSet none s.gran.pkts [pid] p } }

/-- The side record of a cell (R155). -/
def State.cell (s : State) (d c : Nat) : CellRec := tabGet {} s.gran.cells [d, c]

def State.setCell (s : State) (d c : Nat) (r : CellRec) : State :=
  { s with gran := { s.gran with cells := tabSet {} s.gran.cells [d, c] r } }

/-- The queue of a class at an output: 0 scheduled, 1 control, 2 data (R142). -/
def State.queue (s : State) (d o q : Nat) : List Nat := tabGet [] s.gran.queues [d, o, q]

def State.setQueue (s : State) (d o q : Nat) (l : List Nat) : State :=
  { s with gran := { s.gran with queues := tabSet [] s.gran.queues [d, o, q] l } }

/-- The key under which the packets of an input wait to be linked, oldest first (R151). R151 names no input for what the port NIs and
the management logic make: here all of it, of every die, is one input (DESIGN CHOICE, log 171). -/
def inputKey : Input → List Nat
  | .half h => [0, h]
  | .tile d t => [1, d, t]
  | .sheaf d => [2, d]
  | .engine d => [3, d]
  | .mgmt => [4]

def State.inOrder (s : State) (i : Input) : List Nat := tabGet [] s.gran.inOrder (inputKey i)

def State.setInOrder (s : State) (i : Input) (l : List Nat) : State :=
  { s with gran := { s.gran with inOrder := tabSet [] s.gran.inOrder (inputKey i) l } }

/-! ## Owners (R156) -/

/-- The KIND of an owner: 0 SCHED, 1 CONTROL, 2 TRANSIT, 3 MGR, 4 SHEAF, 5 ENGINE, 6 DATA, 15 not used. -/
def ownerKind (o : Nat) : Nat :=
  if o ≤ 3 then o else if 16 ≤ o ∧ o < 32 then 4 else if 32 ≤ o ∧ o < 48 then 5
  else if 64 ≤ o ∧ o < 256 then 6 else 15

/-- Field slot of a SHEAF or ENGINE owner; 0 otherwise. -/
def ownerSlot (o : Nat) : Nat := if 16 ≤ o ∧ o < 48 then o % 16 else 0

/-- The owner GK_FMAP names for a Field on a die (R157). -/
def State.fmap (s : State) (d f : Nat) : Nat := s.fld (F.GK_FMAP (f % 8)) [d, f / 8]

/-- Cells held by an owner, as the Keeper counts them. -/
def State.held (s : State) (d o : Nat) : Nat := s.fld F.GK_TALLY_HELD [d, o]

def State.minCells (s : State) (d o : Nat) : Nat :=
  if o = 0 then s.fld F.GK_REGIONS_SCHED_CELLS [d] else s.fld F.GK_OWNER_MIN_CELLS [d, o]

/-- reserve_free of R158: the part of the minimums of owners 1 to 255 that they do not hold. Owner 0's cells lie outside
the managed region. -/
def State.reserveFree (s : State) (d : Nat) : Nat :=
  ((List.range 255).map (fun i => s.minCells d (i + 1) - s.held d (i + 1))).sum

/-- Cells held in the managed region. -/
abbrev State.heldAll (s : State) (d : Nat) : Nat := s.fld F.GK_STATUS_HELD [d]

abbrev State.managed (s : State) (d : Nat) : Nat := s.fld F.GK_REGIONS_MANAGED_CELLS [d]

/-- shared_free of R158; it may be negative. -/
def State.sharedFree (s : State) (d : Nat) : Int :=
  (s.managed d : Int) - s.heldAll d - s.reserveFree d

/-! ## Allocation (R158) -/

/-- The decision of R158 for `n` cells for owner `o` towards output `out`. A packet for the management logic goes to no output of R142:
it takes output number 5, whose cap is the default 2,048 and whose depth stays 0 (DESIGN CHOICE, log 175). -/
def allocOk (s : State) (d o n out : Nat) : Bool :=
  let min := s.minCells d o
  let held := s.held d o
  let kind := ownerKind o
  let state := s.fld F.GK_STATUS_PRESSURE [d]
  let pooled := kind = 6 || kind = 2 || kind = 3 || kind = 5
  let need := n - (min - held)
  let cap := s.fld F.GK_OWNER_SHARE_CAP [d, o]
  let cap := if state = 1 && pooled then cap / 2 else cap
  let outCap := s.fld F.GK_OUT_CFG_OUT_CAP [d, out]
  let outCap := if state ≠ 0 then outCap / 2 else outCap
  if s.fld F.GK_OWNER_FENCED [d, o] = 1 then false
  else if held + n ≤ min then true
  else if state = 2 && pooled then false
  else if held + n - min > cap then false
  else if (kind = 6 || kind = 2 || kind = 3 || ((kind = 4 || kind = 5) && out ≤ 1)) &&
      decide (s.fld F.GK_OUT_CFG_DEPTH_DATA [d, out] + n > outCap) then false
  else if s.sharedFree d < (need : Int) then false
  else true

/-- The first cell the Keeper may not allocate: the scheduled range in force, or the larger one that a loaded bank will
take while its cells are being ceded (R141, R166). -/
def State.allocLimit (s : State) (d : Nat) : Nat :=
  24576 - max (s.fld F.GK_REGIONS_SCHED_CELLS [d]) (s.fld F.GK_REGIONS_PENDING_SCHED [d])

/-- Find-first-free (R154): the `n` lowest free cells from `c`, looking at `fuel` cells. -/
def findFree (s : State) (d : Nat) : Nat → Nat → Nat → List Nat
  | 0, _, _ => []
  | _ + 1, _, 0 => []
  | fuel + 1, c, n + 1 =>
    if (s.cell d c).st = 0 then c :: findFree s d fuel (c + 1) n else findFree s d fuel (c + 1) (n + 1)

/-- ALLOC_US: bits [25:10] of the whole nanoseconds (R155). -/
def allocStamp (s : State) : Nat := (s.now / 16 / 1024) % 65536

/-- Write the side records of a packet's cells. -/
def markCells (d owner stamp : Nat) : List Nat → Bool → State → State
  | [], _, s => s
  | c :: t, first, s =>
    markCells d owner stamp t false
      (s.setCell d c ⟨t.headD c, t.isEmpty, 0, first, owner, 1, stamp⟩)

/-- The pressure state that follows from `held` and `m` (R161): 0 Green, 1 Amber, 2 Red. -/
def pressureOf (cur held m : Nat) : Nat :=
  if 100 * held > 85 * m then 2
  else if cur = 2 then (if 100 * held < 55 * m then 0 else if 100 * held < 80 * m then 1 else 2)
  else if cur = 1 then (if 100 * held < 55 * m then 0 else 1)
  else if 100 * held ≥ 60 * m then 1 else 0

/-- The GK_STATUS bytes an event carries. What SHARED_FREE shows of a negative shared_free is not stated: its low 15 bits, here and in the
register (DESIGN CHOICE, log 174). -/
def gkStatusBytes (s : State) (d : Nat) : List Byte :=
  beBytes 8 (s.heldAll d + 2 ^ 16 * s.fld F.GK_STATUS_PRESSURE [d] + 2 ^ 32 * ofSigned 15 (s.sharedFree d)
    + 2 ^ 48 * s.reserveFree d)

/-- The pressure state after cells have been allocated or freed; a change is logged (R161). -/
def updatePressure (d : Nat) (s : State) : State :=
  let cur := s.fld F.GK_STATUS_PRESSURE [d]
  let new := pressureOf cur (s.heldAll d) (s.managed d)
  if new = cur then s
  else
    let s := s.setFld F.GK_STATUS_PRESSURE new [d]
    s.log 0x04 0x01 d (gkStatusBytes s d)

/-- Add to the depth counters of an output: cells of its data-class or control-class queue, packets still filling
included. -/
def addDepth (s : State) (d out q n : Nat) : State :=
  if out > 4 then s
  else if q = 2 then s.setFld F.GK_OUT_CFG_DEPTH_DATA (s.fld F.GK_OUT_CFG_DEPTH_DATA [d, out] + n) [d, out]
  else if q = 1 then s.setFld F.GK_OUT_CFG_DEPTH_CTRL (s.fld F.GK_OUT_CFG_DEPTH_CTRL [d, out] + n) [d, out]
  else s

def subDepth (s : State) (d out q n : Nat) : State :=
  if out > 4 then s
  else if q = 2 then s.setFld F.GK_OUT_CFG_DEPTH_DATA (s.fld F.GK_OUT_CFG_DEPTH_DATA [d, out] - n) [d, out]
  else if q = 1 then s.setFld F.GK_OUT_CFG_DEPTH_CTRL (s.fld F.GK_OUT_CFG_DEPTH_CTRL [d, out] - n) [d, out]
  else s

/-- Charge `n` more cells to owner `o`; `managedToo` is false for scheduled cells. -/
def chargeCells (s : State) (d o n : Nat) (managedToo : Bool) : State :=
  let s := s.setFld F.GK_TALLY_HELD (s.held d o + n) [d, o]
  let s := if s.fld F.GK_TALLY_HIGH_WATER [d, o] < s.held d o
    then s.setFld F.GK_TALLY_HIGH_WATER (s.held d o) [d, o] else s
  if managedToo then s.setFld F.GK_STATUS_HELD (s.heldAll d + n) [d] else s

/-- The Keeper's answer to a request of `n` cells for a packet (R158): the cells, taken lowest first, or nothing. A
request is granted whole or refused whole. -/
def allocate (d o n out q : Nat) (s : State) : Option (List Nat × State) :=
  if allocOk s d o n out then
    let cs := findFree s d (s.allocLimit d) 0 n
    if cs.length = n then
      let s := markCells d o (allocStamp s) cs true s
      some (cs, updatePressure d (addDepth (chargeCells s d o n true) d out q n))
    else none
  else none

/-- Cells 4k to 4k + 3 hold a packet's units (R140). -/
def cellsFor (p : Packet) : Nat := (p.unitCount + 3) / 4

/-! ## Frees and Tally faults (R165) -/

/-- The GK_FAULT fields of the latest fault, as an event carries them. -/
def gkFaultBytes (s : State) (d : Nat) : List Byte :=
  beBytes 8 (s.fld F.GK_FAULT_CELL [d] + 2 ^ 16 * s.fld F.GK_FAULT_CELL_OWNER [d] + 2 ^ 24 * s.fld F.GK_FAULT_REQ_OWNER [d]
    + 2 ^ 32 * s.fld F.GK_FAULT_REQ_UNIT [d] + 2 ^ 36 * s.fld F.GK_FAULT_KIND [d] + 2 ^ 40 * s.fld F.GK_FAULT_COUNT [d])

/-- Record a Tally fault, leak, mismatch or side-record error in GK_FAULT. -/
def granFault (d cell owner req unit kind : Nat) (s : State) : State :=
  let s := ((s.setFld F.GK_FAULT_CELL cell [d]).setFld F.GK_FAULT_CELL_OWNER owner [d]).setFld F.GK_FAULT_REQ_OWNER req [d]
  ((s.setFld F.GK_FAULT_REQ_UNIT unit [d]).setFld F.GK_FAULT_KIND kind [d]).bump F.GK_FAULT_COUNT [d]

/-- The Field slots charged to an owner on a die: its own slot for a SHEAF or ENGINE owner, every slot whose Field
GK_FMAP maps to a DATA owner (R156, R157). -/
def slotsOfOwner (s : State) (d o : Nat) : List Nat :=
  (List.range 16).filter (fun n => s.fld F.DV_FIELD_SLOT_STATE [n] ≠ 0 &&
    (if ownerKind o = 6 then s.fmap d (s.fld F.DV_FIELD_SLOT_FIELD_ID [n]) = o
     else (ownerKind o = 4 || ownerKind o = 5) && ownerSlot o = n))

/-- The report of an owner whose cells are in doubt: row 5 of *Fault domains*, for every Field charged to it, or row 6,
for a slice (R164, R165). The event is logged when the Safety Monitor takes the report, or here when no Field is charged. -/
def ownerReport (d o code : Nat) (s : State) : State :=
  let unit := [1, d]
  if ownerKind o = 4 ∨ ownerKind o = 5 ∨ ownerKind o = 6 then
    if slotsOfOwner s d o = [] then s.log 0x04 code d (gkFaultBytes s d)
    else s.forAll (slotsOfOwner s d o) (fun n s =>
      s.report ⟨5, false, unit, d, d, s.fld F.DV_FIELD_SLOT_FIELD_ID [n], none, false, 0x04, code, false, gkFaultBytes s d⟩)
  else s.report ⟨6, false, unit, d, d, 0xFFFF, none, false, 0x04, code, false, gkFaultBytes s d⟩

/-- Fence an owner: the Keeper refuses its allocations from now on (R165). -/
def fenceOwner (d o : Nat) (s : State) : State :=
  if s.fld F.GK_OWNER_FENCED [d, o] = 1 then s
  else
    ownerReport d o 0x07 (s.setFld F.GK_OWNER_FENCED 1 [d, o])

/-- A refused free (R165): a double free (KIND 1) or one by another owner (KIND 2). Three that name one requesting owner
within 1 ms fence that owner. -/
def tallyFault (d cell req unit kind : Nat) (s : State) : State :=
  let s := granFault d cell (s.cell d cell).owner req unit kind s
  let s := s.log 0x04 0x06 d (gkFaultBytes s d)
  let s := s.bump F.GK_TALLY_FAULTS [d, req]
  let recent := (tabGet [] s.gran.tallyFaults [d, req]).filter (fun t => s.now < t + usUnits 1000) ++ [s.now]
  let s := { s with gran := { s.gran with tallyFaults := tabSet [] s.gran.tallyFaults [d, req] recent } }
  if recent.length ≥ 3 then fenceOwner d req s else s

/-- A free names the cell, the unit and the owner (R165); it is performed or refused as a Tally fault. Of the side record R165 says only
that OWNER stays: here NEXT, PNEXT and ALLOC_US become 0 (DESIGN CHOICE, log 172). -/
def freeCell (d cell owner unit : Nat) (s : State) : State :=
  let r := s.cell d cell
  if r.st = 0 then tallyFault d cell owner unit 1 s
  else if r.owner ≠ owner then tallyFault d cell owner unit 2 s
  else
    let s := s.setCell d cell { r with st := 0, last := false, head := false, next := 0, pnext := 0, allocUs := 0 }
    let s := s.setFld F.GK_TALLY_HELD (s.held d owner - 1) [d, owner]
    if owner = 0 then s else s.setFld F.GK_STATUS_HELD (s.heldAll d - 1) [d]

/-- CEDE_PENDING reads 1 while a cell of the range that a loaded bank will take is still held (R166). -/
def cedeHeld (s : State) (d : Nat) : Bool :=
  s.gran.cells.any (fun e => e.1.head? = some d && decide (24576 - s.fld F.GK_REGIONS_PENDING_SCHED [d] ≤ e.1.getD 1 0) &&
    decide (e.1.getD 1 0 < 24576 - s.fld F.GK_REGIONS_SCHED_CELLS [d]) && e.2.st ≠ 0)

def updateCede (d : Nat) (s : State) : State :=
  s.setFld F.GK_REGIONS_CEDE_PENDING
    (b2n (decide (s.fld F.GK_REGIONS_PENDING_SCHED [d] > s.fld F.GK_REGIONS_SCHED_CELLS [d]) && cedeHeld s d)) [d]

/-- The packet before `pid` in a queue comes to name in PNEXT the one after it (R155). -/
def unlinkNext (pid : Nat) (q : List Nat) (s : State) : State :=
  let before := q.takeWhile (· ≠ pid)
  let after := (q.drop (before.length + 1)).head?
  if pid ∉ q then s
  else match before.getLast?.bind s.pkt with
    | some k => match k.cells.head? with
      | some a => s.setCell k.die a { s.cell k.die a with pnext := ((after.bind s.pkt).bind (fun x => x.cells.head?)).getD 0 }
      | none => s
    | none => s

/-- A packet leaves the slice: its cells are freed by `unit`, and it leaves every queue (R144). -/
def freePkt (pid unit : Nat) (s : State) : State :=
  match s.pkt pid with
  | none => s
  | some k =>
    let s := unlinkNext pid (s.queue k.die k.out k.q) s
    let s := s.forAll k.cells (fun c s => freeCell k.die c k.owner unit s)
    let s := subDepth s k.die k.out k.q k.cells.length
    let s := s.setQueue k.die k.out k.q ((s.queue k.die k.out k.q).filter (· ≠ pid))
    let s := s.setInOrder k.input ((s.inOrder k.input).filter (· ≠ pid))
    let s := s.setPkt pid none
    let r := s.half (k.die * 2 + k.out)
    let s := if k.out ≤ 1 ∧ r.sending = some pid then s.setHalf (k.die * 2 + k.out) { r with sending := none } else s
    updateCede k.die (updatePressure k.die s)

/-! ## Linking (R143, R151) -/

/-- The cells of a packet take a new STATE. -/
def cellState (d : Nat) (cs : List Nat) (st : Nat) (s : State) : State :=
  s.forAll cs (fun c s => s.setCell d c { s.cell d c with st := st })

/-- Put a packet at the tail of its queue: the old tail's head cell names the new one in PNEXT (R155). -/
def linkOne (pid : Nat) (k : Pkt) (s : State) : State :=
  let q := s.queue k.die k.out k.q
  let s := match q.getLast?.bind s.pkt with
    | some t => match t.cells.head?, k.cells.head? with
      | some a, some b => s.setCell k.die a { s.cell k.die a with pnext := b }
      | _, _ => s
    | none => s
  let s := cellState k.die k.cells 2 (s.setQueue k.die k.out k.q (q ++ [pid]))
  s.setPkt pid (some { k with stage := .queued })

/-- Link the packets of an input that are ready, up to the first that is not (R151). -/
def linkReady (i : Input) : List Nat → State → State
  | [], s => s.setInOrder i []
  | pid :: t, s =>
    match s.pkt pid with
    | none => linkReady i t s
    | some k =>
      match k.stage with
      | .ready => linkReady i t (linkOne pid k s)
      | .filling => s.setInOrder i (pid :: t)
      | _ => linkReady i t s

def linkInput (i : Input) (s : State) : State := linkReady i (s.inOrder i) s

/-- All of a packet's units are written and its tag has passed: it is ready, and is linked in its input's order. -/
def makeReady (pid : Nat) (s : State) : State :=
  match s.pkt pid with
  | some k =>
    if k.stage = .filling ∧ k.tagOk ∧ k.cells.length ≤ k.written then
      let s := s.setPkt pid (some { k with stage := .ready })
      linkInput k.input s
    else s
  | none => s

/-- A packet fails: its cells are freed and the packets behind it may be linked. -/
def failPkt (pid unit : Nat) (s : State) : State :=
  match s.pkt pid with
  | some k => linkInput k.input (freePkt pid unit s)
  | none => s

/-- A packet from a link fails: its cells are freed by `unit` once its last unit has come (R143), and read STATE 0b11 until then. -/
def discardPkt (pid unit : Nat) (s : State) : State :=
  match s.pkt pid with
  | some k =>
    match k.stage with
    | .discarding _ => s
    | .filling =>
      if k.cells.length ≤ k.arrived then failPkt pid unit s
      else linkInput k.input (cellState k.die k.cells 3 (s.setPkt pid (some { k with stage := .discarding unit })))
    | _ => failPkt pid unit s
  | none => s

/-- Store a packet: it takes a number and cells, and waits in its input's order. -/
def storePkt (k : Pkt) (s : State) : Nat × State :=
  let pid := s.gran.nextPid
  let s := { s with gran := { s.gran with nextPid := pid + 1 } }
  let s := s.setPkt pid (some k)
  (pid, if k.q = 0 then s else s.setInOrder k.input (s.inOrder k.input ++ [pid]))

/-- The packets whose slice and output are these. -/
def pktsAt (s : State) (d out : Nat) : List Nat :=
  (s.gran.pkts.filter (fun e => match e.2 with
    | some k => k.die = d && k.out = out
    | none => false)).map (fun e => e.1.headD 0)

/-- An output half-port leaves UP: every packet queued or filling for it is discarded and counted, with no NAK; a packet
being sent is lost on the wire and its cells are freed at once (R162). -/
def outputDown (h : Nat) (s : State) : State :=
  let d := h / 2
  let out := h % 2
  s.forAll (pktsAt s d out) (fun pid s =>
    match s.pkt pid with
    | some k =>
      let s := if k.stage = .taken then s else s.bump F.GK_DROP_LINK_DOWN [d]
      failPkt pid 8 s
    | none => s)

/-! ## The end-to-end check (R129) -/

/-- *Event DETAIL* of class CHECK: SRC_DEVICE, half-port of arrival (0xFF for a packet made here), count in the last 1 ms. -/
def checkFailure (k : Pkt) (s : State) : State :=
  let h := match k.input with
    | .half h => h
    | _ => 0xFF
  let s := s.bump F.NI_DROP_B_CHECK_FAIL [k.die]
  let recent := (tabGet [] s.ni.checkFails [h]).filter (fun t => decide (s.now < t + usUnits 1000)) ++ [s.now]
  let det := beBytes 2 k.p.h.srcDevice ++ beBytes 1 h ++ beBytes 2 recent.length
  let s := s.report ⟨13, false, [13, h], k.die, k.die, k.p.h.field, none, false, 0x09, 0x01, false, det⟩
  let s : State := if recent.length = 8 ∧ h < 16 then { s.log 0x09 0x02 k.die det with safe := { s.safe with stormAt := some s.now } } else s
  { s with ni := { s.ni with checkFails := tabSet [] s.ni.checkFails [h] (if 8 ≤ recent.length then [] else recent) } }

end Sys2Proof.Machine
end

