-- ==== Sys2Proof/Machine/Route.lean ====
section
/-! DEFINITION. Ranks, Signposts and the Hedge at the link: rank blocks (R112), translation (R116), the Field maps (R118,
R356), candidates and the choice of a link (R119 to R122, R124), Tailback marks (R126), ageing (R130) and closed gates
(R137). -/

namespace Sys2Proof.Machine

/-! ## Versions and rank blocks -/

/-- STATE of a version: 0 EMPTY, 1 LOADING, 2 SEALED, 3 CURRENT, 4 HELD (SG_CTRL). -/
def State.verState (s : State) (v : Nat) : Nat :=
  if v = 0 then s.fld F.SG_CTRL_STATE_A else s.fld F.SG_CTRL_STATE_B

def State.setVerState (s : State) (v st : Nat) : State :=
  if v = 0 then s.setFld F.SG_CTRL_STATE_A st else s.setFld F.SG_CTRL_STATE_B st

/-- The version is held: a packet that its TV names may use it (R120). -/
def State.verUsable (s : State) (v : Nat) : Bool := s.verState v ≥ 2

/-- The version that is not CURRENT. -/
def State.otherVer (s : State) : Nat := 1 - s.fld F.SG_CTRL_CURRENT

/-- A rank block entry (R112, *Rank block entry*). -/
structure RankBlock where
  kind : Nat
  device : Nat
  die : Nat
  lrow : Nat
  half : Nat
  deriving DecidableEq, Repr

def rankBlockOf (w : Nat) : RankBlock :=
  ⟨w % 4, w / 4 % 65536, w / 2 ^ 18 % 8, w / 2 ^ 21 % 32, w / 2 ^ 26 % 16⟩

/-- The block of rank `r` in the table of Field slot `slot`, version `v`, of a die's port NI. -/
def State.rankBlock (s : State) (v d slot r : Nat) : RankBlock :=
  rankBlockOf (tabGet 0 s.ni.ranks [v, d, slot, r / 64])

/-- The logical tile a rank of a tile-row block names (R112). -/
def rankTile (b : RankBlock) (r : Nat) : Nat := b.lrow * 64 + r % 64

/-! ## Links, Field maps and candidates -/

/-- The link is in UP. -/
def State.linkUp (s : State) (h : Nat) : Bool := s.fld F.PH_LINK_STATE (hp h) = 4

/-- The half-port runs Ethernet mode (R74). -/
def State.isEth (s : State) (h : Nat) : Bool := s.fld F.PH_PORT_CFG_MODE [h / 2] = 1

/-- The tunnel that runs over an Ethernet-mode half-port (R110). -/
def State.tunnelOf (s : State) (h : Nat) : Option Nat :=
  if s.isEth h && s.fld F.LK_ETH_CFG_ENCAP_EN = 1 then
    (List.range 16).find? (fun n => s.fld F.LK_TUNNEL_0_VALID [n] = 1 && s.fld F.LK_TUNNEL_0_HALF_PORT [n] = h)
  else none

/-- Packets can leave by the half-port: its link is in UP and, in Ethernet mode, a tunnel with keys runs over it (R110). -/
def State.linkCarries (s : State) (h : Nat) : Bool :=
  s.linkUp h && (!s.isEth h || ((s.tunnelOf h).isSome && (tabGet {} s.halves [h]).keys.txValid))

/-- The half-port is a whole port (R72): unsplit, half 0. -/
def State.isWhole (s : State) (h : Nat) : Bool := s.fld F.PH_PORT_CFG_SPLIT [h / 2] = 0

/-- TC_PORT_CLASS: bit h set for an endpoint half-port (R356). -/
def State.isEndpoint (s : State) (h : Nat) : Bool := s.fbit F.TC_PORT_CLASS_ENDPOINT h

/-- The 128-bit Key ID of the partner on a half-port. -/
def State.partnerKey (s : State) (h : Nat) : Nat :=
  s.fld F.TC_PARTNER_KEY_ID [h, 0] * 2 ^ 64 + s.fld F.TC_PARTNER_KEY_ID [h, 1]

/-- On an endpoint half-port a Field's bit counts only while the link is UP and the partner is the one the Field's
admission named, and never while the Field is fail-silent (R356, R408). -/
def State.endpointOk (s : State) (h f : Nat) : Bool :=
  !s.isEndpoint h ||
  (s.linkUp h && match s.slotOf f with
    | some n => s.fld F.SM_FIELD_STATE_SILENT [n] = 0 && tabGet 0 s.trust.partnerIds [n, h] = s.partnerKey h &&
        s.fld F.DV_FIELD_SLOT_STATE [n] ≠ 1
    | none => false)

/-- The first checker's test of Field `f` on half-port `h` (R118). -/
def State.map1 (s : State) (h f : Nat) : Bool :=
  s.fbit F.NI_FIELD_MAP_MAP (f % 64) [h / 2, h % 2, f / 64] && s.endpointOk h f

/-- The second checker's test. -/
def State.map2 (s : State) (h f : Nat) : Bool :=
  (tabGet 0 s.ni.map2 [h, f / 64]).testBit (f % 64) && s.endpointOk h f

/-- The half-ports that exist: half 1 only of a split port (R72). -/
def State.halfExists (s : State) (h : Nat) : Bool := decide (h < 16) && (h % 2 = 0 || !s.isWhole h)

/-- The die is fenced (R405). -/
def State.dieFenced (s : State) (d : Nat) : Bool := s.fld F.SM_DIE_STATE_FENCED [d] = 1

/-- The candidates of a packet (R119): half-ports set in the Signpost entry of its DST_DEVICE, in the version TV names,
that carries packets, whose first-checker map grants its Field, on dies that take crossings (R405). A packet that belongs to no Field
needs no map bit (R432). -/
def candidates (s : State) (d : Nat) (h : Hdr) : List Nat :=
  let post := tabGet 0 s.ni.posts [h.tv, d, h.dstDevice]
  (List.range 16).filter (fun c => post.testBit c && s.linkCarries c && (fieldless h.typ || s.map1 c h.field) &&
    (c / 2 = d || !s.dieFenced (c / 2)))

/-- The cells held in the queue of a class at a half-port's output (R121). -/
def outDepth (s : State) (c cls : Nat) : Nat :=
  if cls = 1 then s.fld F.GK_OUT_CFG_DEPTH_DATA (hp c) else s.fld F.GK_OUT_CFG_DEPTH_CTRL (hp c)

/-- The bytes R122 hashes: header bytes 5, 6 and 9 to 17. -/
def hashBytes (h : Hdr) : List Byte :=
  beBytes 2 (h.field * 16 + h.rsv) ++ beBytes 2 h.dstDevice ++ beBytes 2 h.srcDevice
    ++ beBytes 5 (h.dstRank * 2 ^ 20 + h.srcRank)

/-- The link chosen among candidates: by hash for ordered packets (R122), else the least depth, ties to the first at or
after the die's rotation pointer (R121). -/
def chooseLink (s : State) (d : Nat) (h : Hdr) (cands : List Nat) : Nat :=
  if h.ord = 1 then cands.getD (crc16 (hashBytes h) % cands.length) 0
  else
    let least := (cands.map (fun c => outDepth s c h.cls)).foldl min (outDepth s (cands.headD 0) h.cls)
    let tied := cands.filter (fun c => outDepth s c h.cls = least)
    let ptr := tabGet 0 s.ni.rot [d]
    ((tied.find? (fun c => decide (ptr ≤ c))).getD (tied.headD 0))

/-- Every unordered choice advances the die's rotation pointer by one half-port number. -/
def advanceRot (d : Nat) (h : Hdr) (s : State) : State :=
  if h.ord = 1 then s
  else { s with ni := { s.ni with rot := tabSet 0 s.ni.rot [d] ((tabGet 0 s.ni.rot [d] + 1) % 16) } }

/-- TAILBACK after the Signposts have chosen output `c` (R126). SG_MARK is read on the die that chooses. -/
def markTailback (s : State) (d c : Nat) (h : Hdr) : Hdr :=
  if h.cls = 1 ∧ h.tailback = 0 ∧
      (s.fld F.SG_MARK_MARK_CELLS [d] ≤ outDepth s c 1 ∨
        (s.fld F.GK_STATUS_PRESSURE [c / 2] ≠ 0 ∧ s.fld F.SG_MARK_MARK_PRESSURE [d] = 1))
  then { h with tailback := 1 } else h

/-! ## Translation (R116) -/

/-- Steps 1 to 4 for a packet whose first NI this is: `okSrc` judges the block of SRC_RANK. Nothing on a MALFORMED
refusal. -/
def translate (s : State) (d : Nat) (okSrc : RankBlock → Bool) (h : Hdr) : Option Hdr :=
  match s.slotOf h.field with
  | none => none
  | some slot =>
    let v := s.fld F.SG_CTRL_CURRENT
    if !okSrc (s.rankBlock v d slot h.srcRank) then none
    else
      let b := s.rankBlock v d slot h.dstRank
      if b.kind = 1 ∨ b.kind = 2 then
        some { h with dstDevice := b.device, srcDevice := s.device, tr := 1, tv := v }
      else none

/-- The source block of a packet from a link: KIND partner, this device, the arriving half-port. -/
def srcFromLink (s : State) (hf : Nat) (b : RankBlock) : Bool := b.kind = 2 && b.device = s.device && b.half = hf

/-- The source block of a packet a tile originates: its own row, and its own column in the rank. -/
def srcFromTile (s : State) (d t rank : Nat) (b : RankBlock) : Bool :=
  b.kind = 1 && b.device = s.device && b.die = d && b.lrow = t / 64 && rank % 64 = t % 64

/-! ## Where a local packet ends -/

/-- The output on the destination die (R142): 3 for a Sheaf packet its engine slice takes (R266), 4 for WINNOW_IN and
GLEAN_QUERY (R298), 2 for the tile NI. -/
def localOut (p : Packet) : Nat :=
  match p.h.typ with
  | 0x82 => 3
  | 0x83 => if p.offset = 0xFFFFFFFFFF then 3 else 2
  | 0x07 => if p.pay 0 1 = 2 ∧ p.pay 16 4 ≠ noRef then 2 else 3
  | 0x06 => if p.pay 0 1 = 3 then 2 else 3
  | 0x84 => 4
  | 0x86 => 4
  | _ => 2

/-- The class queue of a packet: 0 scheduled, 1 control, 2 data. -/
def queueOf (cls : Nat) : Nat := if cls ≥ 2 then 0 else cls + 1

/-- The packet was produced by a Sheaf slice, or by a Winnower or Gleaner slice, of this device. -/
def Input.isSheaf : Input → Bool
  | .sheaf _ => true
  | _ => false

def Input.isEngine : Input → Bool
  | .engine _ => true
  | _ => false

/-- The owner charged with a packet's cells (R156): `here` when the packet ends on this device. -/
def ownerOf (s : State) (d : Nat) (p : Packet) (here : Bool) (input : Input) : Nat :=
  let slot := (s.slotOf p.h.field).getD 0
  if p.h.cls ≥ 2 then 0
  else if p.h.cls = 0 then 1
  else if p.h.typ = 0x8F then 3
  else if p.h.typ = 0x82 ∧ (here ∨ input.isSheaf) then 16 + slot
  else if p.h.typ = 0x83 ∧ input.isSheaf then 16 + slot
  else if (p.h.typ = 0x84 ∨ p.h.typ = 0x86 ∨ p.h.typ = 0x88) ∧ here then 32 + slot
  else if (p.h.typ = 0x85 ∨ p.h.typ = 0x87) ∧ input.isEngine then 32 + slot
  else s.fmap d p.h.field

/-! ## Ageing and gates -/

/-- The age limit in force, in nanoseconds. -/
def State.ageLimitNs (s : State) : Nat := s.fld F.NI_AGE_LIMIT_US * 1000

/-- A packet's age exceeds the limit (R130). -/
def State.aged (s : State) (h : Hdr) : Bool := decide ((s.ageLimitNs : Int) < ageNs s.now h.depart)

/-- A packet's header time lies more than 4 ns ahead (R45). -/
def State.ahead (s : State) (h : Hdr) : Bool := decide (ageNs s.now h.depart < -4)

/-- The largest age limit, in µs, in force at any time since `t` (R120, R132). -/
def State.maxAgeSince (s : State) (t : Nat) : Nat :=
  let later := s.ni.ageHist.filter (fun e => decide (t < e.1))
  let before := s.ni.ageHist.filter (fun e => decide (e.1 ≤ t))
  ((later.map (·.2)).foldl max ((before.getLast?.map (·.2)).getD 0))

/-- The gate of a domain is closed (R137). -/
def State.closed (s : State) (x : Domain) : Bool := s.ni.closed.any (fun e => e.1 = x)

/-- Close a domain's Hedge gate; its drain ends L later (R137). -/
def closeGate (x : Domain) (s : State) : State :=
  { s with ni := { s.ni with closed := s.ni.closed.filter (fun e => e.1 ≠ x) ++ [(x, s.now + usUnits (s.fld F.NI_AGE_LIMIT_US))], drained := s.ni.drained.filter (· ≠ x) } }

def openGate (x : Domain) (s : State) : State :=
  { s with ni := { s.ni with closed := s.ni.closed.filter (fun e => e.1 ≠ x), drained := s.ni.drained.filter (· ≠ x) } }

/-- The Field is fenced on this device (R403), or is fail-silent (R408). -/
def State.fieldFenced (s : State) (f : Nat) : Bool :=
  match s.slotOf f with
  | some n => s.fld F.SM_FIELD_STATE_FENCED [n] = 1 || s.fld F.DV_FIELD_SLOT_STATE [n] = 3
  | none => false

def State.fieldSilent (s : State) (f : Nat) : Bool :=
  match s.slotOf f with
  | some n => s.fld F.SM_FIELD_STATE_SILENT [n] = 1
  | none => false

/-- The gate of the domain of a local tile is open: its die's, its Field's and its own (check 11, R137, R405). -/
def State.gateClosedFor (s : State) (d t f : Nat) : Bool :=
  s.dieFenced d || s.closed (.die d) || s.closed (.tile d t) ||
  s.fld F.SM_DIE_STATE_POWERED [d] = 0 ||
  (match s.slotOf f with
    | some n => s.closed (.field n)
    | none => false)

/-- Row ownership as each checker holds it: the Field slot, if any (R34, R118). -/
def State.rowOwner1 (s : State) (d r : Nat) : Option Nat :=
  match tabGet 0 s.ni.own1 [d, r] with
  | 0 => none
  | n + 1 => some n

def State.rowOwner2 (s : State) (d r : Nat) : Option Nat :=
  match tabGet 0 s.ni.own2 [d, r] with
  | 0 => none
  | n + 1 => some n

/-- The second Hedge check at a tile NI: the row belongs to the Field (R118, R128). -/
def State.ownsTile2 (s : State) (d t f : Nat) : Bool :=
  match s.rowOwner2 d (t / 64) with
  | some n => s.slotOf f = some n
  | none => false

/-- The first checker's ownership test, for traffic a tile originates (R35). -/
def State.ownsTile1 (s : State) (d t f : Nat) : Bool :=
  match s.rowOwner1 d (t / 64) with
  | some n => s.slotOf f = some n
  | none => false

/-- The slot of the Field that holds a tile's row. -/
def State.tileSlot (s : State) (d t : Nat) : Option Nat := s.rowOwner1 d (t / 64)

/-- The Field number that holds a tile's row. -/
def State.tileField (s : State) (d t : Nat) : Option Nat :=
  (s.tileSlot d t).map (fun n => s.fld F.DV_FIELD_SLOT_FIELD_ID [n])

end Sys2Proof.Machine
end

