-- ==== Sys2Proof/Machine/RoadOps.lean ====
section
/-! DEFINITION. The Road Book: the bank format and the seal checks (R170 to R176), step boundaries, live records, the
floor in force, what happens to a scheduled arrival (R177), and the operations that bank commands share. -/

namespace Sys2Proof.Machine

/-! ## The bank format (R172, R174) -/

/-- The big-endian number in bytes `i` to `i + n - 1`. -/
def byteNat (l : List Byte) (i n : Nat) : Nat := beNat ((l.drop i).take n)

/-- A slot record (*Slot record*): `inKind`, `outKind` are 0 link, 1 tile NIs, 2 Sheaf slice, 3 Winnower and Gleaner. -/
structure RbRecord where
  index : Nat
  cls : Nat
  expect : Bool
  inKind : Nat
  inUnit : Nat
  outKind : Nat
  outUnit : Nat
  field : Nat
  units : Nat
  pkts : Nat
  arr : Nat
  dep : Nat
  lenCode : Nat
  base : Nat
  cells : Nat
  deriving DecidableEq, Repr

abbrev RbRecord.len (r : RbRecord) : Nat := 16 * (r.lenCode + 1)

/-- Cells of one packet of the train. -/
abbrev RbRecord.perPkt (r : RbRecord) : Nat := (r.units + 3) / 4

/-- The die whose slice is the output's (R142). -/
def RbRecord.outDie (r : RbRecord) : Nat := if r.outKind = 0 then r.outUnit / 2 else r.outUnit

/-- The output of R142. -/
def RbRecord.output (r : RbRecord) : Nat := if r.outKind = 0 then r.outUnit % 2 else r.outKind + 1

def RbRecord.inDie (r : RbRecord) : Nat := if r.inKind = 0 then r.inUnit / 2 else r.inUnit

def recordOf (l : List Byte) : RbRecord :=
  { index := byteNat l 0 2 % 16384, cls := byteNat l 2 1 % 2, expect := (byteNat l 2 1).testBit 1,
    inKind := byteNat l 3 1 / 64, inUnit := byteNat l 3 1 % 64, outKind := byteNat l 4 1 / 64,
    outUnit := byteNat l 4 1 % 64, field := byteNat l 5 2 / 16, units := byteNat l 7 1, pkts := byteNat l 8 2,
    arr := byteNat l 10 3, dep := byteNat l 13 3, lenCode := byteNat l 16 2 % 4096, base := byteNat l 18 2 % 32768,
    cells := byteNat l 20 2 % 32768 }

/-- The bits of a record that must be zero. -/
def recordZero (l : List Byte) : Bool :=
  decide (byteNat l 0 2 < 16384 ∧ byteNat l 2 1 < 4 ∧ byteNat l 5 2 % 16 = 0 ∧ byteNat l 16 2 < 4096 ∧
    byteNat l 18 2 < 32768 ∧ byteNat l 20 2 < 32768) && allZero ((l.drop 22).take 10)

/-- A bank header (*Bank header*). -/
structure RbHeader where
  floorDeclared : Bool
  period : Nat
  count : Nat
  id : Nat
  vmin : Nat
  tj : Nat
  margin : Nat
  pace : Nat
  guardNs : Nat
  sched : List Nat
  circuits : List (Nat × Nat)
  deriving DecidableEq, Repr

def headerOf (l : List Byte) : RbHeader :=
  { floorDeclared := (byteNat l 3 1).testBit 0, period := byteNat l 4 4, count := byteNat l 8 2, id := byteNat l 10 2,
    vmin := byteNat l 12 2, tj := byteNat l 14 1, margin := byteNat l 15 1, pace := byteNat l 16 2,
    guardNs := byteNat l 18 1, sched := (List.range 8).map (fun d => byteNat l (32 + 2 * d) 2),
    circuits := (List.range 4).map (fun i => (byteNat l (48 + 8 * i) 4, byteNat l (52 + 8 * i) 2)) }

/-- MAGIC, VERSION and the zero bytes of the header, the floor's bytes included when no floor is declared (R173). -/
def headerZero (l : List Byte) : Bool :=
  decide (byteNat l 0 2 = 0x5942 ∧ byteNat l 2 1 = 1 ∧ byteNat l 3 1 < 2) && allZero ((l.drop 19).take 13) &&
  ((byteNat l 3 1).testBit 0 || allZero ((l.drop 12).take 6)) &&
  (List.range 4).all (fun i => byteNat l (54 + 8 * i) 2 = 0)

/-- A floor: VCORE_MIN_MV, TJ_MAX, MARGIN_PCT, PACE_FLOOR. -/
structure RbFloor where
  vmin : Nat := 700
  tj : Nat := 95
  margin : Nat := 20
  pace : Nat := 500
  deriving DecidableEq, Repr

/-- P_plan of R173. -/
def RbFloor.plan (f : RbFloor) : Nat := f.pace * (100 - f.margin) / 100

/-- T_PROC of R173. -/
def RbFloor.tproc (f : RbFloor) : Nat := 102 + (46800 + f.plan - 1) / f.plan

def RbHeader.floor (h : RbHeader) : RbFloor := if h.floorDeclared then ⟨h.vmin, h.tj, h.margin, h.pace⟩ else {}

/-- The records of a bank of `n` records, from byte `i`. -/
def recordBytes (l : List Byte) (n : Nat) : List (List Byte) :=
  (List.range n).map (fun i => (l.drop (80 + 32 * i)).take 32)

structure Bank where
  hdr : RbHeader
  recs : List RbRecord
  deriving DecidableEq, Repr

def bankOf (l : List Byte) : Bank := ⟨headerOf l, (recordBytes l (headerOf l).count).map recordOf⟩

/-! ## Timing of a train (R175), in hundredths of a nanosecond -/

/-- Units from the start of the train to the start of packet `k`. -/
def trainStart (r : RbRecord) (k : Nat) : Nat := if r.cls = 1 then k * r.units else k + k / 3

/-- Units that must have arrived before packet `k` can become eligible. -/
def trainDone (r : RbRecord) (k : Nat) : Nat :=
  if r.cls = 1 then (k + 1) * r.units else 4 * (k / 3) + min 3 (r.pkts - 3 * (k / 3)) + 1

/-- The unit time of an endpoint: 8 (0.08 ns) for a whole port or a local endpoint, 16 for a half-port. -/
def unitTime (s : State) (kind unit : Nat) : Nat := if kind = 0 ∧ !s.isWhole unit then 16 else 8

def trainFits (s : State) (r : RbRecord) : Bool :=
  let total := trainDone r (r.pkts - 1)
  decide (total * unitTime s r.inKind r.inUnit ≤ 100 * r.len ∧ total * unitTime s r.outKind r.outUnit ≤ 100 * r.len)

def lagHolds (s : State) (g tproc : Nat) (r : RbRecord) : Bool :=
  let ti := unitTime s r.inKind r.inUnit
  let tx := unitTime s r.outKind r.outUnit
  (List.range r.pkts).all (fun k =>
    decide (100 * (r.arr + g + tproc) + trainDone r k * ti ≤ 100 * r.dep + trainStart r k * tx))

/-! ## Seal checks (R176) -/

/-- Two half-open windows share an instant. -/
def overlap (a b c d : Nat) : Bool := decide (a < d ∧ c < b)

/-- The first record that fails a check. -/
def firstBad (l : List RbRecord) (ok : RbRecord → Bool) : Option (Nat × Nat) :=
  (l.find? (fun r => !ok r)).map (fun r => (r.index, 0))

/-- The first two records in conflict. -/
def firstPair (bad : RbRecord → RbRecord → Bool) : List RbRecord → Option (Nat × Nat)
  | [] => none
  | r :: t =>
    match t.find? (bad r) with
    | some q => some (r.index, q.index)
    | none => firstPair bad t

/-- Check 0x06 for one end of a record. -/
def endpointExists (s : State) (kind unit : Nat) : Bool :=
  if kind = 0 then s.halfExists unit && s.fld F.PH_PORT_CFG_ENABLE [unit / 2] = 1 && !s.isEth unit
  else decide (unit < 8)

/-- Check 0x04: SCHED_CELLS with the current minimums meets R160, on every die. -/
def schedFits (s : State) (sched : List Nat) : Bool :=
  dies.all (fun d => decide (sched.getD d 0 + ((List.range 255).map (fun i => s.minCells d (i + 1))).sum ≤ 22528))

/-- Check 0x0E: the local-input slots whose arrival windows hold record `r`'s arrival start keep to one write on its crossing
direction and four in its slice. Otherwise, another record of those. -/
def localConflict (l : List RbRecord) (r : RbRecord) : Option (Nat × Nat) :=
  let now := l.filter (fun q => q.inKind ≠ 0 && q.outDie = r.outDie && decide (q.arr ≤ r.arr ∧ r.arr < q.arr + q.len))
  let same := now.filter (fun q => q.inDie = r.inDie)
  let other (m : List RbRecord) : Option (Nat × Nat) := some (r.index, ((m.find? (fun q => q.index ≠ r.index)).map (·.index)).getD 0)
  if r.inKind = 0 then none
  else if r.inDie ≠ r.outDie ∧ 1 < same.length then other same
  else if 4 < now.length then other now
  else none

/-- A window meets a circuit entry's 25 µs, taken modulo the period (check 0x0F). -/
def meetsCircuit (period off a b : Nat) : Bool :=
  let o := off % period
  decide (25000 ≥ period) || overlap a b o (o + 25000) || overlap (a + period) (b + period) o (o + 25000)

def circuitClear (h : RbHeader) (r : RbRecord) : Bool :=
  h.circuits.all (fun c =>
    !((r.inKind = 0 && c.2.testBit r.inUnit && meetsCircuit h.period c.1 r.arr (r.arr + r.len)) ||
      (r.outKind = 0 && c.2.testBit r.outUnit && meetsCircuit h.period c.1 r.dep (r.dep + r.len))))

/-- *Seal checks* in table order: the code of the first that fails, with the records concerned. -/
def sealCheckBank (s : State) (l : List Byte) : Option (Nat × Nat × Nat) :=
  let h := headerOf l
  let b := bankOf l
  let raw := recordBytes l h.count
  let f := h.floor
  let one (code : Nat) (x : Option (Nat × Nat)) : Option (Nat × Nat × Nat) := x.map (fun p => (code, p.1, p.2))
  let all (code : Nat) (ok : Bool) : Option (Nat × Nat × Nat) := if ok then none else some (code, 0, 0)
  let ascending := ((b.recs.map (·.index)).zip ((b.recs.map (·.index)).drop 1)).find? (fun p => decide (p.2 ≤ p.1))
  (all 0x01 (headerZero l && decide (l.length = 80 + 32 * h.count)))
  <|> one 0x01 ((raw.find? (fun x => !recordZero x)).map (fun x => ((recordOf x).index, 0)))
  <|> one 0x01 (ascending.map (fun p => (p.2, 0)))
  <|> all 0x02 (decide (h.period % 16 = 0 ∧ 1024 ≤ h.period ∧ h.period ≤ 10000000 ∧ h.count ≤ 16384))
  <|> all 0x03 (decide (650 ≤ f.vmin ∧ f.vmin ≤ 850 ∧ 50 ≤ f.tj ∧ f.tj ≤ 95 ∧ f.margin ≤ 50 ∧ 300 ≤ f.pace ∧
        f.pace ≤ 780 ∧ 2 ≤ h.guardNs ∧ h.guardNs ≤ 64 ∧ 180 ≤ f.plan))
  <|> all 0x04 (h.sched.all (fun n => decide (n ≤ 22528)) && schedFits s h.sched)
  <|> one 0x05 (firstBad b.recs (fun r => (if r.cls = 0 then r.units = 1 else decide (6 ≤ r.units ∧ r.units ≤ 130)) &&
        decide (3 ≤ r.lenCode ∧ 1 ≤ r.pkts)))
  <|> one 0x06 (firstBad b.recs (fun r => endpointExists s r.inKind r.inUnit && endpointExists s r.outKind r.outUnit))
  <|> one 0x07 (firstBad b.recs (fun r => decide (r.arr % 16 = 0 ∧ r.dep % 16 = 0 ∧ r.arr + r.len ≤ h.period ∧
        r.dep + r.len ≤ h.period)))
  <|> one 0x08 (firstBad b.recs (trainFits s))
  <|> one 0x09 (firstBad b.recs (lagHolds s h.guardNs f.tproc))
  <|> one 0x0A (firstBad b.recs (fun r => decide (r.pkts * r.perPkt ≤ r.cells ∧
        24576 - h.sched.getD r.outDie 0 ≤ r.base ∧ r.base + r.cells ≤ 24576)))
  <|> one 0x0B (firstPair (fun r q => r.inKind = q.inKind && r.inUnit = q.inUnit &&
        overlap r.arr (r.arr + r.len) q.arr (q.arr + q.len)) b.recs)
  <|> one 0x0C (firstPair (fun r q => r.outKind = q.outKind && r.outUnit = q.outUnit &&
        overlap r.dep (r.dep + r.len) q.dep (q.dep + q.len)) b.recs)
  <|> one 0x0D (firstPair (fun r q => r.outDie = q.outDie && overlap r.base (r.base + r.cells) q.base (q.base + q.cells) &&
        overlap r.arr (r.dep + r.len) q.arr (q.dep + q.len)) b.recs)
  <|> one 0x0E (b.recs.findSome? (localConflict b.recs))
  <|> one 0x0F (firstBad b.recs (circuitClear h))

/-! ## Banks and steps -/

/-- The bytes of bank 0 (A) or 1 (B). -/
def State.bankBytes (s : State) (b : Nat) : List Byte := if b = 0 then s.road.bankA else s.road.bankB

def State.setBankBytes (s : State) (b : Nat) (l : List Byte) : State :=
  if b = 0 then { s with road := { s.road with bankA := l } } else { s with road := { s.road with bankB := l } }

/-- STATE of a bank: 0 EMPTY, 1 LOADING, 2 SEALING, 3 SEALED, 4 ACTIVE. -/
def State.bankState (s : State) (b : Nat) : Nat :=
  if b = 0 then s.fld F.RB_BANKS_STATE_A else s.fld F.RB_BANKS_STATE_B

def State.setBankState (s : State) (b st : Nat) : State :=
  if b = 0 then s.setFld F.RB_BANKS_STATE_A st else s.setFld F.RB_BANKS_STATE_B st

/-- The active bank's number, if any. -/
def State.activeBankNo (s : State) : Option Nat :=
  if s.fld F.RB_BANKS_ANY_ACTIVE = 1 then some (s.fld F.RB_BANKS_ACTIVE_BANK) else none

def State.activeBank (s : State) : Option Bank := s.activeBankNo.map (fun b => bankOf (s.bankBytes b))

/-- The bank a pending swap will activate: the other bank, or the sealed one while none is active (R185). -/
def State.swapBank (s : State) : Nat :=
  match s.activeBankNo with
  | some b => 1 - b
  | none => if s.bankState 0 = 3 then 0 else 1

/-- The period in sixteenths of a nanosecond. -/
def State.periodUnits (s : State) : Nat := nsUnits (s.fld F.RB_PERIOD_PERIOD_NS)

/-- A count is a step boundary of the active bank (R170). -/
def State.isBoundary (s : State) (m : Nat) : Bool :=
  decide (s.fld F.RB_EPOCH_COUNT ≤ m) && (m - s.fld F.RB_EPOCH_COUNT) % s.periodUnits = 0

/-- The first step boundary of the active bank at or after `t`. -/
def State.nextBoundary (s : State) (t : Nat) : Nat :=
  let e := s.fld F.RB_EPOCH_COUNT
  let p := s.periodUnits
  if t ≤ e then e else e + (t - e + p - 1) / p * p

/-- A count at which a launch tied to steps may be set: a step boundary of the active bank, or any while none is. -/
def State.boundaryOk (s : State) (m : Nat) : Bool := s.activeBankNo.isNone || s.isBoundary m

/-- A record is live: it belongs to the active bank and its Field is neither suspended nor evicted here (R183, R193). -/
def State.recLive (s : State) (r : RbRecord) : Bool := r.field ∉ s.road.suspended && r.field ∉ s.road.evicted

/-- The records of the active bank, and the live ones. -/
def State.records (s : State) : List RbRecord := (s.activeBank.map (fun b => b.recs)).getD []
def State.liveRecords (s : State) : List RbRecord := s.records.filter s.recLive

/-- The record of a slot index. -/
def State.record (s : State) (i : Nat) : Option RbRecord := s.records.find? (fun r => r.index = i)

def State.guardNs (s : State) : Nat := (s.activeBank.map (fun b => b.hdr.guardNs)).getD 0

/-- The record touches the die: its IN or OUT lies there. -/
def RbRecord.touches (r : RbRecord) (d : Nat) : Bool := r.inDie = d || r.outDie = d

/-- PW_DIE_STATE.SCHED_LIVE (R187). -/
def State.schedLive (s : State) (d : Nat) : Bool := s.liveRecords.any (fun r => r.touches d)

/-- The higher of two floors, field by field: the more demanding value of each (R187). -/
def higherFloor (a b : RbFloor) : RbFloor := ⟨max a.vmin b.vmin, min a.tj b.tj, max a.margin b.margin, max a.pace b.pace⟩

/-- The floor in force (R187) and its planning pace. -/
def State.floorInForce (s : State) : RbFloor :=
  let cur : RbFloor := (s.activeBank.map (fun b => b.hdr.floor)).getD {}
  if s.fld F.RB_BANKS_PENDING = 1 then higherFloor cur (headerOf (s.bankBytes s.swapBank)).floor else cur

/-- P_plan (R173). -/
def State.planInForce (s : State) : Nat := s.floorInForce.plan

/-- PW_DIE_STATE.AT_FLOOR: VCORE and Tj lie within the floor in force (R42). -/
def State.atFloor (s : State) (d : Nat) : Bool :=
  let f := s.floorInForce
  decide (f.vmin ≤ s.fld F.PW_DIE_STATE_VCORE_MV [d]) && decide (toSigned 12 (s.fld F.PW_DIE_STATE_TJ [d]) ≤ 8 * (f.tj : Int))

/-! ## The step an instant belongs to -/

/-- The step whose window that opens at offset `off` (sixteenths, may be negative) holds instant `t` or comes last before
it, and how far past that opening `t` lies. -/
def State.stepOf (s : State) (t : Nat) (off : Int) : Option (Nat × Nat) :=
  let x : Int := (t : Int) - s.fld F.RB_EPOCH_COUNT - off
  if x < 0 ∨ s.periodUnits = 0 then none else some ((x / s.periodUnits).toNat, (x % s.periodUnits).toNat)

/-- A slot's record of step `k`; the records of two consecutive steps are kept. -/
def State.runOf (s : State) (i k : Nat) : SlotRun :=
  let r := tabGet {} s.road.runs [i, k % 2]
  if r.step = k then r else { step := k }

def State.setRun (s : State) (i : Nat) (r : SlotRun) : State :=
  { s with road := { s.road with runs := tabSet {} s.road.runs [i, r.step % 2] r } }

/-! ## Scheduled arrivals (R177) -/

/-- The step in whose arrival window, widened by `g` ns at each end, instant `t` lies. -/
def arrivalStep (s : State) (r : RbRecord) (t g : Nat) : Option Nat :=
  match s.stepOf t ((16 * r.arr : Nat) - (16 * g : Nat)) with
  | some (k, x) => if x < 16 * (r.len + 2 * g) then some k else none
  | none => none

/-- The record a scheduled control packet from a link or tile is matched to. -/
def controlRecord (s : State) (kind unit t : Nat) : Option RbRecord :=
  let here := s.records.filter (fun r => r.inKind = kind && r.inUnit = unit)
  match here.find? (fun r => (arrivalStep s r t 0).isSome) with
  | some r => some r
  | none =>
    let wide := here.filter (fun r => (arrivalStep s r t s.guardNs).isSome)
    let opens (r : RbRecord) : Nat := (arrivalStep s r t s.guardNs).getD 0 * s.periodUnits + 16 * r.arr
    wide.foldl (fun best r => match best with
      | none => some r
      | some b => if opens r < opens b then some r else some b) none

/-- What becomes of a scheduled packet from input (`kind`, `unit`) (*Scheduled arrival outcomes*): the record, step and
position it takes, or the NAK code: 5 LATE_SLOT, 4 MALFORMED. -/
def schedArrival (s : State) (kind unit : Nat) (p : Packet) : Except Nat (RbRecord × Nat × Nat) :=
  let t := s.now
  let r? := if p.isControl then controlRecord s kind unit t else s.record p.rbSlot
  match r? with
  | none => .error 5
  | some r =>
    if !(r.inKind = kind && r.inUnit = unit) || !s.recLive r then .error 5
    else
      match s.stepOf t ((16 * r.arr : Nat) - (16 * s.guardNs : Nat)) with
      | none => .error 5
      | some (k, x) =>
        let lastUnit := 100 * x + (p.unitCount - 1) * unitTime s kind unit * 16
        if 1600 * (r.len + 2 * s.guardNs) ≤ lastUnit then .error 5
        else
          let run := s.runOf r.index k
          if r.pkts ≤ run.accepted then .error 5
          else if p.h.cls % 2 ≠ r.cls ∨ p.h.field ≠ r.field ∨ p.unitCount ≠ r.units then .error 4
          else .ok (r, k, run.accepted)

/-- Position of a stored scheduled packet in its train. -/
def trainPos (r : RbRecord) (k : Pkt) : Nat := (k.cells.headD 0 - r.base) / r.perPkt

/-! ## Departure windows (R183) -/

/-- A live departure window of the output holds the present instant. -/
def inDepartureWindow (s : State) (d out : Nat) : Bool :=
  s.liveRecords.any (fun r => r.outDie = d && r.output = out &&
    match s.stepOf s.now (16 * r.dep : Nat) with
    | some (_, x) => decide (x < 16 * r.len)
    | none => false)

/-- The start of the next live departure window on an output. -/
def nextDeparture (s : State) (d out : Nat) : Option Nat :=
  let starts := (s.liveRecords.filter (fun r => r.outDie = d && r.output = out)).map (fun r =>
    match s.stepOf s.now (16 * r.dep : Nat) with
    | some (k, x) =>
      let at_ := s.fld F.RB_EPOCH_COUNT + k * s.periodUnits + 16 * r.dep
      if x = 0 then at_ else at_ + s.periodUnits
    | none => s.fld F.RB_EPOCH_COUNT + 16 * r.dep)
  match starts with
  | [] => none
  | a :: t => some (t.foldl min a)

/-! ## Reports -/

/-- DETAIL of a ROAD_BOOK event: the slot index, the packets missing, RB_ALARM. -/
def roadDetail (s : State) (d i missing : Nat) : List Byte :=
  beBytes 2 i ++ beBytes 2 missing ++ beBytes 8 (s.fld F.RB_ALARM_FLOOR_ALARM [d] + 2 * s.fld F.RB_ALARM_PACE_LOW [d]
    + 4 * s.fld F.RB_ALARM_PACE_ALARM [d] + 8 * s.fld F.RB_ALARM_TIME_STOP [d]
    + 16 * s.fld F.RB_ALARM_SUSPEND_PENDING [d] + 2 ^ 16 * s.fld F.RB_ALARM_LEAD_US [d])

/-- A late-slot fault, which is consequential (R180, R400): logged and reported. -/
def lateSlotFault (d i missing field code : Nat) (s : State) : State :=
  let s := s.log 0x05 code d (roadDetail s d i missing) field 8
  s.report ⟨0, true, [7, d], d, d, field, none, false, 0, code, false, []⟩

/-- A scheduled packet of a step that cannot finish in its window: discarded and counted; it is reported when the window closes (R179,
R180). -/
def lateDiscard (r : RbRecord) (step pid : Nat) (s : State) : State :=
  let s := freePkt pid 7 (s.bump F.RB_LATE_LATE_DISCARD [r.outDie])
  s.setRun r.index { s.runOf r.index step with late := (s.runOf r.index step).late + 1 }

/-! ## Alarms and suspension (R188 to R191) -/

/-- The first step boundary at or after `t`: a swap that is pending, and that time does not hold, ends the active bank's steps at its count
(R170, R185). -/
def suspendBoundary (s : State) (t : Nat) : Nat :=
  let p := nsUnits (headerOf (s.bankBytes s.swapBank)).period
  match s.gateAt .rbSwap with
  | some m => if s.timeValid ∧ m < t then m + (t - m + p - 1) / p * p else s.nextBoundary t
  | none => s.nextBoundary t

/-- RB_SUSPEND_AT shows when the earliest suspension pending on each die takes effect. -/
def showSuspends (s : State) : State :=
  s.forAll dies (fun d s =>
    match tabGet [] s.road.suspends [d] with
    | [] => s
    | e :: _ => s.setFld F.RB_SUSPEND_AT_COUNT (suspendBoundary s e.2) [d])

/-- An alarm of die `d` with cause 1 floor, 2 pace or 3 time: its suspension waits for the first step boundary at least
1 µs later, while a bank is active. -/
def raiseAlarm (d cause : Nat) (s : State) : State :=
  if s.activeBankNo.isNone then s
  else
    let q := tabGet [] s.road.suspends [d]
    let s := { s with road := { s.road with suspends := tabSet [] s.road.suspends [d] (q ++ [(cause, s.now + usUnits 1)]) } }
    showSuspends (s.setFld F.RB_ALARM_SUSPEND_PENDING 1 [d])

/-- Time has become invalid: every die sets TIME_STOP and alarms (R190), unless an earlier loss still awaits its suspension there. -/
def timeStop (s : State) : State :=
  s.forAll dies (fun d s =>
    if (tabGet [] s.road.suspends [d]).any (fun e => e.1 = 3) then s
    else
      let s := s.setFld F.RB_ALARM_TIME_STOP 1 [d]
      raiseAlarm d 3 (s.log 0x05 0x06 d (roadDetail s d 0 0)))

/-- One Field is suspended with a cause seen on die `d`; a later cause is logged. -/
def suspendField (d cause f : Nat) (s : State) : State :=
  if f ∈ s.road.suspended then s.log 0x05 0x08 d (roadDetail s d 0 0) f
  else
    let s := { s with road := { s.road with suspended := s.road.suspended ++ [f] } }
    let s := match s.slotOf f with
      | some n => (s.setBit F.RB_SUSPEND_SUSPENDED n true).setFld F.RB_SUSPEND_REASON
          (s.fld F.RB_SUSPEND_REASON ||| (cause * 4 ^ n))
      | none => s
    s.log 0x05 0x07 d (roadDetail s d 0 0) f

/-- The Fields of live records, each once, that an alarm suspends. -/
def alarmFields (s : State) (d cause : Nat) : List Nat :=
  ((s.records.filter (fun r => r.field ∉ s.road.evicted && (cause = 3 || r.touches d))).map (·.field)).dedup

/-- A Field is no longer suspended. -/
def unsuspend (f : Nat) (s : State) : State :=
  let s := { s with road := { s.road with suspended := s.road.suspended.filter (· ≠ f) } }
  match s.slotOf f with
  | some n =>
    let s := s.setBit F.RB_SUSPEND_SUSPENDED n false
    let r := s.fld F.RB_SUSPEND_REASON
    s.setFld F.RB_SUSPEND_REASON (r - r / 4 ^ n % 4 * 4 ^ n)
  | none => s

/-- A die on which no suspended Field has records clears its alarm bits (R192). -/
def clearAlarms (s : State) : State :=
  s.forAll dies (fun d s =>
    if s.records.any (fun r => r.touches d && r.field ∈ s.road.suspended) || s.fld F.RB_ALARM_SUSPEND_PENDING [d] = 1 then s
    else ((((s.setFld F.RB_ALARM_FLOOR_ALARM 0 [d]).setFld F.RB_ALARM_PACE_LOW 0 [d]).setFld F.RB_ALARM_PACE_ALARM 0 [d]).setFld
      F.RB_ALARM_TIME_STOP 0 [d]))

/-! ## Swaps (R185) -/

/-- SCHED_CELLS of a die in the bank that is SEALED, 0 for none; with both banks SEALED, which can be only while none is active, the larger
(DESIGN CHOICE, log 176). -/
def sealedSched (s : State) (d : Nat) : Nat :=
  let of (b : Nat) : Nat := if s.bankState b = 3 then (headerOf (s.bankBytes b)).sched.getD d 0 else 0
  max (of 0) (of 1)

/-- The Keeper cedes the cells that a SEALED bank will take (R166, R184). -/
def setPendingSched (s : State) : State :=
  s.forAll dies (fun d s => updateCede d (s.setFld F.GK_REGIONS_PENDING_SCHED (sealedSched s d) [d]))

/-- The sealed bank becomes ACTIVE with its epoch at `m`. -/
def activateBank (m : Nat) (s : State) : State :=
  let b := s.swapBank
  let h := headerOf (s.bankBytes b)
  let s := match s.activeBankNo with
    | some o => (s.setBankState o 0).setBankBytes o []
    | none => s
  let s := ((s.setBankState b 4).setFld F.RB_BANKS_ACTIVE_BANK b).setFld F.RB_BANKS_ANY_ACTIVE 1
  let s := ((s.setFld F.RB_BANKS_BANK_ID h.id).setFld F.RB_EPOCH_COUNT m).setFld F.RB_PERIOD_PERIOD_NS h.period
  let s := s.setFld F.RB_PERIOD_SLOTS h.count
  let s := { s with road := { s.road with runs := [], evicted := [] } }
  let s := s.forAll dies (fun d s =>
    let n := h.sched.getD d 0
    (s.setFld F.GK_REGIONS_SCHED_CELLS n [d]).setFld F.GK_REGIONS_MANAGED_CELLS (24576 - n) [d])
  clearAlarms (showSuspends ((setPendingSched s).forAll dies updatePressure))

/-- The swap armed at gate rbSwap, when its count has come and time is valid (R185). -/
def swapNow (s : State) : State :=
  match s.gateAt .rbSwap with
  | some m =>
    if s.timeValid && decide (m ≤ s.now) then
      let s := (s.dropGate .rbSwap).setFld F.RB_BANKS_PENDING 0
      if dies.any (fun d => s.fld F.GK_REGIONS_CEDE_PENDING [d] = 1) then
        (s.setFld F.RB_BANKS_SWAP_FAILED 1).log 0x05 0x03 8 (roadDetail s 0 0 0)
      else activateBank m s
    else s
  | none => s

/-- Time is valid again: a swap whose count has passed waits for the next step boundary of the active bank (R185). -/
def rearmSwap (s : State) : State :=
  match s.gateAt .rbSwap with
  | some m => if m < s.now ∧ s.activeBankNo.isSome then s.armGate .rbSwap (s.nextBoundary s.now) else s
  | none => s

/-- The pending suspensions of die `d` whose boundary has come take effect; a swap due at the boundary goes first
(R191, R193). -/
def suspendNow (d : Nat) (s : State) : State :=
  let s := swapNow s
  let q := tabGet [] s.road.suspends [d]
  let due := q.filter (fun e => decide (s.nextBoundary e.2 ≤ s.now))
  let rest := q.filter (fun e => decide (s.now < s.nextBoundary e.2))
  if due = [] then s
  else
    let s := s.forAll due (fun e s => s.forAll (alarmFields s d e.1) (suspendField d e.1))
    let s := { s with road := { s.road with suspends := tabSet [] s.road.suspends [d] rest } }
    if rest = [] then s.setFld F.RB_ALARM_SUSPEND_PENDING 0 [d] else showSuspends s

/-- The Field meets the conditions of R192. -/
def mayResume (s : State) (f : Nat) : Bool :=
  s.timeValid && dies.all (fun d =>
    !(s.records.any (fun r => r.field = f && r.touches d)) ||
    (s.fld F.RB_ALARM_FLOOR_ALARM [d] = 0 && s.fld F.RB_ALARM_PACE_ALARM [d] = 0 && s.atFloor d))

/-- The suspended Fields of a mask of slots resume where they may (R192). -/
def resumeFields (mask : Nat) (s : State) : State :=
  let named (f : Nat) : Bool := match s.slotOf f with
    | some n => mask.testBit n
    | none => true
  let s := s.forAll (s.road.suspended.filter named) (fun f s =>
    if mayResume s f then (unsuspend f s).log 0x05 0x0A 8 (roadDetail s 0 0 0) f
    else s.log 0x05 0x09 8 (roadDetail s 0 0 0) f)
  clearAlarms s

/-- The resume armed at gate rbResume takes effect; a swap at the same count goes first (R193). -/
def resumeNow (s : State) : State :=
  if s.launchDue .rbResume then
    let s := swapNow (s.dropGate .rbResume)
    resumeFields s.road.resumeMask s
  else s

/-- A Field is evicted: its records cease to be live and its suspension ends (R193). -/
def roadEvict (f : Nat) (s : State) : State :=
  let s := unsuspend f s
  clearAlarms { s with road := { s.road with evicted := s.road.evicted.filter (· ≠ f) ++ [f] } }

/-! ## Bank commands (R184, R185) -/

/-- A write of RB_SEAL with OP seal: nothing when the bank is not LOADING. -/
def sealBankWrite (b : Nat) (s : State) : Option State :=
  if s.bankState b = 1 then some ((s.setBankState b 2).setFld F.RB_SEAL_BANK b) else none

/-- A write of RB_SEAL with OP discard. -/
def discardBankWrite (b : Nat) (s : State) : Option State :=
  if s.bankState b = 1 ∨ (s.bankState b = 3 ∧ ¬(s.fld F.RB_BANKS_PENDING = 1 ∧ s.swapBank = b)) then
    let was := s.bankState b
    let s := ((s.setBankState b 0).setBankBytes b []).setFld F.RB_SEAL_BANK b
    some (if was = 3 then setPendingSched s else s)
  else none

/-- The checks of a SEALING bank end: it becomes SEALED and its cells begin to be ceded, or it becomes EMPTY with
RB_LOAD_ERR set (R176, R184). -/
def sealDone (b : Nat) (s : State) : State :=
  if s.bankState b ≠ 2 then s
  else
    match sealCheckBank s (s.bankBytes b) with
    | none => setPendingSched (s.setBankState b 3)
    | some (code, i, j) =>
      let s := (s.setBankState b 0).setBankBytes b []
      (((s.setFld F.RB_LOAD_ERR_CODE code).setFld F.RB_LOAD_ERR_BANK b).setFld F.RB_LOAD_ERR_SLOT_INDEX i).setFld
        F.RB_LOAD_ERR_OTHER_INDEX j

/-- A write of RB_SWAP_AT with count `m`. The window of R68 has been checked. -/
def swapWrite (m : Nat) (s : State) : Option State :=
  if s.now + usUnits 1000 ≤ m ∧ s.bankState s.swapBank = 3 ∧ s.fld F.RB_BANKS_PENDING = 0 ∧ s.boundaryOk m then
    some (showSuspends (((s.armGate .rbSwap m).setFld F.RB_BANKS_PENDING 1).setFld F.RB_SWAP_AT_COUNT m))
  else none

/-- A write of RB_RESUME_AT with count `m`. -/
def resumeWrite (m : Nat) (s : State) : Option State :=
  if s.activeBankNo.isSome ∧ s.isBoundary m then
    let s := (s.armGate .rbResume m).setFld F.RB_RESUME_AT_COUNT m
    some { s with road := { s.road with resumeMask := s.fld F.RB_RESUME_MASK } }
  else none

/-- A complete transfer fills an EMPTY bank, which becomes LOADING (R184). -/
def bankLoad (b : Nat) (l : List Byte) (s : State) : State := (s.setBankState b 1).setBankBytes b l

end Sys2Proof.Machine
end

