-- ==== Sys2Proof/Machine/TimeOps.lean ====
section
/-! DEFINITION. The Time Keeper's shared operations: offsets and bounds (R50, R57), the states of time (R49, R51, R63),
source selection and loss (R51, R52), and the servo (R60). -/

namespace Sys2Proof.Machine

/-! ## Register words -/

/-- The 64 bits a register holds in the fields that are stored. -/
def State.rawWord (s : State) (r : Reg) (k : List Nat := []) : Nat :=
  match regTable.find? (fun x => x.reg = r) with
  | some x => (x.fields.map (fun f => s.fld f k * 2 ^ f.lo)).sum
  | none => 0

/-- DETAIL of a TIME event: TK_STATUS, then TK_REPLICA of a die. -/
def timeDetail (s : State) (d : Nat) : List Byte :=
  beBytes 8 (s.rawWord .TK_STATUS) ++ beBytes 8 (s.rawWord .TK_REPLICA [d])

def State.leadDie (s : State) : Nat := s.fld F.TK_STATUS_LEAD_DIE

/-- A TIME event of the lead. -/
def timeEvent (code : Nat) (s : State) : State := s.log 0x01 code 8 (timeDetail s s.leadDie)

/-! ## Time exchange messages (R54) -/

/-- A time exchange payload: whether it is a REPLY, its version, the FLAGS, SEQ, HOPS, BOUND_PS and the three stamps. -/
structure TimeMsg where
  reply : Bool
  version : Nat
  valid : Bool
  holdover : Bool
  srcIsYou : Bool
  calibrated : Bool
  seq : Nat
  hops : Nat
  bound : Nat
  tA : Nat
  tB : Nat
  tC : Nat
  deriving DecidableEq, Repr

/-- The 32 bytes of *Time exchange payload*. -/
def TimeMsg.bytes (m : TimeMsg) : List Byte :=
  beBytes 1 ((if m.reply then 0x20 else 0x10) + m.version)
    ++ beBytes 1 (b2n m.valid + 2 * b2n m.holdover + 4 * b2n m.srcIsYou + 8 * b2n m.calibrated)
    ++ beBytes 2 m.seq ++ beBytes 1 m.hops ++ beBytes 3 m.bound ++ beBytes 8 m.tA ++ beBytes 8 m.tB ++ beBytes 8 m.tC

/-- A received time exchange payload. -/
def timeMsgOf (p : Packet) : TimeMsg :=
  { reply := p.pay 0 1 / 16 = 2, version := p.pay 0 1 % 16, valid := (p.pay 1 1).testBit 0, holdover := (p.pay 1 1).testBit 1,
    srcIsYou := (p.pay 1 1).testBit 2, calibrated := (p.pay 1 1).testBit 3, seq := p.pay 2 2, hops := p.pay 4 1,
    bound := p.pay 5 3, tA := p.pay 8 8, tB := p.pay 16 8, tC := p.pay 24 8 }

/-- The link-local packet that carries a time exchange message (R94). -/
def timePacket (s : State) (m : TimeMsg) : Packet :=
  sealCheck { h := { typ := 0x10, tr := 0, depart := departOf s.now }, body := m.bytes }

/-- A packet that is a time exchange message of one kind, whole and well formed (R54, R94, R95). -/
def isTimeMsg (reply : Bool) (p : Packet) : Bool :=
  formatOk p && checkOk p && p.h.typ = 0x10 && (timeMsgOf p).reply = reply

/-! ## Offsets (R57) -/

/-- Half of a number, ties to even. -/
def halfEven (n : Int) : Int :=
  let h := Int.fdiv n 2
  if n % 2 = 1 ∧ h % 2 = 1 then h + 1 else h

/-- θ of the four stamps, with the path's asymmetry. -/
def offsetOf (t1 t2 t3 t4 : Nat) (asym : Int) : Int := halfEven (((t4 : Int) - t3) - ((t2 : Int) - t1) + asym)

/-- The mean path delay d. -/
def delayOf (t1 t2 t3 t4 : Nat) : Int := halfEven (((t2 : Int) - t1) + ((t4 : Int) - t3))

/-- The median of eight values as R58 takes it: half the sum of the fourth and fifth smallest. -/
def medianOf8 (l : List Int) : Int :=
  let q := l.mergeSort (fun a b => decide (a ≤ b))
  Int.fdiv (q.getD 3 0 + q.getD 4 0) 2

/-- |θ| in picoseconds: 62.5 ps a sixteenth; R50 states no rounding of the half. -/
def thetaPs (θ : Int) : Nat := θ.natAbs * 125 / 2 + (if θ.natAbs % 2 = 1 then Config.thetaHalfPs θ.natAbs % 2 else 0)

/-! ## Candidates (R52) -/

def State.srcKind (s : State) (n : Nat) : Nat := s.fld F.TK_SRC_KIND [n]
def State.srcHalf (s : State) (n : Nat) : Nat := s.fld F.TK_SRC_HALF_PORT [n]

/-- The candidates a half-port feeds with exchanges of kind 1 (link) or 2 (PTP). -/
def State.srcsOf (s : State) (kind h : Nat) : List Nat :=
  (List.range 4).filter (fun n => s.srcKind n = kind && s.srcHalf n = h)

/-- HOP_BOUND_PS of a source: 1,000 ps on a half-port that is not calibrated (R59). -/
def State.hopBound (s : State) (n : Nat) : Nat :=
  if s.srcKind n = 3 then s.fld F.TK_PPS_IN_HOP_BOUND_PS
  else if s.fld F.TK_PORT_CAL_CALIBRATED (hp (s.srcHalf n)) = 1 then s.fld F.TK_PORT_CAL_HOP_BOUND_PS (hp (s.srcHalf n))
  else 1000

/-- Nanoseconds between samples of a source (R60). -/
def State.sampleInterval (s : State) (n : Nat) : Nat :=
  if s.srcKind n = 1 then s.fld F.TK_PORT_CAL_INTERVAL_US (hp (s.srcHalf n)) * 1000
  else if s.srcKind n = 2 then 1000000000 / 2 ^ (-(toSigned 4 (s.fld F.TK_PTP_LOG_SYNC))).toNat
  else 1000000000

def State.srcRec (s : State) (n : Nat) : SourceRec := tabGet {} s.time.srcs [n]

def State.setSrc (s : State) (n : Nat) (r : SourceRec) : State :=
  { s with time := { s.time with srcs := tabSet {} s.time.srcs [n] r } }

/-- The candidate in use, if any. -/
def State.srcInUse (s : State) : Option Nat :=
  if s.fld F.TK_STATUS_SRC_KIND = 0 then none else some (s.fld F.TK_STATUS_SRC_INDEX)

/-! ## The states of time (R49) -/

def TimeMode.code : TimeMode → Nat
  | .unset => 0
  | .acquiring => 1
  | .locked => 2
  | .holdover => 3
  | .invalid => 4

def TimeMode.isValid (m : TimeMode) : Bool := m = .locked || m = .holdover

/-- Qualification starts anew for every candidate. -/
def requalify (s : State) : State := s.forAll (List.range 4) (fun n s => s.setSrc n { s.srcRec n with good := 0, qualified := false })

/-- Enter a state: STATE and VALID follow, the change is logged, and validity's loss or return acts on the Road Book
(R185, R190). Re-qualification after INVALID starts anew (R63). -/
def setMode (m : TimeMode) (s : State) : State :=
  if s.time.mode = m then s
  else
    let was := s.time.mode.isValid
    let s := { s with time := { s.time with mode := m } }
    let s := (s.setFld F.TK_STATUS_STATE m.code).setFld F.TK_STATUS_VALID (b2n m.isValid)
    let s := timeEvent 0x01 s
    let s := if m = .invalid then requalify s else s
    if was && !m.isValid then timeStop s
    else if !was && m.isValid then rearmSwap s
    else s

/-- ACQUIRING after a die or device reset (R51): every source must qualify again, and no holdover or step is in progress. -/
def reacquire (s : State) : State :=
  let s : State := { s with time := { s.time with holdAt := none, stepTheta := none } }
  setMode .acquiring (requalify (s.setFld F.TK_STATUS_STEP_WAIT 0))

def setBound (ps : Nat) (s : State) : State := s.setFld F.TK_STATUS_BOUND_PS (min ps (2 ^ 32 - 1))

/-- BOUND_PS and HOPS in LOCKED and ACQUIRING: those of the latest accepted sample of the source in use (R50). LOCKED ends where the
bound so found exceeds 2,000 ps (R51). -/
def showBound (s : State) : State :=
  match s.srcInUse with
  | some n =>
    let r := s.srcRec n
    if r.delivering ∧ (s.time.mode = .locked ∨ s.time.mode = .acquiring) then
      let b := r.bound + max (s.hopBound n) (thetaPs r.theta)
      let s := setBound b (s.setFld F.TK_STATUS_HOPS r.hops)
      if s.time.mode = .locked ∧ 2000 < b then setMode .invalid s else s
    else s
  | none => s

/-- Take a candidate as the source in use, with the bound its latest sample gives; a change from another source is counted and
logged. -/
def selectSource (n : Nat) (s : State) : State :=
  let old := s.srcInUse
  let s := showBound ((s.setFld F.TK_STATUS_SRC_KIND (s.srcKind n)).setFld F.TK_STATUS_SRC_INDEX n)
  match old with
  | none => s
  | some o => if o = n then s else timeEvent 0x08 (s.bump F.TK_EVENTS_SOURCE_SWITCHES)

/-- The counter runs at the learned frequency. -/
def freeRun (s : State) : State := { s with time := { s.time with ratePpt := s.time.freqPpt } }

/-- Enter HOLDOVER (R51, R62). -/
def enterHoldover (s : State) : State :=
  let s := { s with time := { s.time with holdB0 := s.fld F.TK_STATUS_BOUND_PS, holdAt := some s.now } }
  setMode .holdover (freeRun ((s.setFld F.TK_STATUS_SRC_KIND 0).bump F.TK_EVENTS_HOLDOVER_ENTRIES))

/-- The source in use has been lost: another takes its place, or the Time Keeper holds over or runs free (R51). -/
def sourceGone (n : Nat) (s : State) : State :=
  let others := (List.range 4).filter (fun m => m ≠ n && s.srcKind m ≠ 0)
  match others.find? (fun m => (s.srcRec m).qualified) with
  | some m => selectSource m s
  | none =>
    if s.time.mode = .locked then enterHoldover s
    else
      match others.find? (fun m => (s.srcRec m).delivering) with
      | some m => selectSource m s
      | none => freeRun (s.setFld F.TK_STATUS_SRC_KIND 0)

/-- Candidate `n` is lost (R51). -/
def loseSource (n : Nat) (s : State) : State :=
  let s := s.setSrc n { s.srcRec n with good := 0, bad := 0, qualified := false, delivering := false }
  if s.srcInUse = some n then sourceGone n s else s

/-- A sample of candidate `n` is rejected or missing: the third in a row loses the source. -/
def badSample (n : Nat) (s : State) : State :=
  let r := s.srcRec n
  if 2 ≤ r.bad then loseSource n s
  else s.setSrc n { r with good := 0, bad := r.bad + 1 }

/-- Every candidate on a half-port is lost at once: its link has gone down. -/
def loseHalf (h : Nat) (s : State) : State :=
  s.forAll (s.srcsOf 1 h ++ s.srcsOf 2 h) loseSource

/-! ## Accepted samples (R50, R51, R60, R63) -/

def clampPpt (x : Int) : Int := if 50000000 < x then 50000000 else if x < -50000000 then -50000000 else x

/-- The servo of R60, for a sample of the source in use. -/
def servo (θ : Int) (interval : Nat) (s : State) : State :=
  let p := Int.fdiv (-(θ * 7812500000)) interval
  let f := clampPpt (s.time.freqPpt + Int.fdiv p 16)
  { s with time := { s.time with freqPpt := f, ratePpt := clampPpt (f + p) } }

/-- LOCKED is entered when the selected source qualifies and the bound is within 2,000 ps. -/
def tryLock (n : Nat) (s : State) : State :=
  if (s.srcRec n).qualified && decide (s.fld F.TK_STATUS_BOUND_PS ≤ 2000) then setMode .locked s
  else setMode .acquiring s

/-- The event of R63: the source and BOUND_PS stand in TK_STATUS, and |θ| in picoseconds follows. -/
def boundExceeded (θ : Int) (s : State) : State :=
  s.log 0x01 0x03 8 (timeDetail s s.leadDie ++ beBytes 4 (thetaPs θ))

/-- What the source in use reports is used: its bound and hops, and the servo or, past 1 µs and in the first setting, a
step that waits for COUNTER_STEP (R50, R51, R60, R61, R63). -/
def useSample (n : Nat) (θ : Int) (srcBound srcHops : Nat) (s : State) : State :=
  let held := s.fld F.TK_STATUS_BOUND_PS
  let returned := s.time.holdAt.isSome || s.time.mode = .holdover
  let s := if returned && decide (2 * held < θ.natAbs * 125) then boundExceeded θ (s.bump F.TK_EVENTS_BOUND_EXCEEDED) else s
  let s := { s with time := { s.time with holdAt := none } }
  if s.time.mode = .unset ∨ 16000 < θ.natAbs then
    let s := { s with time := { s.time with stepTheta := some θ } }
    let s := if 16000 < θ.natAbs then s.setFld F.TK_STATUS_STEP_WAIT 1 else s
    if s.time.mode = .unset then s else freeRun (setMode .invalid s)
  else
    let s := ({ s with time := { s.time with stepTheta := none } }).setFld F.TK_STATUS_STEP_WAIT 0
    let b := srcBound + max (s.hopBound n) (thetaPs θ)
    let s := setBound b (s.setFld F.TK_STATUS_HOPS srcHops)
    let s := servo θ (s.sampleInterval n) s
    if 32 < θ.natAbs then setMode .invalid s
    else if s.time.mode = .locked ∨ s.time.mode = .holdover then
      if 2000 < b then setMode .invalid s else setMode .locked s
    else tryLock n s

/-- A sample of candidate `n` is accepted. `srcHops` is what HOPS becomes if the source is used. -/
def acceptSample (n : Nat) (θ : Int) (srcBound srcHops : Nat) (s : State) : State :=
  let r := s.srcRec n
  let good := if θ.natAbs * 125 ≤ 2 * s.hopBound n then r.good + 1 else 0
  let s := s.setSrc n { r with
    good := min good 16, bad := 0, qualified := r.qualified || decide (16 ≤ good), delivering := true, lastAt := s.now,
    theta := θ, bound := srcBound, hops := srcHops }
  let better : Bool := match s.srcInUse with
    | none => true
    | some o => decide (n < o) &&
        ((s.time.mode = .locked && (s.srcRec n).qualified) || s.time.mode = .unset || s.time.mode = .invalid)
  let s := if better then selectSource n s else s
  if s.srcInUse = some n then useSample n θ srcBound srcHops s else s

/-- A rejected sample is counted; a candidate it belongs to moves towards loss (R51, R58). -/
def rejectSample (ns : List Nat) (s : State) : State :=
  (s.bump F.TK_EVENTS_SAMPLES_REJECTED).forAll ns badSample

end Sys2Proof.Machine
end

