-- ==== Sys2Proof/Machine/LinkOps.lean ====
section
/-! DEFINITION. What the commands of a link share (R72 to R106): its record, entering and leaving each state of *Link
states*, keys and key phases (R98), tag failures (R99), and dropping what is still arriving. -/

namespace Sys2Proof.Machine

/-- STATE of PH_LINK: 0 DOWN, 1 TRAIN, 2 ALIGN, 3 KEY, 4 UP, 5 RELINK, 6 SILENT. -/
def State.link (s : State) (h : Nat) : Nat := s.fld F.PH_LINK_STATE (hp h)

/-- Lanes of a link (R72). -/
def State.laneCount (s : State) (h : Nat) : Nat := if s.isWhole h then 16 else 8

/-- The unit time of a link in sixteenths of a nanosecond, times 100: 128 (80 ps) or 256 (160 ps). -/
def State.unitUnits (s : State) (h : Nat) : Nat := if s.isWhole h then 128 else 256

/-- The link is flagged circuit (R73). -/
def State.isCircuit (s : State) (h : Nat) : Bool :=
  if h % 2 = 0 then s.fld F.PH_PORT_CFG_CIRCUIT0 [h / 2] = 1 else s.fld F.PH_PORT_CFG_CIRCUIT1 [h / 2] = 1

/-- The port is enabled and the half-port exists in Edbor mode; no port leaves electrical idle before the device is SEEDED (R370). -/
def State.edborHalf (s : State) (h : Nat) : Bool :=
  s.halfExists h && s.fld F.PH_PORT_CFG_ENABLE [h / 2] = 1 && !s.isEth h && s.fld F.SL_STATUS_STATE = 4

/-- DETAIL of a LINK event: half-port, state, REASON, and what a code adds. -/
def linkEvent (h code reason : Nat) (more : List Byte) (s : State) : State :=
  s.log 0x02 code (h / 2) (beBytes 1 h ++ beBytes 1 (s.link h) ++ beBytes 1 reason ++ more)

/-- The packet of a record of reception is dropped and its cells freed at once: no more of it will come. -/
def dropRx (h : Nat) (x : RxPacket) (s : State) : State :=
  match x.pid with
  | some pid => failPkt pid (2 + h % 2) s
  | none => s

/-- Every packet still being received on a link is dropped. -/
def dropReceiving (h : Nat) (s : State) : State :=
  let r := s.half h
  (s.setHalf h { r with rxq := [], rxOpen := false, seals := [] }).forAll r.rxq (dropRx h)

/-! ## Link units (R89) -/

/-- The 64 bytes of a link unit. -/
def linkUnit (ltype arg row : Nat) (tags : List Byte) : List Byte :=
  [0xF0, BitVec.ofNat 8 ltype, BitVec.ofNat 8 arg, 0] ++ beBytes 2 row ++ List.replicate 10 0 ++ padTo 48 tags

/-- LTYPE of a link unit: 1 SEAL, 2 DOWN, 3 ALIGN; 0 for a unit without the MARK. -/
def unitType (u : List Byte) : Nat := if u.headD 0 = 0xF0 then (u.getD 1 0).toNat else 0

/-- ARG: COUNT of SEAL, REASON of DOWN. -/
def unitArg (u : List Byte) : Nat := (u.getD 2 0).toNat

/-- Tag `i` of a SEAL unit. -/
def unitTag (u : List Byte) (i : Nat) : List Byte := (u.drop (16 + 16 * i)).take 16

/-- The bits of SM_STATUS and SM_DIE_STATE that show SILENT half-ports. -/
def showSilent (h : Nat) (v : Bool) (s : State) : State :=
  (s.setBit F.SM_STATUS_PORTS_SILENT h v).setBit F.SM_DIE_STATE_PORT_SILENT (h % 2) v [h / 2]

/-- A link that was in UP stops carrying packets: what was arriving is lost, and what was queued for it is discarded
(R162). -/
def leaveUp (h : Nat) (s : State) : State :=
  if s.link h = 4 then outputDown h (dropReceiving h s) else s

/-- What a half-port's latest handshake made: the Key ID of its partner shows only while the link is UP. -/
def showPeer (h : Nat) (id : List Byte) (s : State) : State :=
  (s.setFld F.TC_PARTNER_KEY_ID (beNat (id.take 8)) [h, 0]).setFld F.TC_PARTNER_KEY_ID (beNat ((id.drop 8).take 8)) [h, 1]

def State.secret (s : State) (h dir : Nat) : Option LinkSecret := tabGet none s.trust.secrets [h, dir]

def State.setSecret (s : State) (h dir : Nat) (x : Option LinkSecret) : State :=
  { s with trust := { s.trust with secrets := tabSet none s.trust.secrets [h, dir] x } }

/-- The `n` bytes of a string, whatever its length. -/
def bytesOfLen (n : Nat) (l : List Byte) : List Byte := padTo n (l.take n)

/-- The bytes of a label's ASCII text. -/
def ascii (t : String) : List Byte := t.toList.map (fun c => BitVec.ofNat 8 c.toNat)

/-- The next key of a direction, formed as soon as one is installed (R348). -/
def nextSecret (peer chain key salt : List Byte) : LinkSecret :=
  let okm := bytesOfLen 84 (Config.hkdfExpand chain (ascii "YFK LINK NEXT") 84)
  ⟨peer, okm.take 48, key, salt, (okm.drop 48).take 32, okm.drop 80⟩

/-! ## The Link Cipher (R96, R97) -/

/-- The IV of a packet: the SALT of the key, then a 64-bit number, the unit position of its start unit or, in a tunnel, its SEQ. -/
def ivOf (salt : List Byte) (n : Nat) : List Byte := bytesOfLen 4 salt ++ beBytes 8 n

/-- A packet sealed under a key: its bytes as sent, the first four in clear, and its hop tag. -/
def sealPacket (key salt : List Byte) (n : Nat) (p : Packet) : List Byte × List Byte :=
  let b := packetBytes p
  let c := Config.gcmSeal key (ivOf salt n) (b.take 4) (b.drop 4)
  (b.take 4 ++ bytesOfLen (b.length - 4) c, bytesOfLen 16 (c.drop (b.length - 4)))

/-- The hop tag that a packet from a link must have, under the key that its KP names: the one in use, or the one that follows. -/
def hopTag (s : State) (h n : Nat) (p : Packet) : List Byte :=
  match s.secret h 1 with
  | none => (sealPacket [] [] n p).2
  | some x => if p.h.kp = (s.half h).keys.rxKp then (sealPacket x.key x.salt n p).2 else (sealPacket x.nextKey x.nextSalt n p).2

/-- A direction takes its next key; the previous one is erased. -/
def rotateSecret (h dir : Nat) (s : State) : State :=
  match s.secret h dir with
  | some x => s.setSecret h dir (some (nextSecret x.peer x.chain x.nextKey x.nextSalt))
  | none => s

/-- Enter a state of *Link states*. -/
def setLink (h st : Nat) (s : State) : State :=
  let s := leaveUp h s
  let s := showSilent h (st = 6) s
  let r := s.half h
  let s := s.setHalf h { r with since := s.now, attempts := if s.link h = 4 then 0 else r.attempts }
  let s := if st = 4 then s else showPeer h [] s
  s.setFld F.PH_LINK_STATE st (hp h)

/-- Keys of both directions are gone. -/
def dropKeys (h : Nat) (s : State) : State :=
  let r := s.half h
  let s := ((s.setHalf h { r with keys := {} }).setSecret h 0 none).setSecret h 1 none
  (s.setFld F.LC_STATUS_KEY_VALID 0 (hp h)).setFld F.LC_STATUS_REKEY_PENDING 0 (hp h)

/-- The link's time exchange begins anew when it is trained: d_ref is formed again (R58). -/
def resetExchange (h : Nat) (s : State) : State :=
  let x := tabGet {} s.time.exch [h]
  { s with time := { s.time with exch := tabSet {} s.time.exch [h] { seq := x.seq } } }

/-- Forget a link's handshake. -/
def dropHandshake (h : Nat) (s : State) : State :=
  { s with trust := { s.trust with hs := tabSet none s.trust.hs [h] none } }

/-- The link goes down, to DOWN (0), RELINK (5) or SILENT (6): its time sources are lost at once, its keys and handshake
are gone (R51, R81). -/
def goDown (h st : Nat) (s : State) : State :=
  let s := setLink h st s
  let r := s.half h
  let s := s.setHalf h { r with
    lanes := [], deskewed := false, readyRun := 0, rowTx := 0, lastSent := false, lastRcvd := false, txNext := 0, rxPos := 0, rowBlocks := [],
    skipping := false, lostAt := none, orphan := false, failTimes := [], lossDue := false, tagFails := [], relinkTry := none, scram := [] }
  let s := dropHandshake h (dropKeys h s)
  loseHalf h (resetExchange h s)

/-- A half-port sends DOWN units from now on (R90). -/
def sendDown (h reason : Nat) (s : State) : State :=
  let r := s.half h
  (s.setHalf h { r with downReason := some reason }).emit (.downUnit h (linkUnit 2 reason 0 []))

/-- A half-port enters SILENT and sends DOWN units with a reason (R405, R406, R409). -/
def goSilent (h reason : Nat) (s : State) : State :=
  if s.halfExists h then sendDown h reason (goDown h 6 s) else s

/-- Enter TRAIN (R82). -/
def enterTrain (h : Nat) (s : State) : State :=
  let s := setLink h 1 s
  let r := s.half h
  s.setHalf h { r with
    lanes := [], restartAt := none, deskewed := false, readyRun := 0, rowTx := 0, lastSent := false, lastRcvd := false, txNext := 0,
    rxPos := 0, rowBlocks := [], relinkTry := none, downReason := none }

/-- Enter ALIGN (R85). -/
def enterAlign (h : Nat) (s : State) : State :=
  let s := setLink h 2 s
  let r := s.half h
  s.setHalf h { r with
    deskewed := false, readyRun := 0, rowTx := 0, lastSent := false, lastRcvd := false, txNext := 0, rxPos := 0, rowBlocks := [], scram := [] }

/-- The Trust Core can run a handshake (R28, R334, R344): it is ready, its identity matched, and the image has this device's
certificates. -/
def State.trustReady (s : State) : Bool :=
  s.fld F.TC_STATUS_STATE = 1 && s.fld F.TC_STATUS_IDENTITY_OK = 1 && s.trust.image.certs.isSome

/-- A HELLO (*HELLO*), with the random numbers of a draw. -/
def helloBytes (s : State) (flags draw : Nat) : List Byte :=
  let chain := match s.trust.image.certs with
    | some (a, b) => a ++ b
    | none => []
  [1, BitVec.ofNat 8 flags] ++ beBytes 2 2 ++ (List.range 32).map (Config.random draw) ++ bytesOfLen 1281 (Config.ephemeral draw) ++ chain

/-- A new handshake, with fresh random numbers. -/
def newHandshake (flags attempt : Nat) (s : State) : HsRec × State :=
  ({ attempt := attempt % 256, flags := flags, draw := s.fresh, myHello := helloBytes s flags s.fresh, sent := [1], startedAt := s.now }, s.tick)

/-- The handshakes that have begun, as (start, place): of links and tunnels by half-port, of the relay, and of managers. -/
def State.hsList (s : State) : List (Nat × Nat) :=
  s.trust.hs.filterMap (fun e => e.2.map (fun r => (r.startedAt, e.1.headD 0)))
    ++ (s.trust.relay.map (fun r => (r.startedAt, 16))).toList
    ++ s.trust.mgrHs.filterMap (fun e => e.2.map (fun r => (r.startedAt, 17 + e.1.headD 0)))

/-- The Trust Core runs at most eight handshakes at once (R349). DEDUCED (log 189): those that began first, the lower place first where two
began together; the messages of the others wait. -/
def State.hsTurn (s : State) (startedAt place : Nat) : Bool :=
  decide ((s.hsList.filter (fun x => decide (x.1 < startedAt ∨ (x.1 = startedAt ∧ x.2 < place)))).length < 8)

def State.hsOn (s : State) (h : Nat) : Option HsRec := tabGet none s.trust.hs [h]

def State.setHs (s : State) (h : Nat) (r : Option HsRec) : State :=
  { s with trust := { s.trust with hs := tabSet none s.trust.hs [h] r } }

/-- The KEY_HS packet of one fragment (*KEY_HS payload*). -/
def hsPacket (s : State) (msg attempt reason frags n : Nat) (bytes : List Byte) : Packet :=
  sealCheck { h := { typ := 0x12, tr := 0, depart := departOf s.now },
              body := beBytes 1 msg ++ beBytes 1 attempt ++ beBytes 2 n ++ beBytes 2 frags ++ beBytes 1 bytes.length ++ beBytes 1 reason ++ padTo 24 bytes }

/-- The packets of a handshake message: fragments of 24 bytes, in order; one with no DATA where the message has none. -/
def hsPackets (s : State) (msg attempt reason : Nat) (bytes : List Byte) : List Packet :=
  let n := max 1 ((bytes.length + 23) / 24)
  (List.range n).map (fun i => hsPacket s msg attempt reason n i ((bytes.drop (24 * i)).take 24))

/-- The next unit position free on the transmit side (R78): the one after the last unit sent, or the next to leave now. -/
def State.txPos (s : State) (h : Nat) : Nat :=
  let u := s.unitUnits h
  max (s.half h).txNext (((s.now - (s.half h).txAt) * 100 + u - 1) / u)

/-- A message of a link's handshake goes out: on an Edbor link its packets take the next unit positions (R86), in a tunnel a datagram
each (R351). -/
def sendHs (h msg reason : Nat) (bytes : List Byte) (s : State) : State :=
  let l := hsPackets s msg (((s.hsOn h).map (·.attempt)).getD 0) reason bytes
  let pos := s.txPos h
  let s := if s.isEth h then s else s.setHalf h { s.half h with txNext := pos + l.length }
  s.emit (.handshake h msg pos l)

/-- The link's handshake starts: HELLO goes out. -/
def startHandshake (h : Nat) (s : State) : State :=
  if s.trustReady then
    let r := s.half h
    let (x, s) := newHandshake 0 r.attempts (s.setHalf h { r with attempts := r.attempts + 1 })
    sendHs h 1 0 x.myHello (s.setHs h (some x))
  else s

/-- Enter KEY (R86, R98). -/
def enterKey (h : Nat) (s : State) : State := startHandshake h (setLink h 3 s)

/-- Fresh keys in both directions, as every entry into UP installs them (R97, R98). -/
def installBoth (h : Nat) (s : State) : State :=
  let r := s.half h
  let s := s.setHalf h { r with keys := ⟨true, 0, 0, s.now, true, 0, true⟩ }
  ((s.setFld F.LC_STATUS_KEY_VALID 1 (hp h)).setFld F.LC_STATUS_REKEY_PENDING 0 (hp h)).setFld F.PH_LINK_TX_KP 0 (hp h)

/-- Enter UP: TRAIN_FAILS and TAG_FAILS return to 0, the control token bucket is full (R87, R99, R152) and the partner's Key
ID shows. -/
def enterUp (h : Nat) (s : State) : State :=
  let s := resetExchange h (setLink h 4 s)
  let s := showPeer h (((s.secret h 0).map (·.peer)).getD []) s
  let r := s.half h
  let s := s.setHalf h { r with tagFails := [], failTimes := [], lossDue := false, stayDown := false, relinkTry := none, downReason := none }
  let s := (s.setFld F.PH_LINK_TRAIN_FAILS 0 (hp h)).setFld F.LC_STATUS_TAG_FAILS 0 (hp h)
  { s with gran := { s.gran with tokens := tabSet none s.gran.tokens (hp h) (some (16 * 4096, s.now)) } }

/-- The receiver holds the key that phase `kp` names (R98). -/
def State.kpHeld (s : State) (h kp : Nat) : Bool :=
  let k := (s.half h).keys
  k.rxValid && (k.rxKp = kp || k.rxNew)

/-- The first packet of the new phase discards the old key, and the next one is formed (R348). -/
def takePhase (h kp : Nat) (s : State) : State :=
  let r := s.half h
  if r.keys.rxValid ∧ r.keys.rxNew ∧ r.keys.rxKp ≠ kp then
    rotateSecret h 1 (s.setHalf h { r with keys := { r.keys with rxKp := kp } })
  else s

/-- A packet's tag fails, or its key is not held: the failure is counted, and the eighth within 1 ms takes the link to
DOWN with a cipher event (R99). -/
def cipherFail (h : Nat) (s : State) : State :=
  let s := s.bump F.LC_STATUS_TAG_FAILS (hp h)
  let r := s.half h
  let recent := r.tagFails.filter (fun t => decide (s.now < t + usUnits 1000)) ++ [s.now]
  let s := s.setHalf h { r with tagFails := recent }
  if 8 ≤ recent.length then
    let s := s.log 0x03 0x01 (h / 2) (beBytes 1 h ++ beBytes 8 (s.rawWord .LC_STATUS (hp h)))
    goDown h 0 s
  else s

/-- A failed attempt ends in DOWN; training restarts 1 ms later, and after three consecutive timeouts only on
PH_CTRL.RETRAIN (R84, R87). -/
def attemptFailed (h : Nat) (counted : Bool) (s : State) : State :=
  let s := goDown h 0 s
  let s := if counted then s.bump F.PH_LINK_TRAIN_FAILS (hp h) else s
  let r := s.half h
  if 3 ≤ s.fld F.PH_LINK_TRAIN_FAILS (hp h) then s.setHalf h { r with stayDown := true, restartAt := none }
  else s.setHalf h { r with restartAt := some (s.now + usUnits 1000) }

/-- A string of bytes cut into `n` units. -/
def unitsOf : Nat → List Byte → List (List Byte)
  | 0, _ => []
  | n + 1, l => padTo 64 (l.take 64) :: unitsOf n (l.drop 64)

/-- The slots that a sealed packet takes (R76, R91, R97): a control packet is followed at once by a SEAL unit of its own, and a data
packet ends with its tag. -/
def sealedSlots (p : Packet) (bytes tag : List Byte) : List Slot :=
  if p.isControl then [⟨1, bytes⟩, ⟨3, linkUnit 1 1 0 tag⟩]
  else (unitsOf (p.h.units + 2) (bytes ++ tag)).mapIdx (fun i u => ⟨if i = 0 then 1 else 2, u⟩)

/-- The key and SALT in use for what this device sends. -/
def State.txSecret (s : State) (h : Nat) : List Byte × List Byte :=
  match s.secret h 0 with
  | some x => (x.key, x.salt)
  | none => ([], [])

/-- A packet is sealed and leaves on a link under the transmit key in use, at the next unit positions free (R78, R96 to R98). -/
def sendOnLink (h : Nat) (p : Packet) (s : State) : State :=
  let r := s.half h
  let p := { p with h := { p.h with kp := r.keys.txKp } }
  let pos := s.txPos h
  let (b, tag) := sealPacket (s.txSecret h).1 (s.txSecret h).2 pos p
  let units := sealedSlots p b tag
  let s := s.setHalf h { r with keys := { r.keys with txCount := r.keys.txCount + 1 }, txNext := pos + units.length }
  s.emit (.link h pos p units)

end Sys2Proof.Machine
end

