-- ==== Sys2Proof/Machine/Framing.lean ====
section
/-! DEFINITION. What the receiver of a link makes of its units, position by position (R78 to R80, R89, R97, R99): where each packet begins
and ends, which control packets a SEAL unit covers, and what is dropped when a block fails or a length does not fit. -/

namespace Sys2Proof.Machine

/-- The packet whose units are being read. -/
def State.rxLast (s : State) (h : Nat) : Option RxPacket := if (s.half h).rxOpen then (s.half h).rxq.getLast? else none

/-- That packet's record takes a new value. -/
def setRxLast (h : Nat) (x : RxPacket) (s : State) : State :=
  let r := s.half h
  s.setHalf h { r with rxq := r.rxq.dropLast ++ [x] }

/-- A packet dropped because a block it touched failed (R80). -/
def countFec (h : Nat) (s : State) : State := s.bump F.LK_DROP_FEC (hp h)

/-- The packet of a record of reception fails (R80, R99). -/
def failRx (h : Nat) (x : RxPacket) (s : State) : State :=
  match x.pid with
  | some pid => discardPkt pid (2 + h % 2) s
  | none => s

/-- The packet being read fails. -/
def spoilRx (h : Nat) (x : RxPacket) (s : State) : State := failRx h x (setRxLast h { x with bad := true } s)

/-- Its units do not match its length: it is dropped and counted. -/
def framingError (h : Nat) (x : RxPacket) (s : State) : State := (spoilRx h x s).bump F.LK_DROP_FRAMING (hp h)

/-- A data packet that has been dropped and whose header has been read: nothing more is awaited of it. -/
def RxPacket.over (x : RxPacket) : Bool := x.bad && !x.control && x.pid.isSome

/-- No unit of the packet being read follows. -/
def endRx (h : Nat) (s : State) : State :=
  let r := s.half h
  s.setHalf h { r with rxOpen := false, rxq := r.rxq.filter (fun x => !x.over) }

/-- The packet being read ends where another kind of unit follows: too few units are a framing error, unless it has already been
dropped. -/
def closePacket (h : Nat) (s : State) : State :=
  match s.rxLast h with
  | some x => endRx h (if x.left = 0 ∨ x.bad then s else framingError h x s)
  | none => s

/-- A control packet that no SEAL unit covers yet. -/
def RxPacket.unsealed (x : RxPacket) : Bool := x.control && x.sealAt.isNone

/-- Control packets whose SEAL unit did not come are dropped as tag failures (R99), and count as packets of a failed block where a
position after them was lost (R80). One whose header has not been read stays until then, as dropped. -/
def sealLost (h : Nat) (which : RxPacket → Bool) (s : State) : State :=
  let r := s.half h
  let lost (x : RxPacket) : Bool := x.unsealed && which x
  let q := (r.rxq.filter (fun x => !(lost x && x.pid.isSome))).map (fun x => if lost x then { x with bad := true, sealAt := some x.pos } else x)
  (s.setHalf h { r with rxq := q }).forAll (r.rxq.filter (fun x => lost x && !x.bad)) (fun x s =>
    if s.link h ≠ 4 then s
    else
      let s := failRx h x s
      let s := match r.lostAt with
        | some l => if x.pos < l then countFec h s else s
        | none => s
      cipherFail h s)

/-- A SEAL unit at position `at_` covers the `n` control packets before it. Those missing lay in failed blocks; any before them have
lost their SEAL. -/
def takeSeal (h at_ n : Nat) (s : State) : State :=
  let s := sealLost h (fun x => decide (x.pos + n < at_)) s
  let r := s.half h
  let found := (r.rxq.filter (fun x => x.unsealed)).length
  let s := s.setHalf h { r with seals := r.seals ++ [at_], rxq := r.rxq.map (fun x => if x.unsealed then { x with sealAt := some at_ } else x) }
  match r.lostAt with
  | some l => if at_ ≤ l + n then (List.range (n - found)).foldl (fun s _ => countFec h s) s else s
  | none => s

/-- A position whose block failed: the packet it belongs to is dropped and counted once; between packets it may have held anything. -/
def lostPosition (h at_ : Nat) (s : State) : State :=
  let s := s.setHalf h { s.half h with lostAt := some at_ }
  match s.rxLast h with
  | some x =>
    if x.left = 0 then
      let s := endRx h s
      s.setHalf h { s.half h with skipping := true }
    else setRxLast h { x with left := x.left - 1, bad := true } (if x.bad then s else countFec h (spoilRx h x s))
  | none => s.setHalf h { s.half h with skipping := true }

/-- A continuation unit: of the packet being read, or of one whose start unit was lost, which counts once. -/
def continuation (h : Nat) (s : State) : State :=
  match s.rxLast h with
  | some x =>
    if x.left = 0 ∧ !x.bad then framingError h x s else setRxLast h { x with left := x.left - 1 } s
  | none =>
    let r := s.half h
    if r.skipping ∧ !r.orphan then countFec h (s.setHalf h { r with orphan := true }) else s

/-- A start unit: bytes 0 to 3, in clear, give the type and the length. KEY_HS packets are not sealed and meet no check of a hop. -/
def startUnit (h at_ : Nat) (u : List Byte) (s : State) : State :=
  let typ := (u.getD 2 0).toNat
  if typ = 0x12 then s
  else
    let s := if typ < 128 then s else sealLost h (fun _ => true) s
    let r := s.half h
    s.setHalf h { r with rxOpen := true, rxq := r.rxq ++ [⟨at_, decide (typ < 128), if typ < 128 then 0 else (u.getD 3 0).toNat + 1, false, none, none, []⟩] }

/-- A unit of a decoded block. A link unit without the MARK or with an LTYPE not listed is discarded. -/
def takeUnit (h at_ : Nat) (x : Slot) (s : State) : State :=
  if x.code = 2 then continuation h s
  else if x.code = 3 ∧ (unitType x.bytes = 0 ∨ 3 < unitType x.bytes) then s
  else
    let s := closePacket h s
    let s := s.setHalf h { s.half h with skipping := false, orphan := false }
    if x.code = 1 then startUnit h at_ x.bytes s
    else if x.code = 3 ∧ unitType x.bytes = 1 ∧ 1 ≤ unitArg x.bytes ∧ unitArg x.bytes ≤ 3 then takeSeal h at_ (unitArg x.bytes) s
    else sealLost h (fun _ => true) s

/-- One unit position in order, `none` where its block failed (R78 to R80). Positions count whatever the link's state; only a link in UP
carries packets. -/
def position (h : Nat) (u : Option Slot) (s : State) : State :=
  let r := s.half h
  let s := s.setHalf h { r with rxPos := r.rxPos + 1 }
  if s.link h ≠ 4 then s
  else match u with
    | none => lostPosition h r.rxPos s
    | some x => takeUnit h r.rxPos x s

/-! ## Records of reception -/

/-- The record of the packet that starts at a position takes a new value. -/
def updRx (h at_ : Nat) (f : RxPacket → RxPacket) (s : State) : State :=
  let r := s.half h
  s.setHalf h { r with rxq := r.rxq.map (fun x => if x.pos = at_ then f x else x) }

def removeRx (h at_ : Nat) (s : State) : State :=
  let r := s.half h
  s.setHalf h { r with rxq := r.rxq.filter (fun x => x.pos ≠ at_), rxOpen := r.rxOpen && (r.rxq.getLast?.map (·.pos)) ≠ some at_ }

/-- The half-port on which a packet is being received, and its record. -/
def State.rxOf (s : State) (pid : Nat) : Option (Nat × RxPacket) :=
  (List.range 16).findSome? (fun h => ((s.half h).rxq.find? (fun x => x.pid = some pid)).map (fun x => (h, x)))

/-- The record that the next packet header is of. With none, the packet's units take the next positions, whole. -/
def awaitHeader (h : Nat) (p : Packet) (s : State) : State :=
  if (s.half h).rxq.any (fun x => x.pid.isNone) then s
  else
    let s := position h (some ⟨1, hdrBytes p.h⟩) s
    match s.rxLast h with
    | some x =>
      let s := setRxLast h { x with left := 0 } s
      let r := s.half h
      s.setHalf h { r with rxPos := r.rxPos + (p.unitCount - 1) }
    | none => s

/-- The header of a packet dropped before it was read has come: nothing more is awaited of it. -/
def discardHeader (h : Nat) (x : RxPacket) (s : State) : State :=
  let last := s.rxLast h = some x
  let s := removeRx h x.pos s
  let r := s.half h
  if last then s.setHalf h { r with orphan := true } else s

end Sys2Proof.Machine
end

