-- ==== Sys2Proof/Machine/Flags.lean ====
section
/-! DEFINITION. Numbers and their flags: the formats of *Format parameters* (R199), the rounding function rn() of R205 under
the five attributes of R200, overflow (R206), the IEEE operations of lane cores and Stewards with the exception flags of
R201, the exact sums and products of tensor operations (R202, R203), total order (R204), and the four transcendental
procedures (R221 to R225). -/

namespace Sys2Proof.Machine

/-! ## Formats and values -/

/-- How a format uses its largest exponent: as IEEE formats do, as E4M3 does, or for numbers only. -/
inductive FloatKind where
  | ieee | e4m3 | finite
  deriving DecidableEq, Repr

/-- A row of *Format parameters*: width, p, bias, emin, emax and the use of the largest exponent. -/
structure FloatFmt where
  w : Nat
  p : Nat
  bias : Int
  emin : Int
  emax : Int
  kind : FloatKind
  deriving DecidableEq, Repr

abbrev fp64 : FloatFmt := ⟨64, 53, 1023, -1022, 1023, .ieee⟩
abbrev fp32 : FloatFmt := ⟨32, 24, 127, -126, 127, .ieee⟩
abbrev fp16 : FloatFmt := ⟨16, 11, 15, -14, 15, .ieee⟩
abbrev bf16 : FloatFmt := ⟨16, 8, 127, -126, 127, .ieee⟩
abbrev e4m3 : FloatFmt := ⟨8, 4, 7, -6, 8, .e4m3⟩
abbrev e5m2 : FloatFmt := ⟨8, 3, 15, -14, 15, .ieee⟩
abbrev e2m3 : FloatFmt := ⟨6, 4, 1, 0, 2, .finite⟩
abbrev e3m2 : FloatFmt := ⟨6, 3, 3, -2, 4, .finite⟩
abbrev e2m1 : FloatFmt := ⟨4, 2, 1, 0, 2, .finite⟩

/-- A value: a NaN with its sign and its fraction, placed as in FP64; an infinity; or (-1)^neg * m * 2^e. -/
inductive Num where
  | nan (neg : Bool) (frac : Nat)
  | inf (neg : Bool)
  | fin (neg : Bool) (m : Nat) (e : Int)
  deriving DecidableEq, Repr

/-- The canonical NaN, and zero. -/
abbrev Num.qnan : Num := .nan false (2 ^ 51)
abbrev Num.zero : Num := .fin false 0 0

/-- The value of an integer. -/
def Num.ofInt (i : Int) : Num := .fin (decide (i < 0)) i.natAbs 0

def Num.isNan : Num → Bool
  | .nan _ _ => true
  | _ => false

def Num.isInf : Num → Bool
  | .inf _ => true
  | _ => false

def Num.negative : Num → Bool
  | .nan n _ => n
  | .inf n => n
  | .fin n _ _ => n

/-- The opposite value. -/
def Num.minus : Num → Num
  | .nan n f => .nan n f
  | .inf n => .inf (!n)
  | .fin n m e => .fin (!n) m e

/-- A NaN whose quiet bit is clear. -/
def Num.signalling : Num → Bool
  | .nan _ f => !f.testBit 51
  | _ => false

def Num.quiet : Num → Num
  | .nan n f => .nan n (f ||| 2 ^ 51)
  | v => v

/-- Pack a sign, a biased exponent and a fraction. -/
def FloatFmt.pack (f : FloatFmt) (neg : Bool) (be frac : Nat) : Nat :=
  (if neg then 2 ^ (f.w - 1) else 0) + be * 2 ^ (f.p - 1) + frac

/-- The all-ones exponent. -/
def FloatFmt.top (f : FloatFmt) : Nat := 2 ^ (f.w - f.p) - 1

/-- The value of a bit pattern of a format. Both NaN patterns of E4M3 stand for the canonical NaN of any other format (R207). -/
def FloatFmt.decode (f : FloatFmt) (n : Nat) : Num :=
  let neg := n.testBit (f.w - 1)
  let be := n / 2 ^ (f.p - 1) % 2 ^ (f.w - f.p)
  let fr := n % 2 ^ (f.p - 1)
  if f.kind = .ieee ∧ be = f.top then
    if fr = 0 then .inf neg else .nan neg (fr * 2 ^ (53 - f.p))
  else if f.kind = .e4m3 ∧ be = f.top ∧ fr = 7 then .nan false (2 ^ 51)
  else if be = 0 then .fin neg fr (f.emin - (f.p - 1 : Nat))
  else .fin neg (fr + 2 ^ (f.p - 1)) (be - f.bias - (f.p - 1 : Nat))

/-- The canonical NaN of a format (*Format parameters*). -/
def FloatFmt.canonical (f : FloatFmt) : Nat :=
  match f.kind with
  | .ieee => f.pack false f.top (2 ^ (f.p - 2))
  | .e4m3 => 0x7F
  | .finite => 0

/-- The largest finite value, as significand and exponent, and its pattern. -/
def FloatFmt.maxM (f : FloatFmt) : Nat := if f.kind = .e4m3 then 14 else 2 ^ f.p - 1

def FloatFmt.maxE (f : FloatFmt) : Int := f.emax - (f.p - 1 : Nat)

def FloatFmt.maxBits (f : FloatFmt) (neg : Bool) : Nat :=
  f.pack neg (f.emax + f.bias).toNat (f.maxM - 2 ^ (f.p - 1))

/-- The pattern of an infinity in a format that has one. -/
def FloatFmt.infBits (f : FloatFmt) (neg : Bool) : Nat := f.pack neg f.top 0

/-! ## Rounding (R205, R206) -/

/-- The five rounding attributes of R200, in the order RND codes them (R235). -/
inductive Rnd where
  | even | away | zero | up | down
  deriving DecidableEq, Repr

/-- The attribute that RND names. -/
def Rnd.ofCode (n : Nat) : Rnd :=
  match n with
  | 1 => .away
  | 2 => .zero
  | 3 => .up
  | 4 => .down
  | _ => .even

/-- m / 2^sh rounded to an integer. -/
def shiftRound (a : Rnd) (neg : Bool) (m sh : Nat) : Nat :=
  let kept := m / 2 ^ sh
  let rem := m % 2 ^ sh
  let upwards : Bool := match a with
    | .even => decide (2 ^ sh < 2 * rem) || (decide (2 ^ sh = 2 * rem) && kept % 2 = 1)
    | .away => decide (2 ^ sh ≤ 2 * rem)
    | .zero => false
    | .up => !neg
    | .down => neg
  if upwards && rem ≠ 0 then kept + 1 else kept

/-- m * 2^k rounded to an integer: exact where k is not negative. -/
def scaleRound (a : Rnd) (neg : Bool) (m : Nat) (k : Int) : Nat :=
  if 0 ≤ k then m * 2 ^ k.toNat else shiftRound a neg m (-k).toNat

/-- IEEE exception flags, as bits: 0 invalid, 1 divideByZero, 2 overflow, 3 underflow, 4 inexact (R201, FLAGS_READ). -/
abbrev flInvalid : Nat := 1
abbrev flDivZero : Nat := 2
abbrev flOverflow : Nat := 4
abbrev flUnderflow : Nat := 8
abbrev flInexact : Nat := 16

/-- What an overflow writes (R206): `sat` is SAT mode; a directed attribute that rounds towards zero stops at the largest
finite value of a format that has an infinity; E4M3 gives its NaN. The FP6 and FP4 formats have no infinity and are rounded in SAT mode only (R210). -/
def overflowBits (a : Rnd) (sat : Bool) (f : FloatFmt) (neg : Bool) : Nat :=
  let stop : Bool := match a with
    | .zero => true
    | .up => neg
    | .down => !neg
    | _ => false
  if sat then f.maxBits neg
  else match f.kind with
    | .ieee => if stop then f.maxBits neg else f.infBits neg
    | .e4m3 => f.canonical
    | .finite => f.maxBits neg

/-- rn() of R205, with an attribute: the pattern, and the flags it raises. Tininess is judged after rounding (R200). -/
def rn (a : Rnd) (sat : Bool) (f : FloatFmt) (neg : Bool) (m : Nat) (e : Int) : Nat × Nat :=
  if m = 0 then (f.pack neg 0 0, 0)
  else
    let x : Int := (m.log2 : Int) + e
    let q : Int := max x f.emin - (f.p - 1 : Nat)
    let kept := scaleRound a neg m (e - q)
    let exact : Bool := decide (q ≤ e) || decide (m % 2 ^ (q - e).toNat = 0)
    let low : Int := f.emin - (f.p - 1 : Nat)
    if f.maxM * 2 ^ (f.maxE - low).toNat < kept * 2 ^ (q - low).toNat then
      (overflowBits a sat f neg, flOverflow + flInexact)
    else
      let wide := scaleRound a neg m (e - (x - (f.p - 1 : Nat)))
      let tiny : Bool := decide (x + 1 < f.emin) || (decide (x + 1 = f.emin) && decide (wide ≠ 2 ^ f.p))
      let fl := (if exact then 0 else flInexact) + (if tiny && !exact then flUnderflow else 0)
      let up := decide (kept = 2 ^ f.p)
      let k := if up then kept / 2 else kept
      let q := if up then q + 1 else q
      if k < 2 ^ (f.p - 1) then (f.pack neg 0 k, fl)
      else (f.pack neg (q + (f.p - 1 : Nat) + f.bias).toNat (k - 2 ^ (f.p - 1)), fl)

/-- A value written in a floating format. In a tensor operation every NaN is canonical and every zero is +0 (R202, R203);
otherwise a NaN keeps its sign and what fits of its payload (of which E4M3 has none), and is made quiet (R200). -/
def FloatFmt.encode (f : FloatFmt) (tensor : Bool) (a : Rnd) (sat : Bool) (v : Num) : Nat × Nat :=
  match v with
  | .nan n fr =>
    let fl := if v.signalling && !tensor then flInvalid else 0
    if tensor || f.kind = .finite then (f.canonical, fl)
    else if f.kind = .e4m3 then (f.pack n f.top 7, fl)
    else (f.pack n f.top ((fr ||| 2 ^ 51) / 2 ^ (53 - f.p)), fl)
  | .inf n => if f.kind = .ieee then (f.infBits n, 0) else (f.canonical, 0)
  | .fin n m e =>
    let r := rn a sat f n m e
    if tensor && r.1 % 2 ^ (f.w - 1) = 0 then (0, r.2) else r

/-! ## Exact arithmetic of tensor operations (R203) -/

/-- The signed significand of a finite value at exponent `e0`, which is at most its own. -/
def sigAt (neg : Bool) (m : Nat) (e e0 : Int) : Int :=
  let v : Int := (m * 2 ^ (e - e0).toNat : Nat)
  if neg then -v else v

/-- The exact sum: NaN where an operand is NaN or the infinities differ. An exact zero is +0, unless both are -0. -/
def Num.add : Num → Num → Num
  | .fin n1 m1 e1, .fin n2 m2 e2 =>
    let e := min e1 e2
    let v := sigAt n1 m1 e1 e + sigAt n2 m2 e2 e
    if v = 0 then .fin (n1 && n2) 0 e else .fin (decide (v < 0)) v.natAbs e
  | .nan _ _, _ => .qnan
  | _, .nan _ _ => .qnan
  | .inf a, .inf b => if a = b then .inf a else .qnan
  | .inf a, _ => .inf a
  | _, .inf b => .inf b

/-- The exact product: NaN where an operand is NaN or a zero meets an infinity. -/
def Num.mul : Num → Num → Num
  | .fin n1 m1 e1, .fin n2 m2 e2 => .fin (xor n1 n2) (m1 * m2) (e1 + e2)
  | .nan _ _, _ => .qnan
  | _, .nan _ _ => .qnan
  | .inf a, .fin b m _ => if m = 0 then .qnan else .inf (xor a b)
  | .fin b m _, .inf a => if m = 0 then .qnan else .inf (xor a b)
  | .inf a, .inf b => .inf (xor a b)

def Num.sum (l : List Num) : Num := l.foldl Num.add .zero

/-- A value as a tensor operation reads it: -0 is +0 and every NaN one NaN (R202, R203). -/
def Num.norm : Num → Num
  | .fin n m e => .fin (n && m ≠ 0) m e
  | .nan _ _ => .qnan
  | v => v

/-- The exact difference of two finite values, up to a positive factor. -/
def Num.diff (a b : Num) : Int :=
  match a, b with
  | .fin n1 m1 e1, .fin n2 m2 e2 => let e := min e1 e2
                                    sigAt n1 m1 e1 e - sigAt n2 m2 e2 e
  | _, _ => 0

/-- Where a value stands in the order of R204: -∞, finite, +∞, NaN. -/
def Num.rank : Num → Nat
  | .inf true => 0
  | .fin _ _ _ => 1
  | .inf false => 2
  | .nan _ _ => 3

/-- Strictly less in the order of R204. -/
def Num.lt (a b : Num) : Bool :=
  decide (a.rank < b.rank) || (a.rank = 1 && b.rank = 1 && decide (a.diff b < 0))

/-! ## IEEE operations of lane cores and Stewards (R200) -/

/-- The first NaN among the operands, made quiet, with invalid where one of them signals. -/
def firstNan (l : List Num) : Option (Num × Nat) :=
  (l.find? Num.isNan).map (fun v => (v.quiet, if l.any Num.signalling then flInvalid else 0))

/-- An IEEE operation on operands: NaN operands are propagated, the rest goes to `op`. -/
def ieeeOn (f : FloatFmt) (l : List Num) (op : Nat × Nat) : Nat × Nat :=
  match firstNan l with
  | some (v, fl) => ((f.encode false .even false v).1, fl)
  | none => op

/-- A sum of two values that are not NaN; an exact zero sum of unlike signs is -0 only under roundTowardNegative. -/
def laneSum (a : Rnd) (f : FloatFmt) (x y : Num) : Nat × Nat :=
  match x.add y with
  | .nan _ _ => (f.canonical, flInvalid)
  | .fin n m e =>
    if m = 0 then (f.pack (if x.negative = y.negative then n else a = .down) 0 0, 0)
    else f.encode false a false (.fin n m e)
  | v => f.encode false a false v

def ieeeAdd (a : Rnd) (f : FloatFmt) (x y : Num) : Nat × Nat := ieeeOn f [x, y] (laneSum a f x y)

def ieeeSub (a : Rnd) (f : FloatFmt) (x y : Num) : Nat × Nat := ieeeOn f [x, y] (laneSum a f x y.minus)

def ieeeMul (a : Rnd) (f : FloatFmt) (x y : Num) : Nat × Nat :=
  ieeeOn f [x, y] (match x.mul y with
    | .nan _ _ => (f.canonical, flInvalid)
    | v => f.encode false a false v)

/-- x * y + z, rounded once. Zero times infinity with a quiet NaN z: IEEE 754-2019 leaves invalid to the implementation,
and the spec states no choice, so it is a free value. -/
def ieeeFma (a : Rnd) (f : FloatFmt) (x y z : Num) : Nat × Nat :=
  let r := ieeeOn f [x, y, z] (match x.mul y with
    | .nan _ _ => (f.canonical, flInvalid)
    | p => laneSum a f p z)
  if !x.isNan && !y.isNan && z.isNan && (x.mul y).isNan && Config.fmaInvalid f.w then (r.1, flInvalid) else r

def ieeeDiv (a : Rnd) (f : FloatFmt) (x y : Num) : Nat × Nat :=
  let n := xor x.negative y.negative
  ieeeOn f [x, y] (match x, y with
    | .fin _ m1 e1, .fin _ m2 e2 =>
      if m2 = 0 then (if m1 = 0 then (f.canonical, flInvalid) else (f.infBits n, flDivZero))
      else if m1 = 0 then (f.pack n 0 0, 0)
      else
        let num := m1 * 2 ^ 128
        rn a false f n (2 * (num / m2) + (if num % m2 = 0 then 0 else 1)) (e1 - e2 - 129)
    | .inf _, .fin _ _ _ => (f.infBits n, 0)
    | .fin _ _ _, .inf _ => (f.pack n 0 0, 0)
    | _, _ => (f.canonical, flInvalid))

/-- The integer square root, bit by bit from bit `k`. -/
def isqrtFrom (n : Nat) : Nat → Nat → Nat
  | 0, r => r
  | k + 1, r => isqrtFrom n k (if (r + 2 ^ k) * (r + 2 ^ k) ≤ n then r + 2 ^ k else r)

def isqrt (n : Nat) : Nat := isqrtFrom n (n.log2 / 2 + 1) 0

def ieeeSqrt (a : Rnd) (f : FloatFmt) (x : Num) : Nat × Nat :=
  ieeeOn f [x] (match x with
    | .fin n m e =>
      if m = 0 then (f.pack n 0 0, 0)
      else if n then (f.canonical, flInvalid)
      else
        let odd : Bool := decide (e % 2 ≠ 0)
        let big := (if odd then 2 * m else m) * 2 ^ 128
        let e := if odd then e - 1 else e
        let r := isqrt big
        rn a false f false (2 * r + (if r * r = big then 0 else 1)) (e / 2 - 65)
    | .inf n => if n then (f.canonical, flInvalid) else (f.infBits false, 0)
    | _ => (f.canonical, flInvalid))

/-- The larger of two values that are not NaN; -0 is below +0. -/
def pickMax (x y : Num) : Num := if x.lt y then y else if y.lt x then x else if x.negative then y else x

/-- The smaller. -/
def pickMin (x y : Num) : Num := if x.lt y then x else if y.lt x then y else if x.negative then x else y

/-- IEEE maximum and minimum: NaN if either operand is NaN. -/
def ieeeMax (f : FloatFmt) (x y : Num) : Nat × Nat := ieeeOn f [x, y] (f.encode false .even false (pickMax x y))

def ieeeMin (f : FloatFmt) (x y : Num) : Nat × Nat := ieeeOn f [x, y] (f.encode false .even false (pickMin x y))

/-! ## Transcendental procedures (R221 to R225) -/

/-- tab2 of R222: round(2^(i/64) * 2^31). -/
def tab2 : List Nat :=
  [2147483648, 2170868212, 2194507417, 2218404036, 2242560872, 2266980759, 2291666561, 2316621173] ++
  [2341847524, 2367348571, 2393127307, 2419186755, 2445529972, 2472160047, 2499080105, 2526293303] ++
  [2553802834, 2581611923, 2609723834, 2638141863, 2666869345, 2695909648, 2725266179, 2754942382] ++
  [2784941738, 2815267765, 2845924021, 2876914102, 2908241642, 2939910317, 2971923842, 3004285971] ++
  [3037000500, 3070071267, 3103502151, 3137297074, 3171459999, 3205994934, 3240905930, 3276197082] ++
  [3311872529, 3347936457, 3384393094, 3421246719, 3458501653, 3496162267, 3534232978, 3572718252] ++
  [3611622603, 3650950594, 3690706840, 3730896002, 3771522796, 3812591987, 3854108391, 3896076880] ++
  [3938502376, 3981389855, 4024744348, 4068570940, 4112874773, 4157661043, 4202935003, 4248701965]

/-- exp2_core of R222. -/
def exp2Core (t : Int) : Nat :=
  let n : Int := t / 2 ^ 30
  let f : Nat := (t - n * 2 ^ 30).toNat
  let i := f / 2 ^ 24
  let r := f % 2 ^ 24
  let q := 238388332
  let q := 1031764991 + q * r / 2 ^ 30
  let q := 2977044472 + q * r / 2 ^ 30
  let s := q * r / 2 ^ 30
  let b := tab2.getD i 0
  let m := b + b * s / 2 ^ 32
  (rn .even false fp32 false m (n - 31)).1

/-- A finite value at least 256 in magnitude. -/
def big256 (m : Nat) (e : Int) : Bool := m ≠ 0 && decide (8 ≤ (m.log2 : Int) + e)

/-- A NaN operand of the four functions: quiet with its sign and payload kept on a lane core, canonical in a tensor
operation. -/
def transNan (tensor : Bool) (v : Num) : Nat := (fp32.encode tensor .even false v.quiet).1

/-- exp2 (R222) and exp (R223) of an FP32 value: `lg` is true for exp. -/
def expFn (lg tensor : Bool) (v : Num) : Nat :=
  match v with
  | .nan _ _ => transNan tensor v
  | .inf n => if n then 0 else fp32.infBits false
  | .fin n m e =>
    if big256 m e then (if n then 0 else fp32.infBits false)
    else
      let k := if lg then scaleRound .even false (m * 6196328019) (e - 2) else scaleRound .even false m (e + 30)
      exp2Core (if n then -(k : Int) else k)

/-- rtab of R224: round(2^39 / (257 + 2j)). -/
def rtab (j : Nat) : Nat := (2 ^ 40 + (257 + 2 * j)) / (2 * (257 + 2 * j))

/-- A significand brought to 24 bits, and its exponent: decompose_norm of R221. -/
def norm24 (m : Nat) (e : Int) : Nat × Int :=
  if m.log2 ≤ 23 then (m * 2 ^ (23 - m.log2), e - (23 - m.log2 : Nat)) else (m / 2 ^ (m.log2 - 23), e + (m.log2 - 23 : Nat))

/-- reciprocal (R224). -/
def recipFn (tensor : Bool) (v : Num) : Nat :=
  match v with
  | .nan _ _ => transNan tensor v
  | .inf n => fp32.pack (n && !tensor) 0 0
  | .fin n m e =>
    if m = 0 then fp32.infBits (n && !tensor)
    else
      let (m, e) := norm24 m e
      let step (y : Nat) : Nat := y * (2 ^ 55 - m * y) / 2 ^ 54
      let y := step (step (rtab (m / 2 ^ 16 - 128)))
      (fp32.encode tensor .even false (.fin n y (-31 - (e + 23)))).1

/-- stab of R225: round(2^31 * sqrt(128 / (129 + 2j))). -/
def stab (j : Nat) : Nat := (isqrt (2 ^ 71 / (129 + 2 * j)) + 1) / 2

/-- rsqrt (R225). -/
def rsqrtFn (tensor : Bool) (v : Num) : Nat :=
  match v with
  | .nan _ _ => transNan tensor v
  | .inf n => if n then fp32.canonical else 0
  | .fin n m e =>
    if m = 0 then fp32.infBits (n && !tensor)
    else if n then fp32.canonical
    else
      let (m, e) := norm24 m e
      let odd : Bool := decide ((e + 23) % 2 ≠ 0)
      let u := if odd then 2 * m else m
      let k := if odd then e + 22 else e + 23
      let step (y : Nat) : Nat := y * (3 * 2 ^ 54 - u * (y * y / 2 ^ 31)) / 2 ^ 55
      let y := step (step (stab (u / 2 ^ 17 - 64)))
      (rn .even false fp32 false y (-31 - k / 2)).1

end Sys2Proof.Machine
end

