-- ==== Sys2Proof/Machine/Operands.lean ====
section
/-! DEFINITION. Operands: the element formats of R196, elements in memory and in payloads (R197, R198), conversions (R207,
R208, R217), microscaling (R209, R210), the dot products of R211, R212 and R218, and tile memory (R228). -/

namespace Sys2Proof.Machine

/-! ## Element formats (R196) -/

/-- What a format code names: a floating format, the FP32 pair, an MX format by its element format, or an integer by sign
and bytes. -/
inductive Elem where
  | flt (f : FloatFmt)
  | pair
  | mx (f : FloatFmt)
  | int (signed : Bool) (bytes : Nat)
  deriving DecidableEq, Repr

/-- *Element format codes*; 0x00 and unlisted codes name no format. -/
def elemOf (code : Nat) : Option Elem :=
  match code with
  | 0x01 => some (.flt fp64)
  | 0x02 => some (.flt fp32)
  | 0x03 => some (.flt fp16)
  | 0x04 => some (.flt bf16)
  | 0x05 => some (.flt e4m3)
  | 0x06 => some (.flt e5m2)
  | 0x07 => some .pair
  | 0x10 => some (.mx e4m3)
  | 0x11 => some (.mx e5m2)
  | 0x12 => some (.mx e2m3)
  | 0x13 => some (.mx e3m2)
  | 0x14 => some (.mx e2m1)
  | 0x20 => some (.int true 1)
  | 0x21 => some (.int true 2)
  | 0x22 => some (.int true 4)
  | 0x23 => some (.int true 8)
  | 0x24 => some (.int false 1)
  | 0x25 => some (.int false 2)
  | 0x26 => some (.int false 4)
  | 0x27 => some (.int false 8)
  | _ => none

def Elem.isMx : Elem → Bool
  | .mx _ => true
  | _ => false

def Elem.isInt : Elem → Bool
  | .int _ _ => true
  | _ => false

def Elem.isFlt : Elem → Bool
  | .flt _ => true
  | _ => false

/-- Bytes of one element of a format that has whole bytes. -/
def Elem.size : Elem → Nat
  | .flt f => f.w / 8
  | .pair => 8
  | .mx _ => 1
  | .int _ n => n

/-- Bytes of one MX segment of 2,048 elements (R198). -/
def segBytes (f : FloatFmt) : Nat := 64 + 256 * f.w

/-- Bytes that `n` elements take, whole segments for MX. -/
def Elem.span (k : Elem) (n : Nat) : Nat :=
  match k with
  | .mx f => (n + 2047) / 2048 * segBytes f
  | k => n * k.size

/-- The bytes of element bases: an element boundary, or 64 for MX (R239). -/
def Elem.align : Elem → Nat
  | .mx _ => 64
  | k => k.size

/-! ## Reading elements -/

/-- The value of an FP32 pair (R217). -/
def pairNum (hi lo : Num) : Num :=
  match hi with
  | .fin _ _ _ => hi.add lo
  | v => v

/-- The signed value of an integer pattern. -/
def intOf (signed : Bool) (bytes n : Nat) : Int := if signed then toSigned (8 * bytes) n else n

/-- The value of a pattern of a format that has whole bytes. -/
def Elem.value (k : Elem) (n : Nat) : Num :=
  match k with
  | .flt f => f.decode n
  | .pair => pairNum (fp32.decode (n % 2 ^ 32)) (fp32.decode (n / 2 ^ 32))
  | .mx f => f.decode n
  | .int s b => Num.ofInt (intOf s b n)

/-- A value times the scale byte of its MX block (R209). -/
def scaled (s : Nat) (v : Num) : Num := if s = 255 then .qnan else v.mul (.fin false 1 ((s : Int) - 127))

/-- Element `j` of a vector whose bytes `rd` gives (R197, R198). -/
def Elem.read (k : Elem) (rd : Nat → Byte) (j : Nat) : Num :=
  match k with
  | .mx f =>
    let seg := j / 2048 * segBytes f
    let b := j % 2048 / 32
    let bit := f.w * (j % 32)
    let at_ := seg + 64 + 4 * f.w * b + bit / 8
    let w := (rd at_).toNat + 256 * (rd (at_ + 1)).toNat
    scaled (rd (seg + b)).toNat (f.decode (w / 2 ^ (bit % 8) % 2 ^ f.w))
  | k => k.value (leNat ((List.range k.size).map (fun i => rd (j * k.size + i))))

/-! ## Writing elements (R205 to R208, R210, R217) -/

/-- How a result is written: the rounding attribute, SAT mode, wrapping integers, whether the rules of tensor operations
hold, and whether the value is an integer's. -/
structure Mode where
  att : Rnd := .even
  sat : Bool := false
  wrap : Bool := false
  tensor : Bool := true
  fromInt : Bool := false
  deriving DecidableEq, Repr

/-- An integer in a format: wrapped, or at the format's nearest bound. -/
def intPattern (wrap signed : Bool) (bytes : Nat) (i : Int) : Nat :=
  let w := 8 * bytes
  let lo : Int := if signed then -(2 ^ (w - 1) : Int) else 0
  let hi : Int := if signed then 2 ^ (w - 1) - 1 else 2 ^ w - 1
  ofSigned w (if wrap then i else if i < lo then lo else if hi < i then hi else i)

/-- A finite value rounded to an integer, ties to even (R208). -/
def Num.toInt : Num → Int
  | .fin n m e => let k : Int := scaleRound .even n m e
                  if n then -k else k
  | _ => 0

/-- A floating value in an integer format: NaN gives 0 and a value outside the range its nearest bound, with invalid. -/
def fltToInt (signed : Bool) (bytes : Nat) (v : Num) : Nat × Nat :=
  let w := 8 * bytes
  let lo : Int := if signed then -(2 ^ (w - 1) : Int) else 0
  let hi : Int := if signed then 2 ^ (w - 1) - 1 else 2 ^ w - 1
  match v with
  | .nan _ _ => (0, flInvalid)
  | .inf n => (ofSigned w (if n then lo else hi), flInvalid)
  | v => (intPattern false signed bytes v.toInt, if v.toInt < lo ∨ hi < v.toInt then flInvalid else 0)

/-- A pair written from an exact value (R217). -/
def pairBits (v : Num) : Nat :=
  let hi := (fp32.encode true .even false v).1
  match fp32.decode hi with
  | .fin n m e => hi + 2 ^ 32 * (fp32.encode true .even false (v.add (.fin (!n) m e))).1
  | _ => hi

/-- The pattern of a value in a format that has whole bytes, and the flags raised. -/
def Elem.pattern (k : Elem) (md : Mode) (v : Num) : Nat × Nat :=
  match k with
  | .flt f => f.encode md.tensor md.att md.sat v
  | .pair => (pairBits v, 0)
  | .mx f => f.encode md.tensor md.att true v
  | .int s b => if md.fromInt then (intPattern md.wrap s b v.toInt, 0) else fltToInt s b v

/-- A pattern that a tensor operation passes on: the value it stands for, written again, so that a NaN is canonical and a zero
is +0 (R202, R203). -/
def Elem.tidy (k : Elem) (n : Nat) : Nat :=
  match k with
  | .int _ _ => n
  | k => (k.pattern {} (k.value n).norm).1

/-- The exponent of the largest magnitude of a block, if any value is not zero. -/
def blockExp (l : List Num) : Option Int :=
  l.foldl (fun a v => match v with
    | .fin _ m e => if m = 0 then a else
        let x : Int := (m.log2 : Int) + e
        some (match a with
          | some y => max x y
          | none => x)
    | _ => a) none

/-- The scale and element patterns of an MX block (R210). -/
def mxBlock (f : FloatFmt) (md : Mode) (l : List Num) : Nat × List Nat :=
  if l.any (fun v => v.isNan || v.isInf) then (255, l.map (fun _ => 0))
  else
    match blockExp l with
    | none => (127, l.map (fun _ => 0))
    | some x =>
      let s := x - f.emax + 127
      if 254 < s ∧ !md.sat then (255, l.map (fun _ => 0))
      else
        let s : Nat := (min (max s 0) 254).toNat
        (s, l.map (fun v => (f.encode md.tensor .even true (v.mul (.fin false 1 (127 - (s : Int))))).1))

/-- Numbers of `w` bits as a little-endian bit string. -/
def packBits (w : Nat) (l : List Nat) : List Byte :=
  leBytes ((w * l.length + 7) / 8) (l.foldr (fun a b => a + 2 ^ w * b) 0)

/-- One MX segment of at most 2,048 elements; blocks beyond the end have scale 0x7F and zero elements (R198). -/
def mxSegment (f : FloatFmt) (md : Mode) (l : List Num) : List Byte :=
  let blocks := (List.range 64).map (fun b =>
    let v := (l.drop (32 * b)).take 32
    mxBlock f md (v ++ List.replicate (32 - v.length) .zero))
  blocks.map (fun b => BitVec.ofNat 8 b.1) ++ blocks.flatMap (fun b => packBits f.w b.2)

/-- The bytes of a vector of results, and the flags raised. -/
def Elem.bytes (k : Elem) (md : Mode) (l : List Num) : List Byte × Nat :=
  match k with
  | .mx f => ((List.range ((l.length + 2047) / 2048)).flatMap (fun i => mxSegment f md ((l.drop (2048 * i)).take 2048)), 0)
  | k =>
    let r := l.map (k.pattern md)
    (r.flatMap (fun x => leBytes k.size x.1), r.foldl (fun a x => a ||| x.2) 0)

/-- The default overflow mode of an output format (R206): SAT for FP8 and MX. -/
def defaultSat (code : Nat) : Bool := code = 0x05 || code = 0x06 || decide (0x10 ≤ code ∧ code ≤ 0x14)

/-! ## Dot products (R211, R212, R218) -/

/-- A list cut into groups of `n`, at most `fuel` of them. -/
def groupsOf {α : Type} (n : Nat) : Nat → List α → List (List α)
  | 0, _ => []
  | _ + 1, [] => []
  | fuel + 1, l => l.take n :: groupsOf n fuel (l.drop n)

/-- The exact sum of a group of products; an exact zero is +0. -/
def groupSum (l : List (Num × Num)) : Num := (Num.sum (l.map (fun x => x.1.norm.mul x.2.norm))).norm

/-- A running sum over group results in the accumulation format: the initial value is held exactly until the first
addition. -/
def runGroups (f : FloatFmt) (sat : Bool) (init : Num) (l : List Num) : Num :=
  l.foldl (fun r g => f.decode (f.encode true .even sat (r.add (f.decode (f.encode true .even sat g).1))).1) init

/-- A floating dot product (R211): groups of 32, each summed exactly and rounded once, added in ascending order. -/
def dotFlt (f : FloatFmt) (sat : Bool) (init : Num) (ps : List (Num × Num)) : Num :=
  runGroups f sat init ((groupsOf 32 (ps.length / 32 + 1) ps).map groupSum)

/-- The exact value from which the last running pair is written (R218). -/
def pairRun (r : Num) : List Num → Num
  | [] => r
  | [g] => r.add g
  | g :: l => pairRun (Elem.pair.value (pairBits (r.add g))) l

/-- A dot product on pairs (R218): the running value is a pair after each group. For an output that is a pair, the exact value it is
written from; otherwise the value of the pair. -/
def dotPair (toPair : Bool) (init : Num) (ps : List (Num × Num)) : Num :=
  let r := pairRun init ((groupsOf 32 (ps.length / 32 + 1) ps).map groupSum)
  if toPair then r else Elem.pair.value (pairBits r)

/-- An integer dot product (R212): exact, added to the exact initial value. -/
def dotInt (init : Num) (ps : List (Num × Num)) : Num :=
  init.add (Num.ofInt ((ps.map (fun p => p.1.toInt * p.2.toInt)).foldl (· + ·) 0))

/-! ## Tile memory (R228) -/

/-- Bytes of tile memory. -/
abbrev tileSize : Nat := 2097152

/-- The key of byte 0 of a logical tile. -/
def tileBase (d t : Nat) : Nat := (d * 2048 + t) * tileSize

def State.memByte (s : State) (d t off : Nat) : Byte := tabGet 0 s.mem (tileBase d t + off)

/-- `s` with one byte of tile memory written. A byte at or beyond the end of the tile does not exist. -/
def State.setMemByte (s : State) (d t off : Nat) (b : Byte) : State :=
  if off < tileSize then { s with mem := tabSet 0 s.mem (tileBase d t + off) b } else s

/-- `n` bytes from `off`. -/
def State.readMem (s : State) (d t off n : Nat) : List Byte := (List.range n).map (fun i => s.memByte d t (off + i))

/-- `s` with bytes written from `off`, in ascending order. -/
def State.writeMem (s : State) (d t : Nat) : Nat → List Byte → State
  | _, [] => s
  | off, b :: l => State.writeMem (s.setMemByte d t off b) d t (off + 1) l

/-- A little-endian word of tile memory. -/
def State.memWord (s : State) (d t off n : Nat) : Nat := leNat (s.readMem d t off n)

/-- All of a tile's memory zero. -/
def zeroTile (d t : Nat) (s : State) : State :=
  { s with mem := s.mem.filter (fun c => !decide (tileBase d t ≤ c.1 ∧ c.1 < tileBase d t + tileSize)) }

end Sys2Proof.Machine
end

