-- ==== Sys2Proof/Machine/Bales.lean ====
section
/-! DEFINITION. Where the Bales of a Gleaner context lie (R315 to R317): the holding tiles, the image of a Bale, and the
place that a GLEAN_KV names. -/

namespace Sys2Proof.Machine

def State.ctx (s : State) (c : Nat) : Option GlCtx := tabGet none s.engine.ctxs [c]

def State.setCtx (s : State) (c : Nat) (x : Option GlCtx) : State :=
  { s with engine := { s.engine with ctxs := tabSet none s.engine.ctxs [c] x } }

/-- NT: the holding tiles. -/
def GlCtx.nt (c : GlCtx) : Nat := 64 * (c.extents.map (fun e => e.2.2)).sum

/-- The die and logical tile of holding tile `k`: the extents in order, rows ascending, columns 0 to 63. -/
def tileOfExtents : List (Nat × Nat × Nat) → Nat → Option (Nat × Nat)
  | [], _ => none
  | e :: l, k => if k < 64 * e.2.2 then some (e.1, e.2.1 * 64 + k) else tileOfExtents l (k - 64 * e.2.2)

def GlCtx.tileAt (c : GlCtx) (k : Nat) : Option (Nat × Nat) := tileOfExtents c.extents k

/-- Bytes of a 2,048-element segment of the context's KV_FORMAT. -/
def GlCtx.seg (c : GlCtx) : Nat := match elemOf c.kvFmt with
  | some (.mx f) => segBytes f
  | _ => 0

/-- Bytes of K, and of V; and BALE_BYTES (*Bale sizes*). -/
def GlCtx.partBytes (c : GlCtx) : Nat := c.d / 8 * c.seg
def GlCtx.baleBytes (c : GlCtx) : Nat := 2 * c.partBytes + 2 * c.d

/-- The tile and the offset of Bale `b` (R315). -/
def GlCtx.baleAt (c : GlCtx) (b : Nat) : Option (Nat × Nat × Nat) :=
  (c.tileAt (b % max c.nt 1)).map (fun x => (x.1, x.2, c.base + b / max c.nt 1 * c.baleBytes))

/-- The bytes that a GLEAN_KV writes, and where in the Bale, or nothing where it breaks R317. -/
def kvPart (c : GlCtx) (p : Packet) : Option (Nat × List Byte) :=
  let e := p.elemBase
  let bytes := p.h.units * 64
  if p.elemFormat = 4 ∧ e = 512 * c.d ∧ 2 * c.d ≤ bytes ∧ allZero (p.data.drop (2 * c.d)) then some (2 * c.partBytes, p.data.take (2 * c.d))
  else
    let top := if e < 256 * c.d then 256 * c.d else 512 * c.d
    if p.elemFormat = c.kvFmt ∧ e < 512 * c.d ∧ e % 2048 = 0 ∧ bytes % max c.seg 1 = 0 ∧ e + bytes / max c.seg 1 * 2048 ≤ top then
      some (e / 2048 * c.seg, p.data.take bytes)
    else none

/-- The die, tile, offset and bytes of a GLEAN_KV; nothing where it is refused as MALFORMED (R298, R314, R317). -/
def kvPlace (s : State) (p : Packet) : Option (Nat × Nat × Nat × List Byte) :=
  match s.ctx p.glContext with
  | none => none
  | some c =>
    if c.lost ∨ c.field ≠ p.h.field ∨ c.rank ≠ p.h.dstRank ∨ c.nBales ≤ p.baleIndex then none
    else match kvPart c p, c.baleAt p.baleIndex with
      | some (o, l), some (d, t, b) => some (d, t, b + o, l)
      | _, _ => none

end Sys2Proof.Machine
end

