-- ==== Sys2Proof/Machine/Arrival.lean ====
section
/-! DEFINITION. Packets entering the switch core: the arrival checks of a port NI (R127) and Road Book slots (R177, R178),
the packets a device originates (R92, R116, R159), NAKs (R100), fault reports of the Hedge (R35), and the Crossing
Matcher's frame (R145 to R150). -/

namespace Sys2Proof.Machine

/-! ## Where a packet goes -/

/-- Where check 9 sends a packet: the slice's die and output (5: the management logic), the destination tile, whether
another device comes next, and whether it ends in a tile, engine or unit of this device. -/
structure RouteTo where
  die : Nat
  out : Nat
  tile : Nat
  forward : Bool
  here : Bool
  deriving DecidableEq, Repr

/-- The manager half-ports (R432). -/
def State.isMgrHalf (s : State) (h : Nat) : Bool := s.fbit F.DV_MGR_PORTS_MGR_HALF h

/-- The types of the manager (R432). -/
def mgrType (t : Nat) : Bool := t = 0x20 || t = 0x21 || t = 0x8F

/-- The local rank block of a packet for this device, in the version that TV names (R127): where a tile row, or a partner whatever its
link's state, has it go; else MALFORMED. -/
def localRoute (s : State) (d : Nat) (p : Packet) : Option RouteTo :=
  let h := p.h
  (s.slotOf h.field).bind (fun slot =>
    let b := s.rankBlock h.tv d slot h.dstRank
    if b.device ≠ s.device then none
    else if b.kind = 1 ∧ b.lrow < s.rowsPerDie then
      if h.typ = 0x88 then (kvPlace s p).map (fun x => ⟨x.1, 2, x.2.1, false, true⟩)
      else some ⟨b.die, localOut p, rankTile b h.dstRank, false, true⟩
    else if b.kind = 2 then some ⟨b.half / 2, b.half % 2, 0, false, false⟩
    else none)

/-- Check 9 (R119, R124, R127, R432): nothing on a discard with no counter of its own; else a NAK code. -/
def routeFor (s : State) (d : Nat) (p : Packet) : Except (Option Nat) RouteTo :=
  let h := p.h
  if h.dstDevice ≠ s.device then
    match candidates s d h with
    | [] => .error (some 1)
    | l => let c := chooseLink s d h l
           .ok ⟨c / 2, c % 2, 0, true, false⟩
  else if fieldless h.typ then
    if h.typ = 0x21 ∨ (h.typ = 0x8F ∧ p.byte 25 = 2) then
      let c := h.dstRank % 16
      if s.isMgrHalf c && s.linkCarries c then .ok ⟨c / 2, c % 2, 0, false, false⟩ else .error none
    else .ok ⟨d, 5, 0, false, true⟩
  else
    match localRoute s d p with
    | none => .error (some 4)
    | some r => if r.here || s.linkCarries (r.die * 2 + r.out) then .ok r else .error (some 1)

/-- A choice among candidates was made: an unordered one moves the rotation pointer (R121). -/
def chosen (d : Nat) (h : Hdr) (r : RouteTo) (s : State) : State := if r.forward then advanceRot d h s else s

/-- The header a packet leaves a check with: HOP_LIMIT is one less towards another device, and TAILBACK is marked where
a leaving output is congested (R92, R126). -/
def routedHdr (s : State) (d : Nat) (decr : Bool) (r : RouteTo) (h : Hdr) : Hdr :=
  let h := if r.forward && decr then { h with hop := h.hop - 1 } else h
  if r.here then h else markTailback s d (r.die * 2 + r.out) h

/-! ## Hedge refusals (R35) -/

/-- DETAIL of a HEDGE event: the checker, the Field, the half-port or logical tile. -/
def hedgeDetail (checker field place : Nat) : List Byte := beBytes 1 checker ++ beBytes 2 field ++ beBytes 2 place

/-- The first checker refuses a packet from a link: counted and logged, no fault. -/
def hedgeEdge (h field : Nat) (s : State) : State :=
  (s.bump F.NI_DROP_B_HEDGE [h / 2]).log 0x08 0x01 (h / 2) (hedgeDetail 1 field h) field

/-- A refusal that is a fault: code 2 by the second checker, 3 by the first of tile-originated traffic. -/
def hedgeFault (d code field place : Nat) (s : State) : State :=
  let s := s.bump F.NI_DROP_B_HEDGE [d]
  s.report ⟨3, false, [3, d], d, d, field, none, false, 0x08, code, false, hedgeDetail (if code = 2 then 2 else 1) field place⟩

/-! ## Storing a packet -/

/-- Store a packet whose route is known, unscheduled: cells for all of it, or nothing (check 13). -/
def storeAt (p : Packet) (r : RouteTo) (input : Input) (made : Bool) (s : State) : Option (Nat × State) :=
  let o := ownerOf s r.die p r.here input
  match allocate r.die o (cellsFor p) r.out (queueOf p.h.cls) s with
  | none => none
  | some (cs, s) =>
    let k : Pkt := { p := p, die := r.die, out := r.out, q := queueOf p.h.cls, owner := o, cells := cs, input := input, produced := made, dstTile := r.tile, issuedAt := s.now }
    let k := if made then { k with arrived := cs.length, tagOk := true } else k
    some (storePkt k s)

/-- Store a scheduled packet in the cells its record reserves for position `k` (R178). -/
def storeSched (p : Packet) (rec : RbRecord) (step k tile : Nat) (input : Input) (made : Bool) (s : State) : Nat × State :=
  let d := rec.outDie
  let cs := (List.range rec.perPkt).map (fun i => rec.base + k * rec.perPkt + i)
  let s := chargeCells (markCells d 0 (allocStamp s) cs true s) d 0 cs.length false
  let run := s.runOf rec.index step
  let s := s.setRun rec.index { run with accepted := run.accepted + 1 }
  let q : Pkt := { p := p, die := d, out := rec.output, q := 0, owner := 0, cells := cs, input := input, produced := made, dstTile := tile, issuedAt := s.now, rbSlot := some rec.index, rbStep := step }
  storePkt (if made then { q with arrived := cs.length, tagOk := true } else q) s

/-! ## Originating packets (R92, R116, R159) -/

/-- The header of a response to `p` (R100, R116): the ranks swapped, the same Field and tag; an answer to a marked
data-class packet carries the echo (R102). -/
def respHdr (s : State) (p : Hdr) (typ cls units : Nat) : Hdr :=
  { cls := cls, tailback := if p.cls = 1 ∧ p.tailback = 1 then 2 else 0, tv := s.fld F.SG_CTRL_CURRENT, typ := typ,
    units := units, field := p.field, tagEpoch := p.tagEpoch, tagIndex := p.tagIndex, dstDevice := p.srcDevice,
    srcDevice := s.device, dstRank := p.srcRank, srcRank := p.dstRank, depart := departOf s.now }

/-- Step 3 of R116 for a response: the device of DST_RANK, in the CURRENT version; without a slot for the Field, towards
the device the answered packet came from. -/
def respTranslate (s : State) (d : Nat) (h : Hdr) : Option Hdr :=
  match s.slotOf h.field with
  | none => some h
  | some slot =>
    let b := s.rankBlock (s.fld F.SG_CTRL_CURRENT) d slot h.dstRank
    if b.kind = 1 ∨ b.kind = 2 then some { h with dstDevice := b.device } else none

/-! ## Checks 9 to 13 for a scheduled packet (R177) -/

/-- What the checks decide: consumed here; discarded and counted in a field; a Hedge refusal at the edge, or by the second
checker after a link was chosen or not; a NAK; a Road Book slot's record, step, position and tile, or that its producer must wait for that
slot; or a route, with the header as it goes on. -/
inductive Decision where
  | consume
  | discard (f : Fld) (k : List Nat)
  | quiet
  | edge
  | second (die place : Nat) (chose : Bool)
  | nak (code : Nat)
  | slot (p : Packet) (r : RbRecord) (step k tile : Nat)
  | hold (r : RbRecord)
  | route (p : Packet) (r : RouteTo)
  deriving Repr

/-- The output of a record leads to the destination of a packet: the local output of its route, or a link that the Signposts name (R294). -/
def towards (s : State) (d : Nat) (rt : RouteTo) (p : Packet) (r : RbRecord) : Bool :=
  if p.h.dstDevice = s.device then r.outDie = rt.die && r.output = rt.out
  else r.outKind = 0 && (tabGet 0 s.ni.posts [p.h.tv, d, p.h.dstDevice]).testBit r.outUnit

/-- What becomes of a scheduled control packet that a Sheaf slice of die `d` hands to the sequencer (R294): it goes to the live record of its
slice, its Field and its destination whose departure window ends next, at once when the arrival window has opened, and as a late packet when
that window has passed; before it opens the slice waits. The record, its step and the position; or a wait; or a NAK code. -/
def sheafHandover (s : State) (d : Nat) (rt : RouteTo) (p : Packet) : Except (Option Nat × Option RbRecord) (RbRecord × Nat × Nat) :=
  let all := s.liveRecords.filter (fun r => r.inKind = 2 && r.inUnit = d && r.cls = 0 && r.field = p.h.field && towards s d rt p r)
  let stepFor (r : RbRecord) : Nat := match s.stepOf s.now (16 * (r.dep + r.len) : Nat) with
    | some (k, _) => k + 1
    | none => 0
  let ends (r : RbRecord) : Nat := stepFor r * s.periodUnits + 16 * (r.dep + r.len)
  let room := all.filter (fun r => decide ((s.runOf r.index (stepFor r)).accepted < r.pkts))
  match room.foldl (fun best r => match best with
      | none => some r
      | some b => if ends r < ends b then some r else some b) none with
  | none => .error (some 5, none)
  | some r =>
    let k := stepFor r
    if s.now < s.fld F.RB_EPOCH_COUNT + k * s.periodUnits + 16 * r.arr then .error (none, some r)
    else .ok (r, k, (s.runOf r.index k).accepted)

/-- The record that takes a scheduled packet, its step and position; or the decision without one. -/
def handover (s : State) (kind unit d : Nat) (rt : RouteTo) (p : Packet) : Except Decision (RbRecord × Nat × Nat) :=
  if kind = 2 ∧ p.isControl then
    match sheafHandover s d rt p with
    | .ok x => .ok x
    | .error (_, some r) => .error (.hold r)
    | .error (c, none) => .error (.nak (c.getD 5))
  else match schedArrival s kind unit p with
    | .ok x => .ok x
    | .error c => .error (.nak c)

/-- Checks 9 to 13 for a scheduled packet from input (`kind`, `unit`) on die `d`. Check 9 tests only that the local rank block is valid.
`decr` says that HOP_LIMIT falls towards another device, `handoff` that a fence lets the packet pass (R404). -/
def schedChecks (s : State) (kind unit d : Nat) (p : Packet) (decr handoff : Bool) : Decision :=
  let mine := p.h.dstDevice = s.device
  match (if mine then localRoute s d p else some ⟨0, 0, 0, true, false⟩) with
  | none => .nak 4
  | some rt =>
    if rt.here && s.fieldSilent p.h.field then .quiet
    else if rt.here && s.fieldFenced p.h.field && !handoff then .nak 6
    else if rt.here && s.gateClosedFor rt.die rt.tile p.h.field then .nak 1
    else
      match handover s kind unit d rt p with
      | .error x => x
      | .ok (r, step, k) =>
        if r.outKind = 0 && !s.map2 r.outUnit p.h.field then .second r.outDie r.outUnit false
        else
          let q := if mine || !decr then p else { p with h := { p.h with hop := p.h.hop - 1 } }
          .slot q r step k rt.tile

/-- The kind of an input in a Road Book record (R174). -/
def Input.rbKind : Input → Nat
  | .half _ => 0
  | .tile _ _ => 1
  | .sheaf _ => 2
  | _ => 3

/-- A packet waits for cells; its requester repeats the request (R159). -/
def waitFor (pk : Pkt) (kind : WaitKind) (s : State) : State :=
  { s with gran := { s.gran with nextPid := s.gran.nextPid + 1, waits := s.gran.waits ++ [⟨s.gran.nextPid, pk, s.now, kind⟩] } }

/-- Among `l`, a packet of the same input, output and class, or an ordered one of the same flow, already waits for cells: this one may
not pass it (R125, R151). -/
def mustWait (l : List Wait) (input : Input) (die out : Nat) (p : Packet) : Bool :=
  l.any (fun w => w.pk.input = input &&
    ((w.pk.die = die && w.pk.out = out && w.pk.q = queueOf p.h.cls) ||
     (p.h.ord = 1 && w.pk.p.h.ord = 1 && w.pk.p.h.field = p.h.field && w.pk.p.h.srcRank = p.h.srcRank && w.pk.p.h.dstRank = p.h.dstRank &&
      w.pk.p.h.tv = p.h.tv)))

/-- What a packet made here meets from check 9 on: the NAK code of the check that refuses it, or the state in which it is
stored, waits for cells, or has been discarded with no answer. -/
def launch (d : Nat) (p : Packet) (input : Input) (kind : WaitKind) (handoff : Bool) (s : State) : Except Nat State :=
  if schedClass p.h.cls then
    match schedChecks s input.rbKind d d p false handoff with
    | .nak c => .error c
    | .slot q r step k tile => .ok (storeSched (sealCheck q) r step k tile input true s).2
    | .hold r => .ok (waitFor { p := p, die := r.outDie, out := r.output, q := 0, owner := 0, input := input, handoff := handoff } kind s)
    | .second die place _ => .ok (hedgeFault die 0x02 p.h.field place s)
    | _ => .ok s
  else
    match routeFor s d p with
    | .error none => .ok s
    | .error (some c) => .error c
    | .ok r =>
      let s := chosen d p.h r s
      if r.here && !fieldless p.h.typ && s.fieldFenced p.h.field && !handoff then .error 6
      else if r.here && !fieldless p.h.typ && s.gateClosedFor r.die r.tile p.h.field then .error 1
      else if !r.here && !fieldless p.h.typ && !s.map2 (r.die * 2 + r.out) p.h.field then
        .ok (hedgeFault r.die 0x02 p.h.field (r.die * 2 + r.out) s)
      else
        let p := sealCheck { p with h := routedHdr s d false r p.h }
        match (if mustWait s.gran.waits input r.die r.out p then none else storeAt p r input true s) with
        | some (pid, s) =>
          .ok (match s.pkt pid with
            | some k => s.setPkt pid (some { k with handoff := handoff })
            | none => s)
        | none =>
          let pk : Pkt := { p := p, die := r.die, out := r.out, q := queueOf p.h.cls, owner := ownerOf s r.die p r.here input, input := input, produced := true, dstTile := r.tile, handoff := handoff, tagOk := true }
          .ok (waitFor pk kind s)

/-- How a response of an input waits for cells: an engine slice holds the request (R159). -/
def respWait (d : Nat) (input : Input) : WaitKind := if input.isSheaf || input.isEngine then .engine d 0 4096 else .response

/-- A response leaves an NI of die `d` (R116, R131, R159): one that finds no time, no translation or no route is
discarded and counted. -/
def sendResponse (d : Nat) (p : Packet) (input : Input) (s : State) : State :=
  if !s.timeValid && !mgrType p.h.typ then s.bump F.NI_DROP_A_NO_TIME [d]
  else
    match (if fieldless p.h.typ then some p.h else respTranslate s d p.h) with
    | none => s.bump F.NI_DROP_B_MALFORMED [d]
    | some h =>
      match launch d { p with h := h } input (respWait d input) false s with
      | .ok s => s
      | .error 4 => s.bump F.NI_DROP_B_MALFORMED [d]
      | .error 6 => s.bump F.NI_DROP_B_FENCED [d]
      | .error _ => s.bump F.NI_DROP_B_UNREACHABLE [d]

/-- The payload of a NAK (*NAK payload*). -/
def nakBody (s : State) (p : Hdr) (code role : Nat) : List Byte :=
  beBytes 1 code ++ beBytes 1 p.typ ++ beBytes 1 p.cls ++ beBytes 1 role ++ beBytes 6 p.depart ++ beBytes 2 s.device
    ++ List.replicate 20 0

/-- Types a NAK never answers (R100). -/
def nakless (t : Nat) : Bool := t = 0x03 || t = 0x04 || t = 0x05 || linkLocal t || fieldless t

/-- An NI of die `d` answers a packet with a NAK. -/
def sendNak (d : Nat) (p : Packet) (code role : Nat) (input : Input) (s : State) : State :=
  if nakless p.h.typ || s.fieldSilent p.h.field then s
  else sendResponse d { h := respHdr s p.h 0x04 0 0, body := nakBody s p.h code role } input s

/-! ## Arrival checks (R127) -/

/-- The checks of *Arrival checks*, in order. The table does not say what 'a local destination' is in checks 10 and 11: here it is a tile or
an engine slice of this device, so that a packet for a partner behind one of its half-ports passes them by (DESIGN CHOICE, log 168). -/
def arrivalDecision (s : State) (h : Nat) (p : Packet) : Decision :=
  let d := h / 2
  let mgr := mgrType p.h.typ
  if !formatOk p then .nak 4
  else if linkLocal p.h.typ then .consume
  else if (fieldless p.h.typ && s.isEndpoint h && !(mgr && s.isMgrHalf h)) then .discard F.DV_MGR_STAT_PORT_REFUSED []
  else if !fieldless p.h.typ && !s.map1 h p.h.field then .edge
  else if !mgr && !s.timeValid then .discard F.NI_DROP_A_NO_TIME [d]
  else if !mgr && s.ahead p.h then .nak 4
  else if !mgr && s.aged p.h then .discard F.NI_DROP_A_AGED [d]
  else
    let h7 : Option Hdr := if p.h.tr = 1 then some p.h
      else if fieldless p.h.typ ∨ (!s.isEth h ∧ s.fld F.PH_LINK_PARTNER_ROLE (hp h) ≠ 1) then none
      else translate s d (srcFromLink s h) p.h
    match h7 with
    | none => .nak 4
    | some hd =>
      let p := { p with h := hd }
      if !s.verUsable hd.tv then .discard F.NI_DROP_A_TABLE [d]
      else if hd.dstDevice ≠ s.device ∧ hd.hop = 0 then .discard F.LK_DROP_HOP_LIMIT (hp h)
      else if schedClass hd.cls then schedChecks s 0 h d p true false
      else
        match routeFor s d p with
        | .error none => .quiet
        | .error (some c) => .nak c
        | .ok r =>
          if fieldless hd.typ then .route { p with h := routedHdr s d true r hd } r
          else if r.here && s.fieldSilent hd.field then .quiet
          else if r.here && s.fieldFenced hd.field then .nak 6
          else if r.here && s.gateClosedFor r.die r.tile hd.field then .nak 1
          else if !r.here && !s.map2 (r.die * 2 + r.out) hd.field then .second r.die (r.die * 2 + r.out) r.forward
          else .route { p with h := routedHdr s d true r hd } r

/-- The counter of a refusal, by NAK code (*Arrival checks*, R159, R177). -/
def countNak (d code : Nat) (s : State) : State :=
  match code with
  | 1 => s.bump F.NI_DROP_B_UNREACHABLE [d]
  | 3 => s.bump F.GK_DROP_BUSY [d]
  | 4 => s.bump F.NI_DROP_B_MALFORMED [d]
  | 5 => s.bump F.RB_LATE_LATE_NAK [d]
  | 6 => s.bump F.NI_DROP_B_FENCED [d]
  | _ => s

/-- A packet that takes no cells is kept for the tag check in a stage: a refused one, where code 0 asks for no NAK, or a link-local one;
`die` is the one whose counters a refusal concerns. -/
def holdAside (h die : Nat) (p : Packet) (stage : Stage) (s : State) : Nat × State :=
  let pid := s.gran.nextPid
  let s := { s with gran := { s.gran with nextPid := pid + 1 } }
  let k : Pkt := { p := p, die := die, out := 5, q := queueOf p.h.cls, owner := 4, input := .half h, stage := stage, issuedAt := s.now }
  (pid, s.setPkt pid (some k))

def holdRefused (h : Nat) (p : Packet) (code : Nat) (s : State) : Nat × State := holdAside h (h / 2) p (.refused code) s

/-- Carry out a decision: the number of the packet that the tag check will name. -/
def arrive (h : Nat) (p : Packet) (s : State) : Nat × State :=
  let d := h / 2
  match arrivalDecision s h p with
  | .consume => holdAside h d p .neighbour s
  | .quiet => holdRefused h p 0 s
  | .discard f k => holdRefused h p 0 (s.bump f k)
  | .edge => holdRefused h p 0 (hedgeEdge h p.h.field s)
  | .second die place chose =>
    holdRefused h p 0 (hedgeFault die 0x02 p.h.field place (if chose then advanceRot d p.h s else s))
  | .nak c => holdRefused h p c s
  | .hold _ => holdRefused h p 5 s
  | .slot q r step k tile => storeSched q r step k tile (.half h) false s
  | .route q r =>
    let s := chosen d q.h r s
    match storeAt q r (.half h) false s with
    | some x => x
    | none =>
      if p.isControl then holdRefused h p 0 (s.bump F.GK_DROP_CONTROL [r.die])
      else holdAside h r.die p (.refused 3) s

/-- The header of the packet that starts at a unit position has come: the checks run, and the packet waits for its units and its tag,
which must be the one its bytes call for under a key that is held (R97, R98, R127). -/
def headerArrival (h : Nat) (p : Packet) (at_ : Nat) (s : State) : State :=
  let kpOk := s.kpHeld h p.h.kp
  let s := takePhase h p.h.kp s
  let want := if kpOk then hopTag s h at_ p else []
  let (pid, s) := arrive h p s
  updRx h at_ (fun x => { x with pid := some pid, want := want }) s

/-- A packet's header arrives on a link in UP. A KEY_HS packet meets check 1 alone: it is not sealed, and its message is a command of its
own (R86, R98). -/
def packetArrival (h : Nat) (p : Packet) (s : State) : State :=
  if s.link h ≠ 4 ∨ s.isEth h then s
  else if p.h.typ = 0x12 then (if formatOk p then s else s.bump F.NI_DROP_B_MALFORMED [h / 2])
  else
    let s := awaitHeader h p s
    match (s.half h).rxq.find? (fun x => x.pid.isNone) with
    | some x => if x.bad then discardHeader h x s else headerArrival h p x.pos s
    | none => s

/-! ## Eligibility (R143) -/

/-- A scheduled packet of the step counts as eligible, and is queued for its due instant (R179, R180). -/
def schedEligible (pid : Nat) (k : Pkt) (i : Nat) (s : State) : State :=
  match s.record i with
  | none => failPkt pid 7 s
  | some r =>
    let s := linkOne pid k s
    let run := s.runOf r.index k.rbStep
    s.setRun r.index { run with eligible := run.eligible + 1 }

/-- All units are written and the tag has passed: an unscheduled packet is linked in its input's order, a scheduled one by
its record (R143, R151, R179). -/
def eligible (pid : Nat) (s : State) : State :=
  match s.pkt pid with
  | some k =>
    if k.stage = .filling ∧ k.tagOk ∧ k.cells.length ≤ k.written then
      match k.rbSlot with
      | some i => schedEligible pid k i s
      | none => makeReady pid s
    else s
  | none => s

/-- The tag of a packet from a link passes or fails: a refused packet is now counted and answered, a stored one may become eligible
(R99, R127, R143, R159, R177). -/
def tagVerdict (h pid : Nat) (ok : Bool) (s : State) : State :=
  match s.pkt pid with
  | none => if ok then s else cipherFail h s
  | some k =>
    if !ok then cipherFail h (discardPkt pid (2 + h % 2) s)
    else
      match k.stage with
      | .refused 0 => s.setPkt pid none
      | .refused c => sendNak (h / 2) k.p c 0 .mgmt (countNak k.die c (s.setPkt pid none))
      | .filling => eligible pid (s.setPkt pid (some { k with tagOk := true }))
      | .neighbour => s.setPkt pid (some { k with stage := .passed, tagOk := true })
      | _ => s

/-- PACKET_ELIGIBLE: the tag of a data packet is checked once all its units have come, and a packet that fails is freed; one whose tag
has passed is linked once it is written. The tag of a control packet comes in a SEAL unit. -/
def packetEligible (pid : Nat) (tag : List Byte) (s : State) : State :=
  match s.rxOf pid with
  | some (h, x) =>
    if x.control ∨ 0 < x.left then s
    else
      let s := removeRx h x.pos s
      if x.bad then s else tagVerdict h pid (decide (tag = x.want)) s
  | none => eligible pid s

/-- SEAL_UNIT: the tags of the control packets that the earliest SEAL unit not yet checked covers, in sending order (R97, R99); a unit
that no block has brought takes the next position. -/
def sealUnit (h : Nat) (unit : List Byte) (s : State) : State :=
  if s.link h ≠ 4 ∨ s.isEth h ∨ unitType unit ≠ 1 ∨ unitArg unit < 1 ∨ 3 < unitArg unit then s
  else
    let s := if (s.half h).seals = [] then position h (some ⟨3, unit⟩) s else s
    match (s.half h).seals with
    | [] => s
    | at_ :: rest =>
      let r := s.half h
      let mine (x : RxPacket) : Bool := x.sealAt = some at_ && x.control
      let q := (r.rxq.filter (fun x => !(mine x && x.pid.isSome))).map (fun x => if mine x then { x with bad := true } else x)
      (s.setHalf h { r with seals := rest, rxq := q }).forAll (r.rxq.filter (fun x => mine x && !x.bad)) (fun x s =>
        match x.pid with
        | some pid => if s.link h ≠ 4 then s else tagVerdict h pid (decide (unitTag unit (x.pos + unitArg unit - at_) = x.want)) s
        | none => s)

/-! ## The Crossing Matcher (R145 to R150) -/

/-- A requester of the matcher: an arrival stage, or a die's TILE, SHEAF or ENGINE. -/
inductive Requester where
  | stage (h : Nat)
  | sheaf (d : Nat)
  | tile (d : Nat)
  | engine (d : Nat)
  deriving DecidableEq, Repr

def Requester.die : Requester → Nat
  | .stage h => h / 2
  | .sheaf d => d
  | .tile d => d
  | .engine d => d

def Requester.limit : Requester → Nat
  | .stage _ => 1
  | _ => 4

/-- The requester of a stored packet's cells (R146). What a port NI or the management logic makes has no requester in that list: here TILE
of the packet's own slice, with no crossing (DESIGN CHOICE, log 169). -/
def requesterOf (k : Pkt) : Requester :=
  match k.input with
  | .half h => .stage h
  | .tile d _ => .tile d
  | .sheaf d => .sheaf d
  | .engine d => .engine d
  | .mgmt => .tile k.die

def requesterKey : Requester → List Nat
  | .stage h => [0, h]
  | .sheaf d => [1, d]
  | .tile d => [2, d]
  | .engine d => [3, d]

/-- Unscheduled packets with allocated cells not yet written, oldest first, with how many cells each offers. -/
def offers (s : State) : List (Nat × Pkt × Nat) :=
  s.gran.pkts.filterMap (fun e =>
    match e.2 with
    | some k => if k.stage = .filling ∧ k.rbSlot = none ∧ k.written < min k.arrived k.cells.length then
        some (e.1.headD 0, k, min k.arrived k.cells.length - k.written) else none
    | none => none)

/-- Slots a frame has used: writes by slice, crossings by [source, destination]; what each requester has accepted; the
slice each accepted first, and the source die each arbiter served first, for the next frame's rotation. -/
structure FrameUse where
  writes : Tab Nat := []
  cross : Tab Nat := []
  took : Tab Nat := []
  firstDst : Tab (Option Nat) := []
  firstSrc : Tab (Option Nat) := []
  deriving DecidableEq, Repr

/-- A slice has a write slot left, and the crossing into it a slot (R145). -/
def slotFree (u : FrameUse) (src dst : Nat) : Bool :=
  decide (tabGet 0 u.writes [dst] < 12) && (src = dst || decide (tabGet 0 u.cross [src, dst] < 2))

def useSlot (u : FrameUse) (src dst : Nat) : FrameUse :=
  { u with writes := tabSet 0 u.writes [dst] (tabGet 0 u.writes [dst] + 1),
           cross := if src = dst then u.cross else tabSet 0 u.cross [src, dst] (tabGet 0 u.cross [src, dst] + 1) }

/-- The XM_SHARE cycle of a slice: slot s appears SHARE_s times, in slot order; the rest belong to no slot (R148). -/
def shareCycle (s : State) (q : Nat) : List (Option Nat) :=
  let owned := (List.range 16).flatMap (fun n => List.replicate (s.fld (F.XM_SHARE n) [q]) (some n))
  owned ++ List.replicate (16 - owned.length) none

/-- One packet's single-cell request at a slice: requester, packet number, Field slot. -/
structure Ask where
  req : Requester
  pid : Nat
  slot : Nat
  deriving DecidableEq, Repr

/-- The requests at slice `q`, one per cell, each requester at most its limit. Packets of no Field slot share a seventeenth place, 16, in
the round-robin of R148, which names Field slots alone (DESIGN CHOICE, log 170). -/
def asksAt (s : State) (q : Nat) : List Ask :=
  let all := ((offers s).filter (fun o => o.2.1.die = q)).flatMap (fun o =>
    List.replicate o.2.2 (⟨requesterOf o.2.1, o.1, (s.slotOf o.2.1.p.h.field).getD 16⟩ : Ask))
  all.foldl (fun acc a => if (acc.filter (fun b => b.req = a.req)).length < a.req.limit then acc ++ [a] else acc) []

/-- Source dies in the order a grant arbiter serves them: from the die after the one it served first (R147). -/
def rotated (start n : Nat) : List Nat := (List.range n).map (fun i => (start + 1 + i) % n)

/-- Grants of a tier in a fixed order, while slots are free. -/
def grantAll (q : Nat) : List Ask → FrameUse → List Ask → List Ask × FrameUse
  | [], u, acc => (acc, u)
  | a :: t, u, acc =>
    if slotFree u a.req.die q then grantAll q t (useSlot u a.req.die q) (acc ++ [a]) else grantAll q t u acc

/-- The TILE and ENGINE tier of R148: the walk of the share cycle, at most `fuel` grants. -/
def grantShared (q : Nat) (cycle : List (Option Nat)) : Nat → Nat → Nat → List Ask → FrameUse → List Ask →
    List Ask × FrameUse × Nat × Nat
  | 0, pos, rr, _, u, acc => (acc, u, pos, rr)
  | fuel + 1, pos, rr, asks, u, acc =>
    let able := asks.filter (fun a => slotFree u a.req.die q)
    match able with
    | [] => (acc, u, pos, rr)
    | _ =>
      let owner := cycle.getD (pos % 16) none
      let mine := match owner with
        | some n => able.find? (fun (a : Ask) => a.slot = n)
        | none => none
      let (pick, rr) := match mine with
        | some a => (some a, rr)
        | none =>
          let next := (List.range 17).map (fun i => (rr + 1 + i) % 17)
          match next.findSome? (fun n => able.find? (fun (a : Ask) => a.slot = n)) with
          | some a => (some a, a.slot)
          | none => (none, rr)
      match pick with
      | none => (acc, u, pos, rr)
      | some a => grantShared q cycle fuel (pos + 1) rr (asks.erase a) (useSlot u a.req.die q) (acc ++ [a])

/-- The grants of one round at slice `q`. -/
def grantsAt (s : State) (u : FrameUse) (q : Nat) : List Ask × Nat × Nat :=
  let asks := asksAt s q
  let order := rotated (tabGet 7 s.gran.lastSrc [q]) 8
  let bySrc (l : List Ask) : List Ask := order.flatMap (fun d => l.filter (fun a => a.req.die = d))
  let stages := asks.filter (fun a => match a.req with | .stage _ => true | _ => false)
  let sheafs := bySrc (asks.filter (fun a => match a.req with | .sheaf _ => true | _ => false))
  let tiles := bySrc (asks.filter (fun a => match a.req with | .tile _ => true | _ => false))
  let engines := bySrc (asks.filter (fun a => match a.req with | .engine _ => true | _ => false))
  let (g1, u) := grantAll q stages u []
  let (g2, u) := grantAll q sheafs u []
  let (g3, _, pos, rr) := grantShared q (shareCycle s q) 12 (tabGet 0 s.gran.shareAt [q]) (tabGet 0 s.gran.rrAt [q]) (tiles ++ engines) u []
  (g1 ++ g2 ++ g3, pos, rr)

/-- An accepted grant writes one cell. -/
def writeCell (pid : Nat) (s : State) : State :=
  match s.pkt pid with
  | some k => s.setPkt pid (some { k with written := k.written + 1 })
  | none => s

/-- Accept a round's grants: each requester up to its per-frame limit, destinations in rotating order (R147). -/
def acceptRound (grants : List (Nat × Ask)) (u : FrameUse) (s : State) : FrameUse × State :=
  let reqs := (grants.map (fun g => g.2.req)).dedup
  reqs.foldl (fun acc r =>
    let u := acc.1
    let s := acc.2
    let order := rotated (tabGet 7 s.gran.lastDst (requesterKey r)) 8
    let mine := order.flatMap (fun q => grants.filter (fun g => g.1 = q && g.2.req = r))
    let left := r.limit - tabGet 0 u.took (requesterKey r)
    let take := mine.take left
    let u := take.foldl (fun u g => useSlot u r.die g.1) u
    let u := { u with took := tabSet 0 u.took (requesterKey r) (tabGet 0 u.took (requesterKey r) + take.length) }
    let u : FrameUse := { u with firstDst := tabSet none u.firstDst (requesterKey r) ((tabGet none u.firstDst (requesterKey r)) <|> (take.head?.map (·.1))) }
    let s := take.foldl (fun s g => writeCell g.2.pid s) s
    (u, s)) (u, s)

/-- Rounds a slice's matcher completes in a frame (R149). -/
def State.rounds (s : State) (q : Nat) : Nat := min 3 (s.fld F.PW_PACE_B_PACE4 [q] / 180)

/-- One round over every slice whose matcher completes round number `n` (from 1). -/
def matcherRound (n : Nat) (us : FrameUse × State) : FrameUse × State :=
  let s := us.2
  let live := dies.filter (fun q => decide (n ≤ s.rounds q))
  let gs := live.map (fun q => (q, grantsAt s us.1 q))
  let s := gs.foldl (fun s g =>
    { s with gran := { s.gran with shareAt := tabSet 0 s.gran.shareAt [g.1] (g.2.2.1 % 16), rrAt := tabSet 0 s.gran.rrAt [g.1] g.2.2.2 } }) s
  let u := gs.foldl (fun (u : FrameUse) g =>
    let first := (g.2.1.find? (fun a => match a.req with | .stage _ => false | _ => true)).map (fun a => a.req.die)
    { u with firstSrc := tabSet none u.firstSrc [g.1] ((tabGet none u.firstSrc [g.1]) <|> first) }) us.1
  acceptRound (gs.flatMap (fun g => g.2.1.map (fun a => (g.1, a)))) u s

/-- The next frame's rotations start after what this frame served and accepted first (R147). -/
def turnFrame (u : FrameUse) (s : State) : State :=
  let put (t : Tab Nat) (l : Tab (Option Nat)) : Tab Nat := l.foldl (fun t e => match e.2 with | some x => tabSet 7 t e.1 x | none => t) t
  { s with gran := { s.gran with lastDst := put s.gran.lastDst u.firstDst, lastSrc := put s.gran.lastSrc u.firstSrc } }

/-- Cells of the packet are still to come from its link. -/
def Stage.comes : Stage → Bool
  | .filling | .discarding _ => true
  | _ => false

/-- The packet that a half-port is bringing: its cells come one after another, the earlier packet's first (R79); the copies of one
bridged frame come together. -/
def bringing (s : State) (h : Nat) : List Nat :=
  let l := s.gran.pkts.filterMap (fun e => match e.2 with
    | some k => if k.input = .half h ∧ k.arrived < k.cells.length ∧ k.stage.comes then some (e.1.headD 0, k) else none
    | none => none)
  match l with
  | [] => []
  | (pid, k) :: _ => if k.frame = [] then [pid] else (l.filter (fun e => e.2.frame ≠ [] && e.2.issuedAt = k.issuedAt)).map (·.1)

/-- One more cell of a packet from a link comes: that of a scheduled packet is written at once, and the last one of a packet that has
failed frees its cells. -/
def cellComes (pid : Nat) (s : State) : State :=
  match s.pkt pid with
  | some k =>
    let k := { k with arrived := k.arrived + 1, written := if k.rbSlot.isSome then k.written + 1 else k.written }
    let s := s.setPkt pid (some k)
    match k.stage with
    | .discarding u => if k.cells.length ≤ k.arrived then freePkt pid u s else s
    | _ => s
  | none => s

/-- Cells of packets from links come into the stages: one a frame on a whole port, one every two frames on a half-port, the two halves in
turn, so that a port never offers more than one a frame (R145). -/
def arriveCells (s : State) : State :=
  s.forAll (List.range 16) (fun h s => if s.isWhole h ∨ s.gran.frameNo % 2 = h % 2 then s.forAll (bringing s h) cellComes else s)

/-- A local producer's scheduled cells are written one a frame for each slot (R178). -/
def localWrites (s : State) : State :=
  s.forAll ((s.gran.pkts.filterMap (fun e => e.2.bind (·.rbSlot))).dedup) (fun i s =>
    match s.gran.pkts.find? (fun e => match e.2 with
      | some k => k.rbSlot = some i && k.produced && k.stage = .filling && decide (k.written < k.cells.length)
      | none => false) with
    | some e => writeCell (e.1.headD 0) s
    | none => s)

/-- A port cell would be overwritten in its stage: the packet is discarded and a pace fault of region 4 reported (R150). -/
def overrun (pid : Nat) (k : Pkt) (s : State) : State :=
  let s := (discardPkt pid 8 s).bump F.GK_DROP_STAGE_OVERRUN [k.die]
  s.report ⟨8, false, [8, k.die], k.die, k.die, 0xFFFF, none, false, 0x07, 0x05, false, beBytes 1 4 ++ beBytes 1 4 ++ beBytes 2 (s.fld F.PW_PACE_B_PACE4 [k.die])⟩

/-- What waits in the stage of a half-port, oldest first. -/
def stageOf (s : State) (h : Nat) : List (Nat × Pkt × Nat) := (offers s).filter (fun o => o.2.1.input = .half h)

/-- Cells in a stage: the copies of a bridged frame share theirs. -/
def stageHeld (l : List (Nat × Pkt × Nat)) : Nat :=
  let frames := l.filter (fun o => o.2.1.frame ≠ [])
  ((l.filter (fun o => o.2.1.frame = [])).map (·.2.2)).sum
    + (((frames.map (fun o => o.2.1.issuedAt)).dedup).map (fun t => ((frames.filter (fun o => o.2.1.issuedAt = t)).map (·.2.2)).foldl max 0)).sum

/-- A stage holds 8 cells: with more, the oldest is overwritten. -/
def overruns (s : State) : State :=
  s.forAll (List.range 16) (fun h s =>
    let l := stageOf s h
    match l with
    | (pid, k, _) :: _ => if 8 < stageHeld l then overrun pid k s else s
    | [] => s)

/-- The slots the sequencer removes from the frame: one write for every local-input slot in its arrival window, and one for
every half-port that brings a scheduled packet (R146, R178). -/
def reservedSlots (s : State) : FrameUse :=
  let local_ := s.liveRecords.filter (fun r => r.inKind ≠ 0 && match s.stepOf s.now (16 * r.arr : Nat) with
    | some (_, x) => decide (x < 16 * r.len)
    | none => false)
  let u : FrameUse := local_.foldl (fun u r => useSlot u r.inDie r.outDie) {}
  (List.range 16).foldl (fun u h =>
    match (s.gran.pkts.findSome? (fun e => match e.2 with
      | some k => if k.input = .half h ∧ k.stage = .filling ∧ k.rbSlot.isSome then some k.die else none
      | none => none)) with
    | some d => useSlot u (h / 2) d
    | none => u) u

/-- MATCHER_FRAME: one 320 ps frame of every slice's matcher. -/
def matcherFrame (s : State) : State :=
  let s := localWrites (arriveCells s)
  let (u, s) := matcherRound 3 (matcherRound 2 (matcherRound 1 (reservedSlots s, s)))
  let s := turnFrame u s
  let s := s.forAll dies (fun q s =>
    let s := s.setFld F.XM_STATUS_ROUNDS_LAST (s.rounds q) [q]
    let s := if s.rounds q < 3 then s.bump F.XM_STATUS_FRAMES_SHORT [q] else s
    s.bump F.XM_STATUS_CARRIED [q] (asksAt s q).length)
  let s := overruns s
  { s with gran := { s.gran with frameNo := (s.gran.frameNo + 1) % 2 } }

end Sys2Proof.Machine
end

