-- ==== Sys2Proof/Machine/Waybill.lean ====
section
/-! DEFINITION. Waybills as text (R235 to R237, R247 to R257): their fields, operand descriptors and loop nests, and the checks
made when a slot is armed (R239). -/

namespace Sys2Proof.Machine

/-! ## Fields (R235, R236) -/

/-- Byte `i` of an armed copy. -/
def wbByte (w : List Byte) (i : Nat) : Nat := (w.getD i 0).toNat

/-- Bytes `i` to `i + n - 1`, little-endian. -/
def wbLe (w : List Byte) (i n : Nat) : Nat := leNat ((List.range n).map (fun j => w.getD (i + j) 0))

/-- Bytes `a` to `b` are zero. -/
def wbZero (w : List Byte) (a b : Nat) : Bool := (List.range (b + 1 - a)).all (fun j => wbByte w (a + j) = 0)

def wbOpcode (w : List Byte) : Nat := wbByte w 0
def wbNotify (w : List Byte) : Bool := (wbByte w 1).testBit 0
def wbLateFault (w : List Byte) : Bool := (wbByte w 1).testBit 1
def wbAbsent (w : List Byte) : Bool := (wbByte w 1).testBit 2
def wbCatch (w : List Byte) : Bool := (wbByte w 1).testBit 3
def wbWait (w : List Byte) : Nat := wbLe w 2 2
def wbGateKind (w : List Byte) : Nat := wbByte w 4 % 4
def wbRnd (w : List Byte) : Nat := wbByte w 5 % 8
def wbGate (w : List Byte) : Nat := wbLe w 8 8
def wbStatusOff (w : List Byte) : Nat := wbLe w 112 4

/-- SAT mode of a Waybill's output (MODE.OVF, R206). -/
def wbSat (w : List Byte) (fmt : Nat) : Bool :=
  if (wbByte w 5).testBit 4 then (wbByte w 5).testBit 3 else defaultSat fmt

/-- MODE.INT_WRAP. -/
def wbWrap (w : List Byte) : Bool := (wbByte w 5).testBit 5

/-- The unit that runs an opcode (*Operations*): 0 the MAC array, 1 the lane cores, 2 the Steward, 3 the tile mover, 4 the
Waybill queue. -/
def unitOf (op : Nat) : Option Nat :=
  match op with
  | 0x00 => some 4
  | 0x10 => some 0
  | 0x20 | 0x21 | 0x22 => some 1
  | 0x30 | 0x31 | 0x32 | 0x33 => some 3
  | 0x40 | 0x41 => some 2
  | _ => none

/-- An operand descriptor (R236). -/
structure Opnd where
  base : Nat
  fmt : Nat
  target : Nat
  tid : Nat
  s : List Int
  deriving DecidableEq, Repr

/-- The descriptor that starts at byte `i`: A at 32, B at 48, O at 64. -/
def opndAt (w : List Byte) (i : Nat) : Opnd :=
  ⟨wbLe w i 4, wbByte w (i + 4), wbByte w (i + 5), wbLe w (i + 6) 2,
    (List.range 4).map (fun j => toSigned 16 (wbLe w (i + 8 + 2 * j) 2))⟩

def opA (w : List Byte) : Opnd := opndAt w 32
def opB (w : List Byte) : Opnd := opndAt w 48
def opO (w : List Byte) : Opnd := opndAt w 64

/-! ## Loop nests (R237) -/

/-- The loop counts n0 to n3. -/
def wbCounts (w : List Byte) : List Nat := (List.range 4).map (fun j => wbLe w (24 + 2 * j) 2 + 1)

/-- The instances of a Waybill: one for an opcode without a loop nest. -/
def wbInstances (w : List Byte) : Nat := if wbOpcode w < 0x40 ∧ wbOpcode w ≠ 0 then (wbCounts w).foldl (· * ·) 1 else 1

/-- The point of instance `k`, level 0 first. -/
def loopPoint : List Nat → Nat → List Nat
  | [], _ => []
  | n :: t, k => k % n :: loopPoint t (k / n)

/-- Where instance `k` places an operand: BASE plus 64 times the strides. -/
def instOf (w : List Byte) (x : Opnd) (k : Nat) : Int :=
  (x.base : Int) + 64 * ((List.zipWith (fun (i : Nat) (s : Int) => (i : Int) * s) (loopPoint (wbCounts w) k) x.s).foldl (· + ·) 0)

/-- The least and greatest placement of an operand, over the corners of the loop nest. -/
def cornersOf (w : List Byte) (x : Opnd) : Int × Int :=
  let l := List.zipWith (fun (n : Nat) (s : Int) => ((n : Int) - 1) * s) (wbCounts w) x.s
  ((x.base : Int) + 64 * (l.map (fun v => min v 0)).foldl (· + ·) 0,
    (x.base : Int) + 64 * (l.map (fun v => max v 0)).foldl (· + ·) 0)

/-! ## PARAMS -/

def pLength (w : List Byte) : Nat := wbLe w 80 4
def pFn (w : List Byte) : Nat := wbByte w 84
def pImm (w : List Byte) : Bool := (wbByte w 85).testBit 0
def pScalar (w : List Byte) : Nat := wbLe w 88 8

/-- MATMUL parameters (R248). -/
def mmK (w : List Byte) : Nat := wbLe w 80 2
def mmPitchA (w : List Byte) : Nat := wbLe w 82 3
def mmPitchB (w : List Byte) : Nat := wbLe w 85 3
def mmPitchO (w : List Byte) : Nat := wbLe w 88 3
def mmBT (w : List Byte) : Bool := (wbByte w 91).testBit 0
def mmAcc (w : List Byte) : Bool := (wbByte w 91).testBit 1
def mmMask (w : List Byte) : Nat := wbByte w 91 / 4 % 4
def mmMaskOff (w : List Byte) : Nat := wbLe w 92 3

/-- COPY and FILL parameters (R253). -/
def cpForm (w : List Byte) : Nat := wbByte w 84
def cpWidth (w : List Byte) : Nat := wbByte w 85
def cpCodeOff (w : List Byte) : Nat := wbLe w 86 3

/-- PUT and GET parameters (R257). -/
def pgRank (w : List Byte) : Nat := wbLe w 80 3
def pgWindow (w : List Byte) : Nat := wbByte w 83
def pgOffset (w : List Byte) : Nat := wbLe w 84 5
def pgEpoch (w : List Byte) : Nat := wbByte w 89
def pgOrd (w : List Byte) : Bool := (wbByte w 90).testBit 0
def pgSched (w : List Byte) : Bool := (wbByte w 90).testBit 1
def pgUnits (w : List Byte) : Nat := wbByte w 91

/-- VFLOAT functions of one operand. -/
def unaryFn (fn : Nat) : Bool := fn = 0x06 || decide (0x09 ≤ fn)

/-- VFLOAT reads B from memory. -/
def usesB (w : List Byte) : Bool :=
  (wbOpcode w = 0x20 && !unaryFn (pFn w) && !pImm w) || (wbOpcode w = 0x21 && !pImm w)

/-! ## The checks at an arm (R239) -/

/-- One memory extent of a Waybill: the descriptor, the bytes one instance touches from it, and the boundary its base must
lie on. -/
structure Span where
  x : Opnd
  len : Nat
  align : Nat
  deriving DecidableEq, Repr

/-- The bytes of one element of raw data or of a format. -/
def unitBytes (fmt width : Nat) : Nat :=
  match elemOf fmt with
  | some k => k.size
  | none => width

/-- A format code and WIDTH that name elements: a format with WIDTH zero, or 0x00 with a width of 1, 2, 4 or 8. -/
def rawOk (fmt width : Nat) : Bool :=
  if fmt = 0 then width = 1 || width = 2 || width = 4 || width = 8 else (elemOf fmt).isSome && width = 0

/-- Bytes that `n` elements of raw data or of a format take. -/
def spanBytes (fmt width n : Nat) : Nat :=
  match elemOf fmt with
  | some k => k.span n
  | none => n * width

/-- The worst case of a zero-run form (R254). -/
def packedMax (n w : Nat) : Nat := 8 + n * w + (n + 127) / 128

/-- A and B must be laid out for the MAC arrays (R226, R248): formats equal, or both MX. INT32 output takes INT8 operands; INT8
operands may have a floating output. -/
def macFormats (a b o : Nat) : Bool :=
  match elemOf a, elemOf b, elemOf o with
  | some (.mx _), some (.mx _), some (.flt _) => true
  | some (.mx _), some (.mx _), some .pair => true
  | some (.int true 1), some (.int true 1), some (.int true 4) => true
  | some (.int true 1), some (.int true 1), some (.flt _) => true
  | some (.int true 1), some (.int true 1), some .pair => true
  | some (.flt _), some (.flt _), some (.flt _) => a = b
  | some (.flt _), some (.flt _), some .pair => a = b
  | some .pair, some .pair, some (.flt _) => true
  | some .pair, some .pair, some .pair => true
  | _, _, _ => false

/-- The length of a row or column of K values in a masked or whole operand. -/
def lineLen (k : Nat) (masked : Bool) : Nat := if masked then k / 2 else k

/-- The extents of a MATMUL, or nothing where its format is refused (R248, R249). -/
def matmulSpans (w : List Byte) : Option (List Span) :=
  let a := opA w
  let b := opB w
  let o := opO w
  let k := mmK w
  let mask := mmMask w
  let mx := match elemOf a.fmt with
    | some e => e.isMx
    | none => false
  let ok := macFormats a.fmt b.fmt o.fmt && decide (1 ≤ k) && wbByte w 91 < 16 && wbByte w 95 = 0 && wbRnd w = 0
    && mmPitchA w % 64 = 0 && mmPitchB w % 64 = 0 && mmPitchO w % 64 = 0
    && (!mx || (k % 32 = 0 && mmBT w && mask = 0))
    && (mask = 0 || mask = 3 || k % 8 = 0) && (mask ≠ 2 || mmBT w) && (mask ≠ 3 || !mmBT w)
    && (o.target = 0 || (mmPitchO w = 0 && !mmAcc w))
  if !ok then none
  else match elemOf a.fmt, elemOf b.fmt, elemOf o.fmt with
    | some ea, some eb, some eo =>
      let ra := 63 * mmPitchA w + ea.span (lineLen k (mask = 1))
      let rb := if mmBT w then 63 * mmPitchB w + eb.span (lineLen k (mask = 2))
        else (k - 1) * mmPitchB w + eb.span (if mask = 3 then 32 else 64)
      let codes := if mask = 0 then 0 else if mask = 3 then 8 * k else 64 * (k / 8)
      some ([⟨a, ra, 64⟩, ⟨b, rb, 64⟩] ++ (if o.target = 0 then [⟨o, 63 * mmPitchO w + eo.span 64, 64⟩] else [])
        ++ (if mask = 0 then [] else [⟨⟨mmMaskOff w, 0, 0, 0, []⟩, codes, 1⟩]))
    | _, _, _ => none

/-- The formats of a vector operation are ones it accepts (R250, R251). -/
def vecFormats (w : List Byte) : Bool :=
  let fn := pFn w
  let a := elemOf (opA w).fmt
  let o := elemOf (opO w).fmt
  let b := if usesB w then elemOf (opB w).fmt else a
  let wide := (opA w).fmt = 1 || (opO w).fmt = 1 || (usesB w && (opB w).fmt = 1)
  match wbOpcode w, a, b, o with
  | 0x20, some ea, some eb, some eo =>
    decide (1 ≤ fn ∧ fn ≤ 0x0D) && (ea.isFlt || ea.isMx || (fn = 9 && ea.isInt)) && (eb.isFlt || eb.isMx || (fn = 9 && eb.isInt))
      && (eo.isFlt || eo.isMx || eo.isInt) && (decide (fn < 0x0A) || !wide)
  | 0x21, some ea, some eb, some eo => decide (1 ≤ fn ∧ fn ≤ 0x0B) && ea.isInt && eb.isInt && eo.isInt
  | 0x22, some _, _, some _ =>
    decide (1 ≤ fn ∧ fn ≤ 3)
  | _, _, _, _ => false

/-- The extents of VFLOAT, VINT and VREDUCE. -/
def vecSpans (w : List Byte) : Option (List Span) :=
  let n := pLength w
  let a := opA w
  let b := opB w
  let o := opO w
  let mx (x : Opnd) : Bool := match elemOf x.fmt with
    | some e => e.isMx
    | none => false
  let anyMx := mx a || (usesB w && mx b) || mx o
  let ok := vecFormats w && decide (1 ≤ n ∧ n ≤ 2097152) && wbByte w 85 < 2 && wbZero w 86 87 && (!anyMx || n % 2048 = 0)
    && (usesB w || wbZero w 48 63) && !(wbOpcode w = 0x20 && pFn w = 4 && o.target ≠ 0)
  if !ok then none
  else match elemOf a.fmt, elemOf o.fmt with
    | some ea, some eo =>
      let m := if wbOpcode w = 0x22 then 1 else n
      some ([⟨a, ea.span n, ea.align⟩] ++ (match usesB w, elemOf b.fmt with
          | true, some eb => [⟨b, eb.span n, eb.align⟩]
          | _, _ => [])
        ++ (if o.target = 0 then [⟨o, eo.span m, eo.align⟩] else []))
    | _, _ => none

/-- The extents of COPY (R253 to R255). -/
def copySpans (w : List Byte) : Option (List Span) :=
  let n := pLength w
  let a := opA w
  let o := opO w
  let form := cpForm w
  let wd := cpWidth w
  let mx := decide (0x10 ≤ a.fmt ∧ a.fmt ≤ 0x14)
  let ok := decide (1 ≤ n ∧ n ≤ 2097152) && decide (form ≤ 4) && wbZero w 89 95 && wbZero w 48 63 && rawOk a.fmt wd && rawOk o.fmt wd
    && decide (a.fmt = 0 ↔ o.fmt = 0) && (decide (3 ≤ form) || cpCodeOff w = 0) && (form = 0 || (a.fmt = o.fmt && !mx))
    && (decide (form < 3) || n % 4 = 0) && (form ≠ 0 || a.fmt = o.fmt || wbRnd w = 0)
    && (o.target = 0 || o.fmt ≠ 0)
  if !ok then none
  else
    let es := unitBytes a.fmt wd
    let al := if form ≠ 0 ∨ mx then 64 else es
    let ao := if form ≠ 0 ∨ decide (0x10 ≤ o.fmt ∧ o.fmt ≤ 0x14) then 64 else unitBytes o.fmt wd
    let la := if form = 2 then packedMax n es else if form = 4 then n / 2 * es else spanBytes a.fmt wd n
    let lo := if form = 1 then packedMax n es else if form = 3 then n / 2 * es else spanBytes o.fmt wd n
    some ([⟨a, la, al⟩] ++ (if o.target = 0 then [⟨o, lo, ao⟩] else [])
      ++ (if 3 ≤ form then [⟨⟨cpCodeOff w, 0, 0, 0, []⟩, (n + 7) / 8, 1⟩] else []))

/-- The extents of FILL. -/
def fillSpans (w : List Byte) : Option (List Span) :=
  let n := pLength w
  let o := opO w
  let ok := decide (1 ≤ n ∧ n ≤ 2097152) && cpForm w = 0 && wbZero w 86 87 && wbZero w 32 63 && rawOk o.fmt (cpWidth w)
    && !decide (0x10 ≤ o.fmt ∧ o.fmt ≤ 0x14) && o.target = 0
  if ok then some [⟨o, spanBytes o.fmt (cpWidth w) n, unitBytes o.fmt (cpWidth w)⟩] else none

/-- The extents of PUT and GET (R257). -/
def putGetSpans (w : List Byte) : Option (List Span) :=
  let a := opA w
  let o := opO w
  let put := wbOpcode w = 0x32
  let ok := a.fmt = 0 && o.fmt = 0 && o.target = 0 && wbZero w 48 63 && decide (4 ≤ pgUnits w ∧ pgUnits w ≤ 128)
    && decide (pgRank w < 2 ^ 20) && pgOffset w % 64 = 0 && wbByte w 90 < 4
    && (if put then pgSched w || o.tid = 0 else !pgSched w && wbZero w 93 95 && o.tid = 0)
  if ok then some [⟨a, 64 * pgUnits w, 1⟩] else none

/-- The extents of a compute Waybill, or nothing where FORMAT refuses it. -/
def bodySpans (w : List Byte) : Option (List Span) :=
  match wbOpcode w with
  | 0x10 => matmulSpans w
  | 0x20 | 0x21 | 0x22 => vecSpans w
  | 0x30 => copySpans w
  | 0x31 => fillSpans w
  | 0x32 | 0x33 => putGetSpans w
  | _ => none

/-- Elements one instance streams to an engine (R252); a zero-run form (FORM 0x1) is taken as elements of its format, at most the
worst case of R254. -/
def streamCount (w : List Byte) : Nat :=
  let es := max (unitBytes (opA w).fmt (cpWidth w)) 1
  match wbOpcode w with
  | 0x10 => 4096
  | 0x22 => 1
  | 0x30 => if cpForm w = 3 then pLength w / 2 else if cpForm w = 1 then (packedMax (pLength w) es + es - 1) / es else pLength w
  | _ => pLength w

/-- TARGET and TARGET_ID are ones the operation accepts, and the stream indices stay within a round (R236, R252, R275,
R299, R303, R319). -/
def targetOk (w : List Byte) : Bool :=
  let o := opO w
  let (lo, hi) := cornersOf w o
  let top := hi + streamCount w - 1
  let mx := decide (0x10 ≤ o.fmt ∧ o.fmt ≤ 0x14)
  let whole := !mx || (o.base % 2048 = 0 && streamCount w % 2048 = 0 && o.s.all (fun x => x % 32 = 0))
  let inRound := decide (0 ≤ lo ∧ lo / 2 ^ 28 = top / 2 ^ 28 ∧ top < 2 ^ 32)
  match o.target with
  | 0 => (o.tid = 0 || (wbOpcode w = 0x32 && pgSched w && decide (o.tid < 2 ^ 14)))
  | 1 => whole && inRound
  | 2 => whole && inRound && decide (o.tid < 2 ^ 10) && decide (o.tid / 256 < 2)
  | 3 => whole && decide (0 ≤ lo ∧ top < 2 ^ 32) && decide (o.tid < 4096)
  | 4 => inRound && decide (o.tid < 4096) && decide (3 ≤ o.fmt ∧ o.fmt ≤ 6)
  | _ => false

/-- The fields every Waybill has keep to their layout (R235, R243). -/
def headOk (now : Nat) (w : List Byte) : Bool :=
  wbByte w 1 < 16 && wbByte w 4 < 3 && wbByte w 5 < 64 && wbRnd w ≤ 4 && wbZero w 6 7
    && decide (wbGateKind w = 0 ↔ wbGate w = 0) && (List.range 4).all (fun i => wbLe w (16 + 2 * i) 2 / 1024 % 16 = 0)
    && wbLe w 97 5 % 8 = 0 && decide (wbLe w 102 3 < 2 ^ 20) && wbZero w 106 107 && wbZero w 116 127
    && (!wbAbsent w || wbGateKind w = 1)
    && decide (wbGate w ≤ now + 1000 * 16000000000)

/-- The extents lie in tile memory and their bases are aligned. -/
def spanOk (w : List Byte) (x : Span) : Bool :=
  let (lo, hi) := cornersOf w x.x
  decide (0 ≤ lo ∧ hi + x.len ≤ tileSize) && x.x.base % x.align = 0

/-- STATUS_OFF is none, or aligned and in range. -/
def statusOffOk (w : List Byte) : Bool :=
  wbStatusOff w = 0xFFFFFFFF || (wbStatusOff w % 8 = 0 && decide (wbStatusOff w + 8 ≤ tileSize))

/-- The checks of R239: the status with which the Waybill will complete without running, if any. 0x06 is BOUNDS and 0x07
FORMAT. -/
def armCheck (now : Nat) (w : List Byte) : Option Nat :=
  let bounds : Option Nat := if statusOffOk w then none else some 0x06
  if !headOk now w then some 0x07
  else match wbOpcode w with
    | 0x00 => if wbZero w 24 95 then bounds else some 0x07
    | 0x40 => if wbZero w 29 31 then bounds else some 0x07
    | 0x41 => if wbZero w 27 27 && wbLe w 24 3 % 4 = 0 && decide (1 ≤ wbLe w 28 4) then bounds else some 0x07
    | _ => match bodySpans w with
      | none => some 0x07
      | some l =>
        if wbByte w 37 ≠ 0 ∨ wbByte w 53 ≠ 0 ∨ wbLe w 38 2 ≠ 0 ∨ wbLe w 54 2 ≠ 0 ∨ !targetOk w then some 0x07
        else if l.all (spanOk w) then bounds else some 0x06

end Sys2Proof.Machine
end

