-- ==== Sys2Proof/Machine/TileOps.lean ====
section
/-! DEFINITION. The operations tiles share: Waybill slots, credits, arms, readiness and completion (R232 to R246), the
transaction tags, timers, NAK actions and flow limits of a tile NI (R103, R131 to R134), and engine streams (R252, R291). -/

namespace Sys2Proof.Machine

/-! ## Slots and queues (R231, R232) -/

def State.slot (s : State) (d t n : Nat) : SlotRec := tabGet {} s.tiles.slots [d, t, n]

def State.setSlot (s : State) (d t n : Nat) (r : SlotRec) : State :=
  { s with tiles := { s.tiles with slots := tabSet {} s.tiles.slots [d, t, n] r } }

def State.readyQ (s : State) (d t : Nat) : List Nat := tabGet [] s.tiles.ready [d, t]

def State.setReadyQ (s : State) (d t : Nat) (l : List Nat) : State :=
  { s with tiles := { s.tiles with ready := tabSet [] s.tiles.ready [d, t] l } }

/-- Slots whose push waits on a full ready queue. -/
def State.overQ (s : State) (d t : Nat) : List Nat := tabGet [] s.tiles.overflow [d, t]

def State.setOverQ (s : State) (d t : Nat) (l : List Nat) : State :=
  { s with tiles := { s.tiles with overflow := tabSet [] s.tiles.overflow [d, t] l } }

def State.issueQ (s : State) (d t u : Nat) : List Nat := tabGet [] s.tiles.issue [d, t, u]

def State.setIssueQ (s : State) (d t u : Nat) (l : List Nat) : State :=
  { s with tiles := { s.tiles with issue := tabSet [] s.tiles.issue [d, t, u] l } }

/-- The slot a unit runs. -/
def State.running (s : State) (d t u : Nat) : Option Nat :=
  match tabGet 0 s.tiles.run [d, t, u] with
  | 0 => none
  | n + 1 => some n

def State.setRunning (s : State) (d t u : Nat) (o : Option Nat) : State :=
  { s with tiles := { s.tiles with run := tabSet 0 s.tiles.run [d, t, u] (match o with
    | some n => n + 1
    | none => 0) } }

/-- IEEE flags of a tile: 0 the Steward's, 1 the lane cores' together (R201). -/
def raiseFlags (d t who fl : Nat) (s : State) : State :=
  { s with tiles := { s.tiles with flags := tabSet 0 s.tiles.flags [d, t, who] (tabGet 0 s.tiles.flags [d, t, who] ||| fl) } }

/-! ## Store buffers (R230, R231)

Tile memory as State holds it shows a store once it has been made; a buffer lists the stores that may not have drained. When they
drain is not stated: whether a listed store has drained is asked only where it matters, and is then free. -/

def State.storeBuf (s : State) (d t : Nat) : List BufStore := tabGet [] s.tiles.stores [d, t]

def State.setStoreBuf (s : State) (d t : Nat) (l : List BufStore) : State :=
  { s with tiles := { s.tiles with stores := tabSet [] s.tiles.stores [d, t] l } }

/-- A wait is counted: 0 for STORE_FULL, 1 for PARTIAL_WAIT. -/
def countStall (d t k : Nat) (waits : Bool) (s : State) : State :=
  State.tick { s with tiles := { s.tiles with stalls := tabSet 0 s.tiles.stalls [d, t, k] (min 65535 (tabGet 0 s.tiles.stalls [d, t, k] + b2n waits)) } }

/-- A store and an access of `len` bytes at `a` share a byte. -/
def BufStore.meets (x : BufStore) (a len : Nat) : Bool := decide (a < x.addr + x.len ∧ x.addr < a + len)

/-- The list without its first store of a core: its oldest has drained. -/
def dropOldest (core : Nat) : List BufStore → List BufStore
  | [] => []
  | x :: l => if x.core = core then l else x :: dropOldest core l

/-- A store enters its core's buffer; one that finds eight there pushes as the oldest drains, and may have waited for it. -/
def pushStore (d t : Nat) (x : BufStore) (s : State) : State :=
  let l := s.storeBuf d t
  if (l.filter (fun y => y.core = x.core)).length < 8 then s.setStoreBuf d t (l ++ [x])
  else (countStall d t 0 (Config.storeWaits s.fresh) s).setStoreBuf d t (dropOldest x.core l ++ [x])

/-- The list once every store that meets `p` has drained, with those before it in its buffer. -/
def drainMet (p : BufStore → Bool) : List BufStore → List BufStore
  | [] => []
  | x :: l => if (x :: l).any (fun y => y.core = x.core && p y) then drainMet p l else x :: drainMet p l

/-- A load of `len` bytes at `a` by a lane core, or by the Steward (*Load against buffered stores*). -/
def loadCompare (d t : Nat) (lane : Bool) (a len : Nat) (s : State) : State :=
  let p (x : BufStore) : Bool := decide (x.core < 64) = lane && x.meets a len
  match ((s.storeBuf d t).filter p).getLast? with
  | none => s
  | some y =>
    if y.addr = a ∧ y.len = len then s
    else (countStall d t 1 (Config.loadWaits s.fresh) s).setStoreBuf d t (drainMet p (s.storeBuf d t))

/-- The stores of the lane cores, or of the Steward, have drained. -/
def drainStores (d t : Nat) (lane : Bool) (s : State) : State :=
  s.setStoreBuf d t ((s.storeBuf d t).filter (fun x => decide (x.core < 64) ≠ lane))

/-- The Steward writes a byte string: stores of 8 bytes and a rest. -/
def stewardWrite (d t off : Nat) (l : List Byte) (s : State) : State :=
  (s.writeMem d t off l).forAll (List.range ((l.length + 7) / 8)) (fun i s => pushStore d t ⟨64, off + 8 * i, min 8 (l.length - 8 * i)⟩ s)

/-! ## Fences as a tile sees them (R404) -/

/-- The hand-off of a Field slot's fence is in progress. -/
def State.handing (s : State) (n : Nat) : Bool := s.safe.handoffs.any (fun e => e.1 = n)

def State.tileHanding (s : State) (d t : Nat) : Bool :=
  match s.tileSlot d t with
  | some n => s.handing n
  | none => false

/-- The Field that holds the tile is fenced: no Waybill starts. -/
def State.tileFenced (s : State) (d t : Nat) : Bool :=
  match s.tileField d t with
  | some f => s.fieldFenced f
  | none => false

/-! ## The tile's own rank (R112, R116) -/

/-- The rank the CURRENT rank table gives the tile: the least block of its Field that names its row. -/
def State.tileRank (s : State) (d t : Nat) : Option Nat :=
  match s.tileSlot d t with
  | none => none
  | some slot =>
    let v := s.fld F.SG_CTRL_CURRENT
    (s.ni.ranks.find? (fun e => match e.1 with
      | [ev, ed, es, _] =>
        let b := rankBlockOf e.2
        ev = v && ed = d && es = slot && b.kind = 1 && b.device = s.device && b.die = d && b.lrow = t / 64
      | _ => false)).map (fun e => e.1.getD 3 0 * 64 + t % 64)

/-! ## Readiness (R238 to R243, R245) -/

/-- A good completion status (R245). -/
def goodStatus (st : Nat) : Bool := st ≤ 1

/-- Push a READY slot onto the ready queue; a push that finds it full waits and is counted (R231). -/
def pushReady (d t n : Nat) (s : State) : State :=
  if (s.readyQ d t).length < 64 then s.setReadyQ d t (s.readyQ d t ++ [n])
  else (s.setOverQ d t (s.overQ d t ++ [n])).bump F.TL_STALL_READY_FULL [d, t]

/-- A slot becomes READY: a poisoned credit without CATCH keeps it from running (R245); in a hand-off it completes at once
without running (R404). -/
def becomeReady (d t n : Nat) (s : State) : State :=
  let r := s.slot d t n
  let fail := match r.fail with
    | some x => some x
    | none =>
      if s.tileHanding d t then some (if r.poison then 0x03 else 0x0D)
      else if r.poison && !wbCatch r.armed then some 0x03 else none
  let r := { r with st := .ready, fail := fail }
  if s.tileHanding d t then s.setSlot d t n { r with finished := some (fail.getD 0x0D, 0) }
  else pushReady d t n (s.setSlot d t n r)

/-- An ARMED slot becomes READY when its credits and its start gate allow (R240); credits completed after GATE make it late
(R242). -/
def tryReady (d t n : Nat) (s : State) : State :=
  let r := s.slot d t n
  if r.st = .armed ∧ r.finished = none ∧ wbWait r.armed ≤ r.credits then
    let r := { r with fullAt := some (r.fullAt.getD s.now) }
    if wbGateKind r.armed = 1 ∧ wbGate r.armed ≠ 0 then
      if r.gatePassed then
        let late := r.late || decide (wbGate r.armed < r.fullAt.getD s.now)
        let fail := if late && wbLateFault r.armed then some (r.fail.getD 0x02) else r.fail
        becomeReady d t n (s.setSlot d t n { r with late := late, fail := fail })
      else s.setSlot d t n r
    else becomeReady d t n (s.setSlot d t n r)
  else s

/-- A Waybill whose start gate completes it where its credits are missing (R243). -/
def mayBeAbsent (w : List Byte) : Bool := wbAbsent w && wbGateKind w = 1 && wbGate w ≠ 0

/-- One credit for a slot (R234, R243, R245). -/
def creditSlot (d t n : Nat) (poisoned : Bool) (s : State) : State :=
  let r := s.slot d t n
  let after := r.st = .armed && mayBeAbsent r.armed && (r.absent || decide (wbGate r.armed < s.now))
  if r.credits + r.nextCredits = 65535 then
    tryReady d t n ((s.setSlot d t n { r with poison := true }).bump F.TL_WB_STAT_FAULTED [d, t])
  else if after then s.setSlot d t n { r with nextCredits := r.nextCredits + 1, poison := r.poison || poisoned }
  else tryReady d t n (s.setSlot d t n { r with credits := r.credits + 1, poison := r.poison || poisoned })

/-- Byte offset of a slot's Waybill (R228). -/
def wbOffset (n : Nat) : Nat := 0x1E0000 + 128 * n

/-- An arm (R238): the armed copy is read and checked, and its gate is set; on a slot that is not IDLE it pends, and a
second one is an overrun. -/
def armSlot (d t n : Nat) (s : State) : State :=
  let r := s.slot d t n
  if r.st ≠ .idle then
    if r.pendingArm then (s.setSlot d t n { r with poison := true }).bump F.TL_WB_STAT_FAULTED [d, t]
    else s.setSlot d t n { r with pendingArm := true }
  else
    let w := s.readMem d t (wbOffset n) 128
    let s := s.setSlot d t n { credits := r.credits, gen := r.gen, poison := r.poison, armed := w, st := .armed, fail := armCheck s.now w }
    let s := if wbGate w = 0 then s
      else if wbGateKind w = 1 then s.armGate (.wbStart d t n) (wbGate w)
      else if wbGateKind w = 2 then s.armGate (.wbRelease d t n) (wbGate w) else s
    tryReady d t n s

/-- The start gate of a slot releases (R242, R243); an ABSENT Waybill's test waits until a credit at GATE itself has counted (R265). -/
def startGate (d t n : Nat) (s : State) : State :=
  let r := s.slot d t n
  let m := wbGate r.armed
  if r.st = .armed ∧ mayBeAbsent r.armed ∧ r.credits < wbWait r.armed ∧ s.nowAt d ≤ m then s
  else
  let s := s.dropGate (.wbStart d t n)
  if r.st ≠ .armed ∨ r.finished ≠ none then s
  else
    let late := s.gateLate d m || (match r.fullAt with
      | some f => decide (m < f)
      | none => false)
    if wbWait r.armed ≤ r.credits then
      let fail := if late && wbLateFault r.armed then some (r.fail.getD 0x02) else r.fail
      becomeReady d t n (s.setSlot d t n { r with late := late, fail := fail, gatePassed := true })
    else if wbAbsent r.armed then s.setSlot d t n { r with gatePassed := true, absent := true, finished := some (r.fail.getD 0x04, 0) }
    else s.setSlot d t n { r with gatePassed := true, late := late }

/-! ## Tags (R132 to R134) -/

/-- The packets that wait at a tile NI. -/
def State.sendQ (s : State) (d t : Nat) : List SendItem := tabGet [] s.tiles.sendQ [d, t]

def State.setSendQ (s : State) (d t : Nat) (l : List SendItem) : State :=
  { s with tiles := { s.tiles with sendQ := tabSet [] s.tiles.sendQ [d, t] l } }

/-- A tag as the tile NI holds it; an unlisted one has been in QUARANTINE, with epoch 0, since the latest reset of its tile
or die. -/
def State.tagOf (s : State) (d t i : Nat) : TagRec :=
  (tabGet none s.ni.tags [d, t, i]).getD { since := max (tabGet 0 s.ni.tagReset [d, t]) (tabGet 0 s.ni.tagReset [d]) }

def State.setTag (s : State) (d t i : Nat) (g : TagRec) : State :=
  { s with ni := { s.ni with tags := tabSet none s.ni.tags [d, t, i] (some g) } }

/-- The FREE tags of a tile. -/
def State.freeTags (s : State) (d t : Nat) : List Nat :=
  (List.range 4096).filter (fun i => (s.tagOf d t i).st = .free)

/-- A running Waybill whose instances have run and whose tags have completed has finished (R244). -/
def maybeFinish (d t n : Nat) (s : State) : State :=
  let r := s.slot d t n
  if r.st = .running ∧ r.allDone ∧ r.opened = 0 ∧ r.finished = none then
    s.setSlot d t n { r with finished := some (r.status.getD (if r.late then 1 else 0), r.detail) }
  else s

/-- A packet of Waybill `n` that has no tag yet. -/
def SendItem.unsentOf (x : SendItem) (n : Nat) : Bool := x.issuer = .run n && x.tag.isNone && !x.resp

/-- What a Waybill has not yet sent is not sent (R246). -/
def dropUnsent (d t n : Nat) (s : State) : State :=
  let gone := (s.sendQ d t).filter (·.unsentOf n)
  let s := s.setSendQ d t ((s.sendQ d t).filter (fun x => !x.unsentOf n))
  s.setSlot d t n { s.slot d t n with opened := (s.slot d t n).opened - gone.length }

/-- The first cause of a fault decides a running Waybill's status, and it issues nothing further (R246). -/
def failRun (d t n st det : Nat) (s : State) : State :=
  let r := s.slot d t n
  if r.status = none then dropUnsent d t n (s.setSlot d t n { r with status := some st, detail := det }) else s

/-- A tag completes with a status (R132): it enters QUARANTINE, and whoever it was open for learns of it. -/
def completeTag (d t i st det : Nat) (s : State) : State :=
  let g := s.tagOf d t i
  let s := s.setTag d t i { epoch := g.epoch, since := s.now }
  let s := s.setSendQ d t ((s.sendQ d t).filter (fun x => x.tag ≠ some i))
  match g.issuer with
  | .run n =>
    let r := s.slot d t n
    let s := s.setSlot d t n { r with opened := r.opened - 1 }
    maybeFinish d t n (if st = 0 then s else failRun d t n st det s)
  | .notice => if st = 0 then s else s.bump F.TL_WB_STAT_NOTIFY_FAULTS [d, t]
  | .engine 1 e obj rank =>
    if st = 0 then s else (s.bump F.SH_STAT_RESULTS_LOST [e]).log 0x0E 0x01 e (beBytes 2 obj ++ beBytes 3 rank)
  | .engine 2 e obj rank =>
    if st = 0 then s else (s.bump F.WN_STAT_OUTPUTS_LOST [e]).log 0x0E 0x03 e (beBytes 2 obj ++ beBytes 3 rank)
  | _ => s

/-- A packet that is never resent, not even after BUSY: a Sheaf result, a Winnower output, a POISON notice (R280, R287, R289, R308). -/
def neverResent (g : TagRec) : Bool :=
  match g.req with
  | some p => p.h.typ = 0x83 || p.h.typ = 0x85 || (p.h.typ = 0x07 && p.pay 0 1 = 2)
  | none => false

/-- *NAK actions* (R134, R181): BUSY waits for a resend until MAX_RESENDS is reached; every other code is final. -/
def nakAction (d t i code role : Nat) (s : State) : State :=
  let g := s.tagOf d t i
  match code with
  | 1 => completeTag d t i 0x09 0 s
  | 2 => completeTag d t i 0x0A role s
  | 3 =>
    if !neverResent g && decide (g.resends < s.fld F.NI_E2E_MAX_RESENDS) then
      s.setTag d t i { g with busies := g.busies + 1, backoffAt := some (s.now + usUnits (s.fld F.NI_E2E_BUSY_BACKOFF_US * 2 ^ g.busies)) }
    else completeTag d t i 0x0B 0 s
  | 4 => completeTag d t i 0x0C 0 s
  | 5 => completeTag d t i 0x0E 0 s
  | _ => completeTag d t i 0x0D 0 s

/-! ## Flow limits (R103) -/

/-- The tokens of a flow's bucket now, in parts of 1/16,000 of a byte. -/
def flowTokens (s : State) (f : Flow) : Nat := min (8320 * 16000) (f.tokens + f.rate * (s.now - f.filledAt))

/-- A data-class packet of a tile spends its flow's tokens, if there are enough. -/
def spendFlow (d t : Nat) (p : Packet) (s : State) : Option State :=
  let k := [d, t, p.h.field, p.h.dstRank]
  if p.h.cls ≠ 1 then some s
  else match tabGet none s.ni.flows k with
    | none => some s
    | some f =>
      let need := p.unitCount * 64 * 16000
      if flowTokens s f < need then none
      else some { s with ni := { s.ni with flows := tabSet none s.ni.flows k (some { f with tokens := flowTokens s f - need, filledAt := s.now }) } }

/-- An echo reaches a source (R103, on_echo). -/
def onEcho (d t field rank : Nat) (s : State) : State :=
  let k := [d, t, field, rank]
  let ns := s.now / 16
  let f : Flow := (tabGet none s.ni.flows k).getD ⟨800000, (ns : Int) - 4000, ns, ns, 0, 8320 * 16000, s.now⟩
  let f := { f with tokens := flowTokens s f, filledAt := s.now }
  let f := if f.lastCut + 4000 ≤ (ns : Int) then { f with rate := max (f.rate * 3 / 4) (800000 / 256), lastCut := ns } else f
  { s with ni := { s.ni with flows := tabSet none s.ni.flows k (some { f with lastEcho := ns }) } }

/-! ## Sending from a tile NI -/

/-- Send the request a tag holds: it takes a new DEPART_NS and CHECK, and its timer starts (R133). While time is not valid
it is discarded (R131). A check that refuses it here acts as the NAK it names (R127); the first Hedge checker's refusal is
a fault (R35). -/
def transmit (d t i : Nat) (handoff : Bool) (s : State) : State :=
  let g := s.tagOf d t i
  match g.req with
  | none => s
  | some p =>
    let s := s.setTag d t i { g with timerAt := s.now }
    let input := g.input.getD (.tile d t)
    if !s.timeValid then s.bump F.NI_DROP_A_NO_TIME [d]
    else if !s.ownsTile1 d t p.h.field then hedgeFault d 0x03 p.h.field t s
    else
      let h := { p.h with depart := departOf s.now, tagIndex := i, tagEpoch := g.epoch }
      match translate s d (srcFromTile s d t h.srcRank) h with
      | none => nakAction d t i 4 0 (countNak d 4 s)
      | some h =>
        let kind : WaitKind := match input with
          | .tile _ _ => .request d t i
          | _ => .engine d t i
        match launch d { p with h := h } input kind handoff s with
        | .ok s => s
        | .error c => nakAction d t i c 0 (countNak d c s)

/-! ## Packets that wait for cells (R158, R159) -/

/-- The place of an input in the order of requests of one instant (R158); a port NI or the management logic takes that of TILE (DESIGN
CHOICE, log 169). -/
def Input.turn : Input → Nat
  | .sheaf _ => 0
  | .engine _ => 1
  | _ => 2

/-- The die of an input. -/
def Input.die : Input → Nat → Nat
  | .half h, _ => h / 2
  | .tile d _, _ => d
  | .sheaf d, _ => d
  | .engine d, _ => d
  | .mgmt, d => d

def dropWait (id : Nat) (s : State) : State := { s with gran := { s.gran with waits := s.gran.waits.filter (fun x => x.id ≠ id) } }

/-- A check that has come to refuse a packet while it waited acts as the NAK it names (R137, R404). -/
def refuseWait (w : Wait) (code : Nat) (s : State) : State :=
  let s := countNak w.pk.die code (dropWait w.id s)
  match w.kind with
  | .request d t i | .engine d t i => if i < 4096 then nakAction d t i code 0 s else s
  | .response => s

/-- A tag's timer starts as its packet is sent. -/
def startTimer (k : WaitKind) (s : State) : State :=
  match k with
  | .request d t i | .engine d t i => if i < 4096 then s.setTag d t i { s.tagOf d t i with timerAt := s.now } else s
  | .response => s

/-- A requester repeats its request: once it is granted, the packet is sent. -/
def retryWait (w : Wait) (s : State) : State :=
  let k := w.pk
  let local_ := decide (2 ≤ k.out ∧ k.out ≤ 4) && !fieldless k.p.h.typ
  if mustWait (s.gran.waits.filter (fun x => x.id < w.id)) k.input k.die k.out k.p then s
  else if schedClass k.p.h.cls then
    let d := k.input.die k.die
    match launch d { k.p with h := { k.p.h with depart := departOf s.now } } k.input w.kind k.handoff (dropWait w.id s) with
    | .ok s => s
    | .error c => refuseWait w c s
  else if local_ && s.fieldFenced k.p.h.field && !k.handoff then refuseWait w 6 s
  else if local_ && s.gateClosedFor k.die k.dstTile k.p.h.field then refuseWait w 1 s
  else match allocate k.die k.owner (cellsFor k.p) k.out k.q s with
    | none => s
    | some (cs, s) =>
      let p := sealCheck { k.p with h := { k.p.h with depart := departOf s.now } }
      let s := (storePkt { k with p := p, cells := cs, arrived := cs.length, issuedAt := s.now } s).2
      startTimer w.kind (dropWait w.id s)

/-- Every requester whose packet waits repeats its request: SHEAF, then ENGINE, then TILE (R158, R159). -/
def retryWaits (s : State) : State :=
  s.forAll ([0, 1, 2].flatMap (fun n => s.gran.waits.filter (fun w => w.pk.input.turn = n))) retryWait

/-- An item waits, keeping its place. -/
def keepItem (d t : Nat) (it : SendItem) (s : State) : State := s.setSendQ d t (s.sendQ d t ++ [it])

/-- An earlier item of the same limited flow still waits. -/
def flowHeld (s : State) (d t : Nat) (it : SendItem) : Bool :=
  it.p.h.cls = 1 && (s.sendQ d t).any (fun x => x.p.h.cls = 1 && x.p.h.field = it.p.h.field && x.p.h.dstRank = it.p.h.dstRank &&
    (x.tag.isSome || x.resp))

/-- Whether an item's flow lets it go now; only what a tile itself sends is limited (R103). -/
def flowLets (d t : Nat) (it : SendItem) (s : State) : Option State :=
  match it.input with
  | .tile _ _ => if flowHeld s d t it then none else spendFlow d t it.p s
  | _ => some s

/-- An item of a Waybill that has met a final outcome: it is not sent (R246). -/
def withdrawn (s : State) (d t : Nat) (it : SendItem) : Option Nat :=
  match it.issuer with
  | .run n => if it.unsentOf n ∧ (s.slot d t n).status ≠ none then some n else none
  | _ => none

/-- Try to send one item. -/
def pumpOne (d t : Nat) (s : State) (it : SendItem) : State :=
  match withdrawn s d t it with
  | some n => maybeFinish d t n (s.setSlot d t n { s.slot d t n with opened := (s.slot d t n).opened - 1 })
  | none =>
  if it.resp then
    match flowLets d t it s with
    | some s => sendResponse d it.p it.input s
    | none => keepItem d t it s
  else
    let got : Option (Nat × State) := match it.tag with
      | some i => some (i, s)
      | none =>
        let l := s.freeTags d t
        if l = [] then none
        else
          let i := l.getD (Config.tagChoice s.fresh % l.length) 0
          let g := s.tagOf d t i
          some (i, s.tick.setTag d t i { st := .opened, epoch := g.epoch, since := s.now, req := some it.p, issuer := it.issuer, resend := it.resend, input := some it.input })
    match got with
    | none => keepItem d t it s
    | some (i, s) =>
      match flowLets d t it s with
      | some s => transmit d t i it.handoff s
      | none => keepItem d t { it with tag := some i } s

/-- Send what a tile NI can. -/
def pump (d t : Nat) (s : State) : State := (s.sendQ d t).foldl (pumpOne d t) (s.setSendQ d t [])

/-- Every tile NI with something waiting tries again. -/
def pumpAll (s : State) : State := s.forAll s.tiles.sendQ (fun e s => pump (e.1.headD 0) (e.1.getD 1 0) s)

/-- A request of a running Waybill, with the elements of its stream that it carries: the Waybill finishes only when the tag has
completed (R244). -/
def submitRun (d t n : Nat) (p : Packet) (resend : Bool) (elems : Nat) (s : State) : State :=
  let r := s.slot d t n
  if r.status ≠ none then s
  else
    let s := s.setSlot d t n { r with opened := r.opened + 1 }
    pump d t (keepItem d t { p := p, issuer := .run n, resend := resend, input := .tile d t, elems := elems } s)

/-- Any other packet that takes a tag of the tile. -/
def submit (d t : Nat) (it : SendItem) (s : State) : State := pump d t (keepItem d t it s)

/-- The header of a request from a tile (R92, R257). -/
def reqHdr (s : State) (d t typ cls units field rank : Nat) : Hdr :=
  { cls := cls, typ := typ, units := units, field := field, dstRank := rank, srcRank := (s.tileRank d t).getD 0 }

/-- A packet that holds no tag (R292): launched at once, and lost where a check refuses it. -/
def sendPlain (d t : Nat) (p : Packet) (input : Input) (handoff : Bool) (s : State) : State :=
  if !s.timeValid then s.bump F.NI_DROP_A_NO_TIME [d]
  else if !s.ownsTile1 d t p.h.field then hedgeFault d 0x03 p.h.field t s
  else
    match translate s d (srcFromTile s d t p.h.srcRank) { p.h with depart := departOf s.now } with
    | none => countNak d 4 s
    | some h =>
      match launch d { p with h := h } input (match input with
          | .tile _ _ => WaitKind.request d t 4096
          | _ => .engine d t 4096) handoff s with
      | .ok s => s
      | .error c => countNak d c s

/-! ## Answers of a tile NI or engine slice (R102, R116) -/

/-- A marked data-class packet arrives: an echo is owed, unless one of the last 1 µs covers it. `unit` is the tile, or 2048
for an engine slice. -/
def noteMark (d unit : Nat) (p : Packet) (s : State) : State :=
  let k := [d, unit, p.h.field, p.h.srcRank]
  let recent := match tabGet 0 s.ni.echoSent k with
    | 0 => false
    | n + 1 => decide (s.now < n + usUnits 1)
  if p.h.cls = 1 ∧ p.h.tailback = 1 ∧ !recent ∧ tabGet none s.ni.echoOwed k = none then
    { s with ni := { s.ni with echoOwed := tabSet none s.ni.echoOwed k (some (p.h, s.now)) } }
  else s

/-- An echo has gone out to a pair. -/
def echoGone (d unit : Nat) (p : Hdr) (s : State) : State :=
  let k := [d, unit, p.field, p.srcRank]
  { s with ni := { s.ni with echoOwed := tabSet none s.ni.echoOwed k none, echoSent := tabSet 0 s.ni.echoSent k (s.now + 1) } }

/-- Answer a packet: a control answer leaves at once; a data answer of a tile waits for its flow (R103). -/
def answer (d unit : Nat) (p : Packet) (typ cls units : Nat) (body data : List Byte) (input : Input) (s : State) : State :=
  let h := respHdr s p.h typ cls units
  let s := if h.tailback = 2 then echoGone d unit p.h s else s
  let q : Packet := { h := h, body := body, data := data }
  match cls, input with
  | 1, .tile dt tt => submit dt tt { p := q, issuer := .none_, resp := true, input := input } s
  | _, _ => sendResponse d q input s

/-- An ACK (R94). -/
def sendAck (d unit : Nat) (p : Packet) (input : Input) (s : State) : State :=
  answer d unit p 0x03 0 0 (List.replicate 32 0) [] input s

/-- A NAK from a tile NI or engine slice, which also carries an echo; a slice that is busy counts it itself (R279). -/
def refuse (d unit : Nat) (p : Packet) (code role : Nat) (input : Input) (s : State) : State :=
  let s := if code = 3 then s else countNak d code s
  let s := if p.h.cls = 1 ∧ p.h.tailback = 1 then echoGone d unit p.h s else s
  sendNak d p code role input s

/-! ## Completion (R242, R244, R245) -/

/-- The status of a release gate that releases late (R242). -/
def lateStatus (w : List Byte) (st : Nat) : Nat := if goodStatus st then (if wbLateFault w then 0x02 else 0x01) else st

/-- The status record (*Status record*). -/
def statusRecord (st op n gen det : Nat) : List Byte :=
  [BitVec.ofNat 8 st, BitVec.ofNat 8 op] ++ leBytes 2 n ++ [BitVec.ofNat 8 gen, BitVec.ofNat 8 det, 0, 0]

/-- A PUT_SHORT packet body. -/
def putShortBody (window offset len ref : Nat) (data : List Byte) : List Byte :=
  beBytes 1 window ++ beBytes 5 offset ++ beBytes 1 len ++ [0] ++ beBytes 4 ref ++ List.replicate 4 0 ++ padTo 16 data

/-- The notice of a completion (R244, step 5). -/
def sendNotice (d t : Nat) (w rec : List Byte) (handoff : Bool) (s : State) : State :=
  let ref := wbLe w 108 4
  let h := { reqHdr s d t 0x02 0 0 ((s.tileField d t).getD 0) (wbLe w 102 3 % 2 ^ 20) with roleEpoch := wbByte w 105 }
  submit d t { p := { h := h, body := putShortBody (wbByte w 96) (wbLe w 97 5) 8 ref rec }, issuer := .notice, resend := ref = noRef,
               handoff := handoff, input := .tile d t } s

/-- One successor entry acts. -/
def successor (d t e : Nat) (poisoned : Bool) (s : State) : State :=
  match e / 2 ^ 14 with
  | 1 => creditSlot d t (e % 1024) poisoned s
  | 2 => armSlot d t (e % 1024) s
  | 3 => creditSlot d t (e % 1024) poisoned (armSlot d t (e % 1024) s)
  | _ => s

/-- The completion effects, steps 2 to 6 of R244. -/
def completeSlot (d t n st det : Nat) (s : State) : State :=
  let r := s.slot d t n
  let w := r.armed
  let good := goodStatus st
  let credits := if r.absent then r.nextCredits else r.credits - wbWait w + r.nextCredits
  let s := (s.dropGate (.wbStart d t n)).dropGate (.wbRelease d t n)
  let s := s.setSlot d t n { credits := credits, gen := r.gen }
  let s := s.bump F.TL_WB_STAT_COMPLETED [d, t]
  let s := if st = 1 ∨ st = 2 then s.bump F.TL_WB_STAT_LATE [d, t] else s
  let s := if good then s else s.bump F.TL_WB_STAT_FAULTED [d, t]
  let rec_ := statusRecord st (wbOpcode w) n r.gen det
  let s := if wbStatusOff w = 0xFFFFFFFF then s else s.writeMem d t (wbStatusOff w) rec_
  let s := s.forAll [16, 18, 20, 22] (fun i s => successor d t (wbLe w i 2) (!good) s)
  let s := if wbNotify w then sendNotice d t w rec_ (s.tileHanding d t) s else s
  if r.pendingArm then armSlot d t n s else s

/-- A finished Waybill meets its release gate, if it has one (R242), and takes its completion effects. In a hand-off it
completes at once (R404). -/
def completeWaybill (d t n : Nat) (s : State) : State :=
  let r := s.slot d t n
  match r.finished with
  | none => s
  | some (st, det) =>
    let m := wbGate r.armed
    if wbGateKind r.armed = 2 ∧ m ≠ 0 ∧ !s.tileHanding d t then
      if r.relPassed ∨ s.gateOpen d m then
        if r.st = .held then s else completeSlot d t n (if m < s.now then lateStatus r.armed st else st) det s
      else s.setSlot d t n { r with st := .held }
    else completeSlot d t n st det s

/-- The release gate of a slot releases: a HELD Waybill takes its effects (R242). -/
def releaseGate (d t n : Nat) (s : State) : State :=
  let r := s.slot d t n
  let m := wbGate r.armed
  match r.st, r.finished with
  | .held, some (st, det) => completeSlot d t n (if s.gateLate d m then lateStatus r.armed st else st) det s
  | _, _ => (s.dropGate (.wbRelease d t n)).setSlot d t n { r with relPassed := true }

/-! ## Abandoning (R261, R403) -/

/-- A slot is abandoned without completion effects; what it has issued ends with no effect on it. -/
def abandonSlot (d t n : Nat) (s : State) : State :=
  let r := s.slot d t n
  let s := (s.dropGate (.wbStart d t n)).dropGate (.wbRelease d t n)
  s.setSlot d t n { credits := r.credits, gen := r.gen, poison := r.poison }

/-- The slots of a tile with anything to them. -/
def State.slotsOf (s : State) (d t : Nat) : List Nat :=
  (s.tiles.slots.filter (fun e => e.1.take 2 = [d, t])).map (fun e => e.1.getD 2 0)

/-- Requests of a tile's Waybills no longer concern their slots. -/
def orphanTags (d t : Nat) (s : State) : State :=
  { s with ni := { s.ni with tags := s.ni.tags.map (fun e => if e.1.take 2 = [d, t] then (e.1, e.2.map (fun g => match g.issuer with
    | .run _ => { g with issuer := .none_ }
    | _ => g)) else e) } }

/-- A tile whose TILE_RESET call is abandoned no longer waits for its target, whose reset goes on (R265). -/
def leaveCallers (d t : Nat) (s : State) : State :=
  { s with tiles := { s.tiles with resets := s.tiles.resets.map (fun e => (e.1, e.2.map (fun r => { r with callers := r.callers.filter (· ≠ (d, t)) }))) } }

/-- Every Waybill of a tile is abandoned, and every queue of the tile emptied. -/
def abandonTile (d t : Nat) (s : State) : State :=
  let s := s.forAll (s.slotsOf d t) (fun n s => if (s.slot d t n).st = .idle then s else abandonSlot d t n s)
  let s := ((s.setReadyQ d t []).setOverQ d t []).setStoreBuf d t []
  let s := s.forAll [0, 1, 2, 3] (fun u s => (s.setIssueQ d t u []).setRunning d t u none)
  let s := s.setSendQ d t ((s.sendQ d t).filter (fun x => match x.issuer with
    | .run _ => false
    | _ => true))
  orphanTags d t (leaveCallers d t s)

/-! ## Engine streams (R252, R275, R303, R317, R319) -/

def State.node (s : State) (d f id : Nat) : Option SheafNode := tabGet none s.sheaf.nodes [d, f, id]

def State.setNode (s : State) (d f id : Nat) (n : Option SheafNode) : State :=
  { s with sheaf := { nodes := tabSet none s.sheaf.nodes [d, f, id] n } }

def State.job (s : State) (f j : Nat) : Option WinnowJob := tabGet none s.engine.jobs [f, j]

def State.setJob (s : State) (f j : Nat) (x : Option WinnowJob) : State :=
  { s with engine := { s.engine with jobs := tabSet none s.engine.jobs [f, j] x } }

def SheafPlan.small (p : SheafPlan) : Bool := p.mode.testBit 3
def SheafPlan.root (p : SheafPlan) : Bool := p.mode.testBit 4
def SheafPlan.sched (p : SheafPlan) : Bool := p.mode.testBit 5

/-- The node a fused stream reaches: the one on the tile's die, else one of this device that names the tile's rank as a
LEAF. -/
def nodeFor (s : State) (d t f id : Nat) : Option SheafNode :=
  match s.node d f id with
  | some n => some n
  | none =>
    let rank := (s.tileRank d t).getD (2 ^ 20)
    dies.findSome? (fun e => (s.node e f id).filter (fun n => n.plan.inputs.any (fun i => i.rank = rank && !i.child)))

/-- Bytes 0 to 31 of a tile-streamed query's descriptor, big-endian, from the little-endian template (R313, R319). -/
def templateDesc (t : List Byte) (offset : Nat) : List Byte :=
  t.take 4 ++ beBytes 5 offset ++ List.replicate 3 0 ++ beBytes 4 (leNat ((t.drop 12).take 4)) ++ beBytes 4 (leNat ((t.drop 16).take 4))
    ++ beBytes 4 (leNat ((t.drop 20).take 4)) ++ List.replicate 40 0

/-- Units of the result of a query of H heads, d dimensions and output size `so` (R319). -/
def resultUnits (heads d so : Nat) : Nat := 3 + heads * d * so / 64

/-- The element count of one packet of a stream, or nothing where its object does not exist or cannot take it. -/
def streamPer (s : State) (d t f : Nat) (o : Opnd) : Option Nat :=
  let mx := decide (0x10 ≤ o.fmt ∧ o.fmt ≤ 0x14)
  let size := unitBytes o.fmt 1
  match o.target with
  | 1 => (nodeFor s d t f o.tid).map (fun n => if n.plan.small then n.plan.n else if mx then 2048 else 4096 / size)
  | 2 => (s.job f (o.tid % 256)).map (fun _ => if mx then 2048 else 4096 / size)
  | 3 => (s.ctx o.tid).bind (fun c => if c.field = f then some (if mx then 2048 else c.d) else none)
  | _ => (s.ctx o.tid).bind (fun c => if c.field = f then some ((c.template.headD 0).toNat * c.d) else none)

/-- Bytes of a whole chunk of contributed elements (R276): 128 on narrow lanes, 16 on wide ones; no less than a unit. -/
def chunkBytes (p : SheafPlan) (size : Nat) : Nat :=
  max 64 ((if (p.op = 1 || p.op = 2) && p.inFmt = 1 then 16 else 128) * size)

/-- One packet of a stream: `cnt` elements from stream index `start`. A contribution that ends at N is filled with zeros to a whole
chunk (R276, R278). -/
def streamPacket (d t n : Nat) (o : Opnd) (start cnt : Nat) (bytes : List Byte) (last : Bool) (s : State) : State :=
  let f := (s.tileField d t).getD 0
  let size := unitBytes o.fmt 1
  let whole := match o.target, nodeFor s d t f o.tid with
    | 1, some nd => if start % 2 ^ 28 + cnt = nd.plan.n ∧ !decide (0x10 ≤ o.fmt ∧ o.fmt ≤ 0x14) then chunkBytes nd.plan size else 64
    | _, _ => 64
  let pay := padTo (max 256 ((bytes.length + whole - 1) / whole * whole)) bytes
  let units := pay.length / 64
  match o.target with
  | 1 =>
    match nodeFor s d t f o.tid with
    | some nd =>
      if nd.plan.small then
        sendPlain d t { h := reqHdr s d t 0x06 0 0 f nd.rank, body := [1] ++ beBytes 1 (start / 2 ^ 28) ++ beBytes 2 o.tid ++ List.replicate 12 0 ++ padTo 16 (bytes.take 16) } (.tile d t) false s
      else submitRun d t n { h := reqHdr s d t 0x82 1 units f nd.rank, body := dataBody 0 0 noRef o.tid o.fmt start 0 0 0, data := pay } true cnt s
    | none => failRun d t n 0x0C 0 s
  | 2 =>
    match s.job f (o.tid % 256) with
    | some j =>
      let off := o.tid / 256 + (if last then 4 else 0) + cnt * 65536
      submitRun d t n { h := reqHdr s d t 0x84 1 units f j.rank, body := dataBody (o.tid % 256) off noRef 0 o.fmt start 0 0 0, data := pay } true cnt s
    | none => failRun d t n 0x0C 0 s
  | 3 =>
    match s.ctx o.tid with
    | some c =>
      let base := if o.fmt = 4 then 512 * c.d + start % 2 ^ 17 else start % 2 ^ 17
      submitRun d t n { h := reqHdr s d t 0x88 1 units f c.rank, body := dataBody 0 0 0 0 o.fmt base o.tid (start / 2 ^ 17) 0, data := pay } true cnt s
    | none => failRun d t n 0x0C 0 s
  | _ =>
    match s.ctx o.tid with
    | some c =>
      let heads := (c.template.headD 0).toNat
      let so := unitBytes ((c.template.getD 1 0).toNat) 1
      let q := start % 2 ^ 28 / (heads * c.d)
      let off := (leNat ((c.template.drop 4).take 5) + q * resultUnits heads c.d so * 64) % 2 ^ 40
      let body := templateDesc c.template off ++ bytes
      let pay := padTo (max 256 ((heads * c.d * size + 64 + 63) / 64 * 64)) body
      if 127 < (heads * c.d * size + 63) / 64 then failRun d t n 0x07 0 s
      else submitRun d t n { h := reqHdr s d t 0x86 1 (pay.length / 64) f c.rank, body := dataBody 0 0 (leNat ((c.template.drop 28).take 4)) 0 o.fmt start o.tid 0 0, data := pay } true cnt s
    | none => failRun d t n 0x0C 0 s

/-- Elements in a byte string of a stream's format. -/
def elemsIn (fmt : Nat) (l : List Byte) : Nat :=
  match elemOf fmt with
  | some (.mx f) => l.length / segBytes f * 2048
  | some k => l.length / k.size
  | none => l.length

def bytesOf (fmt n : Nat) : Nat :=
  match elemOf fmt with
  | some k => k.span n
  | none => n

/-- Send the packets that a stream's waiting elements fill; packets are aligned to their own size, by the element index without the
round, and a query takes the whole of its H × d elements (R319). -/
def drainStream (d t n : Nat) (o : Opnd) (per : Nat) : Nat → State → State
  | 0, s => s
  | fuel + 1, s =>
    match (s.slot d t n).stream with
    | none => s
    | some (start, l) =>
      let have_ := elemsIn o.fmt l
      let want := per - start % 2 ^ 28 % per
      if want ≤ have_ then
        let cut := bytesOf o.fmt want
        let r := s.slot d t n
        let s := s.setSlot d t n { r with stream := if want = have_ then none else some (start + want, l.drop cut) }
        drainStream d t n o per fuel (if o.target = 4 ∧ want < per then s else streamPacket d t n o start want (l.take cut) false s)
      else s

/-- Send whatever waits in a stream as its last packet; what falls short of a whole query makes none (R319). -/
def flushStream (d t n : Nat) (o : Opnd) (last : Bool) (s : State) : State :=
  let r := s.slot d t n
  match r.stream with
  | some (start, l) =>
    let s := s.setSlot d t n { r with stream := none }
    if o.target = 4 then s else streamPacket d t n o start (elemsIn o.fmt l) l last s
  | none => s

/-- The elements of one instance join the stream (R252): a break in contiguity opens a new packet. -/
def streamOut (d t n : Nat) (o : Opnd) (start : Nat) (bytes : List Byte) (s : State) : State :=
  match streamPer s d t ((s.tileField d t).getD 0) o with
  | none => failRun d t n 0x0C 0 s
  | some per =>
    let s := match (s.slot d t n).stream with
      | some (b, l) => if b + elemsIn o.fmt l = start then s else flushStream d t n o false s
      | none => s
    let r := s.slot d t n
    let st := match r.stream with
      | some (b, l) => (b, l ++ bytes)
      | none => (start, bytes)
    drainStream d t n o (max per 1) (elemsIn o.fmt st.2 + 1) (s.setSlot d t n { r with stream := some st, streamEnd := start + elemsIn o.fmt bytes })

/-- A stream's last instance has run: what waits leaves, and a Winnower stream ends with LAST (R303). -/
def endStream (d t n : Nat) (s : State) : State :=
  let r := s.slot d t n
  let o := opO r.armed
  if o.target = 0 ∨ r.status ≠ none then s
  else
    match r.stream with
    | some _ => flushStream d t n o true s
    | none =>
      if o.target = 2 then streamPacket d t n o r.streamEnd 0 [] true s else s

/-- Runs of stream indices, joined where they meet. -/
def joinRuns (l : List (Nat × Nat)) : List (Nat × Nat) :=
  l.foldl (fun acc r => match acc.getLast? with
    | some l => if l.1 + l.2 = r.1 then acc.dropLast ++ [(l.1, l.2 + r.2)] else acc ++ [r]
    | none => [r]) []

/-- The runs of stream indices that the instances from `k` on would have filled. -/
def restRuns (w : List Byte) (k : Nat) : List (Nat × Nat) :=
  (List.range (wbInstances w - k)).map (fun i => ((instOf w (opO w) (k + i)).toNat, streamCount w))

/-- The runs of stream indices that the packets of a Waybill still without a tag carry. -/
def queuedRuns (s : State) (d t n : Nat) : List (Nat × Nat) :=
  ((s.sendQ d t).filter (fun x => x.unsentOf n && x.elems ≠ 0)).map (fun x => (x.p.elemBase, x.elems))

/-- A SHEAF_COUNT of KIND POISON (*SHEAF_COUNT payload*). -/
def poisonBody (round id first count ref credits : Nat) : List Byte :=
  [2] ++ beBytes 1 round ++ beBytes 2 id ++ List.replicate 4 0 ++ beBytes 4 first ++ beBytes 4 count ++ beBytes 4 ref ++ beBytes 2 credits
    ++ List.replicate 10 0

/-- A fused stream that stops poisoned tells its engine (R252, R291, R309): a notice for what it will not send, which is what waits
without a tag, what is in no packet yet, and what its further instances would have given. -/
def poisonStream (d t n : Nat) (s : State) : State :=
  let r := s.slot d t n
  let o := opO r.armed
  let f := (s.tileField d t).getD 0
  let open_ := match r.stream with
    | some (b, l) => [(b, elemsIn o.fmt l)]
    | none => []
  let runs := joinRuns (queuedRuns s d t n ++ open_ ++ restRuns r.armed (if r.ran then r.k + 1 else r.k))
  let s := dropUnsent d t n (s.setSlot d t n { r with stream := none })
  let send (rank id : Nat) (s : State) : State := s.forAll runs (fun x s =>
    submit d t { p := { h := reqHdr s d t 0x07 0 0 f rank, body := poisonBody (x.1 / 2 ^ 28) id (x.1 % 2 ^ 28) x.2 noRef 0 }, issuer := .none_, handoff := true, input := .tile d t } s)
  match o.target with
  | 1 => match nodeFor s d t f o.tid with
    | some nd =>
      if nd.plan.small then
        sendPlain d t { h := reqHdr s d t 0x06 0 0 f nd.rank, body := [1] ++ beBytes 1 ((runs.headD (0, 0)).1 / 2 ^ 28 + 16) ++ beBytes 2 o.tid ++ List.replicate 28 0 } (.tile d t) true s
      else send nd.rank o.tid s
    | none => s
  | 2 => match s.job f (o.tid % 256) with
    | some j => send j.rank (o.tid % 256) s
    | none => s
  | _ => s

end Sys2Proof.Machine
end

