-- ==== Sys2Proof/Machine/Switch.lean ====
section
/-! DEFINITION. The meanings of the switch core's commands (chapter 5): arrival, eligibility, the matcher's frame, the
start of an output, departure and the Tally's scan. -/

namespace Sys2Proof.Machine

/-- PACKET_ARRIVAL (R127). -/
def execPacketArrival (h : Nat) (p : Packet) (s : State) : Result :=
  run (.packetArrival h p) s (packetArrival h p s)

/-- PACKET_ELIGIBLE (R143, R151). -/
def execPacketEligible (pid : Nat) (tag : List Byte) (s : State) : Result :=
  run (.packetEligible pid tag) s (packetEligible pid tag s)

/-- MATCHER_FRAME (R147); whoever was refused cells asks again first (R159). -/
def execMatcherFrame (s : State) : Result := run .matcherFrame s (pumpAll (matcherFrame (retryWaits s)))

/-! ## Outputs (R152, R153) -/

/-- The control token bucket of output 0 or 1, in parts of 1/4,096 of a unit, at this instant: its rate is CTRL_SHARE / 64
of the link's unit rate and its depth 16 units. -/
def tokensNow (s : State) (d out : Nat) : Nat :=
  match tabGet none s.gran.tokens [d, out] with
  | none => 16 * 4096
  | some (n, at_) =>
    min (16 * 4096) (n + (s.now - at_) * s.fld F.GK_OUT_CFG_CTRL_SHARE [d, out] * (if s.isWhole (d * 2 + out) then 50 else 25))

def spendToken (d out : Nat) (s : State) : State :=
  { s with gran := { s.gran with tokens := tabSet none s.gran.tokens [d, out] (some (tokensNow s d out - 4096, s.now)) } }

/-- An unscheduled packet may start at output 0 or 1: no live departure window is open, and its last unit leaves before the
next scheduled departure (R152, R183). -/
def mayStart (s : State) (d out units : Nat) : Bool :=
  !inDepartureWindow s d out &&
  match nextDeparture s d out with
  | some t => decide (100 * s.now + units * s.unitUnits (d * 2 + out) ≤ 100 * t)
  | none => true

/-- Units a stored packet or frame occupies on the link. -/
def Pkt.units (k : Pkt) : Nat := if k.frame = [] then k.p.unitCount else (k.frame.length + 63) / 64

/-- The unscheduled packet the output serves next, if one may start: control before data. A scheduled one goes at its due instant, by its
own command. -/
def nextPacket (s : State) (d out : Nat) : Option Nat :=
  let able (q : Nat) : Option Nat := (s.queue d out q).head?
  if out ≤ 1 then
    let fits (pid : Nat) : Bool := match s.pkt pid with
      | some k => mayStart s d out k.units && (k.frame ≠ [] || s.linkCarries (d * 2 + out))
      | none => false
    match (able 1).filter (fun pid => decide (4096 ≤ tokensNow s d out) && fits pid) with
    | some pid => some pid
    | none => (able 2).filter fits
  else if inDepartureWindow s d out then none
  else (able 1) <|> (able 2)

/-- The packet's Field is fenced here, and a tile or engine of this device produced it or will take it (R153); what carries
the hand-off of R404 passes while the hand-off lasts. -/
def fencedHere (s : State) (k : Pkt) : Bool :=
  !fieldless k.p.h.typ && s.fieldFenced k.p.h.field && (k.produced || decide (2 ≤ k.out)) && !k.handoff

/-! ### Tunnels (R110, R111) -/

/-- The checksum of UDP over IPv6: the complement of the one's-complement sum of 16-bit words; 0xFFFF in place of 0. -/
def udpChecksum (l : List Byte) : Nat :=
  let words := (List.range ((l.length + 1) / 2)).map (fun i => beNat (padTo 2 ((l.drop (2 * i)).take 2)))
  let x := words.sum
  let x := x % 65536 + x / 65536
  let x := 65535 - (x % 65536 + x / 65536)
  if x = 0 then 65535 else x

/-- A UDP datagram over IPv6 between two addresses, without extension headers and with hop limit 64. -/
def udpPacket (srcIp dstIp srcPort dstPort dscp ecn label : Nat) (payload : List Byte) : List Byte :=
  let len := 8 + payload.length
  let udp (c : Nat) : List Byte := beBytes 2 srcPort ++ beBytes 2 dstPort ++ beBytes 2 len ++ beBytes 2 c ++ payload
  let sum := udpChecksum (beBytes 16 srcIp ++ beBytes 16 dstIp ++ beBytes 4 len ++ [0, 0, 0, 17] ++ udp 0)
  beBytes 4 (6 * 2 ^ 28 + (dscp * 4 + ecn) * 2 ^ 20 + label) ++ beBytes 2 len ++ [17, 64] ++ beBytes 16 srcIp ++ beBytes 16 dstIp ++ udp sum

/-- The frame of a tunnel's datagram, from the destination MAC address to the FCS. What the spec does not give of its headers is a free
value of the half-port. -/
def tunnelFrame (s : State) (h n ecn : Nat) (payload : List Byte) : List Byte :=
  let tag := if s.fld F.LK_TUNNEL_0_TAGGED [n] = 1 then
      beBytes 2 0x8100 ++ beBytes 2 ((Config.tunnelPcp h).toNat * 4096 + s.fld F.LK_TUNNEL_0_VLAN [n])
    else []
  let l := beBytes 6 (s.fld F.LK_TUNNEL_2_PEER_MAC [n]) ++ beBytes 6 (s.fld F.LK_TUNNEL_1_LOCAL_MAC [n]) ++ tag ++ beBytes 2 0x86DD
    ++ udpPacket (s.fld F.LK_TUNNEL_3_LOCAL_IP_HI [n] * 2 ^ 64 + s.fld F.LK_TUNNEL_4_LOCAL_IP_LO [n])
      (s.fld F.LK_TUNNEL_5_PEER_IP_HI [n] * 2 ^ 64 + s.fld F.LK_TUNNEL_6_PEER_IP_LO [n])
      (Config.udpSource h).toNat (s.fld F.LK_ETH_CFG_UDP_PORT) (Config.dscp h).toNat ecn (Config.flowLabel h).toNat payload
  l ++ leBytes 4 (crc32 l)

/-- A packet leaves in the tunnel: sealed under the transmit key with SEQ in place of the unit position, its tag behind it; ECT(0), or CE
where TAILBACK is marked. -/
def sendInTunnel (h n : Nat) (p : Packet) (s : State) : State :=
  let r := s.half h
  let seq := r.keys.txCount
  let p := { p with h := { p.h with kp := r.keys.txKp } }
  let (b, tag) := sealPacket (s.txSecret h).1 (s.txSecret h).2 seq p
  let s := s.setHalf h { r with keys := { r.keys with txCount := seq + 1 } }
  s.emit (.tunnel h seq p (tunnelFrame s h n (if p.h.tailback = 1 then 3 else 2) (beBytes 8 seq ++ b ++ tag)))

/-- A packet leaves a half-port: sealed on an Edbor link, as a frame, or in the tunnel (R96, R109, R110). -/
def putOut (h : Nat) (k : Pkt) (s : State) : State :=
  if k.frame ≠ [] then s.emit (.frame h (k.ports ≠ []) k.frame)
  else match s.tunnelOf h with
    | some n => sendInTunnel h n k.p s
    | none => sendOnLink h k.p s

/-- A packet about to start is checked once, by age and then by fence, and is sent or taken (R153). -/
def startPacket (pid : Nat) (k : Pkt) (s : State) : State :=
  if !mgrType k.p.h.typ && k.frame = [] && s.aged k.p.h then (freePkt pid 8 s).bump F.NI_DROP_A_AGED [k.die]
  else if fencedHere s k then (freePkt pid 8 s).bump F.GK_DROP_FENCED [k.die]
  else
    let s := s.setPkt pid (some { k with stage := .taken })
    let s := s.setQueue k.die k.out k.q ((s.queue k.die k.out k.q).filter (· ≠ pid))
    if k.out ≤ 1 then
      let h := k.die * 2 + k.out
      let s := if k.q = 1 then spendToken k.die k.out s else s
      let s := s.setHalf h { s.half h with sending := some pid }
      putOut h k s
    else s

/-- OUTPUT_START: an output serves its queues. -/
def outputStart (d out : Nat) (s : State) : State :=
  if out ≤ 1 ∧ (s.link (d * 2 + out) ≠ 4 ∨ (s.half (d * 2 + out)).sending.isSome) then s
  else
    match nextPacket s d out with
    | some pid => match s.pkt pid with
      | some k => startPacket pid k s
      | none => s
    | none => s

def execOutputStart (d out : Nat) (s : State) : Result := run (.outputStart d out) s (outputStart d out s)

/-- The unit that frees a packet that has left or been taken (*GK_FAULT*, REQ_UNIT). -/
def freeUnit (out : Nat) : Nat := if out ≤ 1 then out else out + 2

/-- PACKET_DEPARTED: the last unit has left or been taken; its cells are freed (R144). -/
def packetDeparted (pid : Nat) (s : State) : State :=
  match s.pkt pid with
  | some k =>
    if (k.stage = .taken ∧ k.out ≤ 1) ∨ k.stage = .done then
      let h := k.die * 2 + k.out
      let s := if k.out ≤ 1 then
          let r := s.half h
          if r.sending = some pid then s.setHalf h { r with sending := none } else s
        else s
      freePkt pid (freeUnit k.out) s
    else s
  | none => s

def execPacketDeparted (pid : Nat) (s : State) : Result := run (.packetDeparted pid) s (packetDeparted pid s)

/-! ## The Tally (R155, R163, R164) -/

/-- The age of a held cell in µs, as the scan reads it. -/
def cellAgeUs (s : State) (r : CellRec) : Nat :=
  min 65535 ((allocStamp s + 65536 - r.allocUs) % 65536 * 1024 / 1000)

/-- The held cells of an owner on a die, with their records. -/
def heldCells (s : State) (d o : Nat) : List (Nat × CellRec) :=
  (s.gran.cells.filter (fun e => e.1.head? = some d && e.2.st ≠ 0 && e.2.owner = o)).map (fun e => (e.1.getD 1 0, e.2))

/-- A leak (R164): a SHEAF or ENGINE owner and its Field are fenced; any other is a fault in the slice. -/
def raiseLeak (d o cell : Nat) (s : State) : State :=
  let s := granFault d cell o o 9 3 s
  let s := if ownerKind o = 4 ∨ ownerKind o = 5 then s.setFld F.GK_OWNER_FENCED 1 [d, o] else s
  if ownerKind o = 4 ∨ ownerKind o = 5 then ownerReport d o 0x05 s
  else s.report ⟨6, false, [1, d], d, d, 0xFFFF, none, false, 0x04, 0x05, false, gkFaultBytes s d⟩

/-- What the scan finds of one owner: its recount, its oldest age, and a leak when that age has come to exceed the limit. The spec does not
say what GK_FAULT.CELL and CELL_OWNER show of a mismatch, nor that COUNT counts one: here CELL stays, with its present owner, and COUNT counts
every kind (DESIGN CHOICE, log 173). -/
def scanOwner (d o : Nat) (s : State) : State :=
  let cs := heldCells s d o
  let s := if cs.length = s.held d o then s
    else
      let c := s.fld F.GK_FAULT_CELL [d]
      let s := granFault d c (s.cell d c).owner o 9 4 s
      s.report ⟨6, false, [1, d], d, d, 0xFFFF, none, false, 0x04, 0x04, false, gkFaultBytes s d⟩
  let oldest := cs.foldl (fun b c => if cellAgeUs s b.2 < cellAgeUs s c.2 then c else b) (cs.headD (0, {}))
  let age := if cs = [] then 0 else cellAgeUs s oldest.2
  let limit := s.fld F.GK_OWNER_TALLY_AGE_US [d, o]
  let beyond := decide (limit ≠ 0) && decide (limit < age)
  let was := tabGet 0 s.gran.leaking [d, o]
  let s := s.setFld F.GK_TALLY_OLDEST_AGE_US age [d, o]
  let s := { s with gran := { s.gran with leaking := tabSet 0 s.gran.leaking [d, o] (b2n beyond) } }
  if beyond ∧ was = 0 then raiseLeak d o oldest.1 s else s

/-- A side record's SECDED error found by the scan: corrected and logged, or a fault in the slice (R155). -/
def sideError (d : Nat) (e : Nat × Bool) (s : State) : State :=
  if e.2 then s.log 0x04 0x02 d (gkFaultBytes s d)
  else
    let o := (s.cell d e.1).owner
    let s := granFault d e.1 o o 9 5 s
    s.report ⟨6, false, [1, d], d, d, 0xFFFF, none, false, 0x04, 0x03, false, gkFaultBytes s d⟩

/-- TALLY_SCAN of one slice; `errors` are the cells whose side record held an error, true where it was corrected. -/
def tallyScan (d : Nat) (errors : List (Nat × Bool)) (s : State) : State :=
  (s.forAll errors (sideError d)).forAll (List.range 256) (scanOwner d)

def execTallyScan (d : Nat) (errors : List (Nat × Bool)) (s : State) : Result :=
  run (.tallyScan d errors) s (tallyScan d errors s)

end Sys2Proof.Machine
end

