-- ==== Sys2Proof/Machine/Road.lean ====
section
/-! DEFINITION. The meanings of the Road Book's commands (chapter 6). The manager writes of RB_SEAL, RB_SWAP_AT and
RB_RESUME_AT are in Machine/Manager.lean. -/

namespace Sys2Proof.Machine

/-! ## Departures (R179, R182) -/

/-- The stored packets of a slot that have not left, with their numbers. -/
def slotPackets (s : State) (i : Nat) : List (Nat × Pkt) :=
  s.gran.pkts.filterMap (fun e => match e.2 with
    | some k => if k.rbSlot = some i ∧ (k.stage = .filling ∨ k.stage = .queued) then some (e.1.headD 0, k) else none
    | none => none)

/-- A scheduled packet is checked and leaves its output (R153, R179); a late one that leaves is counted. -/
def departNow (r : RbRecord) (pid : Nat) (k : Pkt) (late : Bool) (s : State) : State :=
  let s := startPacket pid k s
  if late ∧ (s.pkt pid).isSome then s.bump F.RB_LATE_LATE_SENT [r.outDie] else s

/-- The output of a record can begin a packet: a link is in UP and sends nothing. -/
def outputIdle (s : State) (r : RbRecord) : Bool :=
  r.outKind ≠ 0 || (s.link r.outUnit = 4 && (s.half r.outUnit).sending.isNone)

/-- SCHED_DEPARTURE of packet `pos` of slot `i`: at its due instant or after, while time is valid. A packet that is not
eligible, or a die off its floor, makes the gate late; one that cannot finish in its window is discarded. -/
def schedDeparture (i pos : Nat) (s : State) : State :=
  if s.fld F.SM_STATUS_STATE = 2 then s else
  match s.record i with
  | none => s
  | some r =>
    match (slotPackets s i).find? (fun e => trainPos r e.2 = pos) with
    | some (pid, k) =>
      let opens := s.fld F.RB_EPOCH_COUNT + k.rbStep * s.periodUnits + 16 * r.dep
      let x := s.now - opens
      let unit := unitTime s r.outKind r.outUnit
      let due := 16 * trainStart r pos * unit
      if !s.timeValid || decide (s.now < opens) || decide (100 * x < due) then s
      else if 1600 * r.len < 100 * x + 16 * r.units * unit then lateDiscard r k.rbStep pid s
      else if k.stage = .queued ∧ s.atFloor r.outDie ∧ outputIdle s r ∧
          !(slotPackets s i).any (fun e => e.2.rbStep = k.rbStep && decide (trainPos r e.2 < pos)) then
        departNow r pid k (decide (due + 100 < 100 * x)) s
      else s
    | none => s

def execSchedDeparture (i pos : Nat) (s : State) : Result := run (.schedDeparture i pos) s (schedDeparture i pos s)

/-- SLOT_SHORTFALL_CHECK at A + LEN + G (R180). -/
def slotShortfallCheck (i : Nat) (s : State) : State :=
  match s.record i with
  | none => s
  | some r =>
    match s.stepOf s.now (16 * (r.arr + r.len + s.guardNs) : Nat) with
    | none => s
    | some (k, _) =>
      let run := s.runOf i k
      if !s.recLive r || run.shortDone then s
      else
        let s := s.setRun i { run with shortDone := true }
        if r.expect ∧ run.eligible < r.pkts then
          let d := r.inDie
          lateSlotFault d i (r.pkts - run.eligible) r.field 0x01 (s.bump F.RB_LATE_SHORTFALL [d])
        else s

def execSlotShortfallCheck (i : Nat) (s : State) : Result := run (.slotShortfallCheck i) s (slotShortfallCheck i s)

/-- Scheduled cells of a slot's range still held at the end of its window: a leak of owner 0 (R182). -/
def windowLeak (d c : Nat) (s : State) : State :=
  if (s.cell d c).st = 0 then s
  else
    let s := granFault d c (s.cell d c).owner (s.cell d c).owner 7 3 s
    s.report ⟨6, false, [1, d], d, d, 0xFFFF, none, false, 0x04, 0x08, false, gkFaultBytes s d⟩

/-- DEPARTURE_WINDOW_END at D + LEN of the step whose window has ended last, once: packets that never left are discarded, the step's late
discards are reported together (R180), and its cells are checked free (R182). -/
def departureWindowEnd (i : Nat) (s : State) : State :=
  match s.record i with
  | none => s
  | some r =>
    match s.stepOf s.now (16 * (r.dep + r.len) : Nat) with
    | none => s
    | some (step, _) =>
      if (s.runOf i step).windowDone then s
      else
        let s := s.forAll ((slotPackets s i).filter (fun e => decide (e.2.rbStep ≤ step))) (fun e s => lateDiscard r step e.1 s)
        let run := s.runOf i step
        let s := s.setRun i { run with windowDone := true }
        let s := if 0 < run.late then lateSlotFault r.outDie i run.late r.field 0x02 s else s
        let next := (slotPackets s i).flatMap (fun e => e.2.cells)
        s.forAll (((List.range r.cells).map (· + r.base)).filter (· ∉ next)) (windowLeak r.outDie)

def execDepartureWindowEnd (i : Nat) (s : State) : Result := run (.departureWindowEnd i) s (departureWindowEnd i s)

/-! ## Banks (R176, R185) -/

/-- BANK_SEAL_DONE (R176). -/
def execBankSealDone (b : Nat) (s : State) : Result := run (.bankSealDone b) s (sealDone b s)

/-- BANK_SWAP (R185). -/
def execBankSwap (s : State) : Result := run .bankSwap s (swapNow s)

/-! ## The floor (R189 to R192) -/

/-- DETAIL of a POWER event: die, PW_DIE_STATE, lead in µs. -/
def powerDetail (s : State) (d lead : Nat) : List Byte :=
  beBytes 1 d ++ beBytes 8 (s.fld F.PW_DIE_STATE_VCORE_MV [d] + 2 ^ 16 * s.fld F.PW_DIE_STATE_TJ [d]
    + 2 ^ 28 * b2n (s.atFloor d) + 2 ^ 29 * b2n (s.schedLive d)) ++ beBytes 2 (min lead 65535)

/-- A floor alarm of a die with a lead. -/
def floorAlarmOn (d lead code : Nat) (s : State) : State :=
  let s := (s.setFld F.RB_ALARM_FLOOR_ALARM 1 [d]).setFld F.RB_ALARM_LEAD_US (min lead 65535) [d]
  raiseAlarm d 1 (s.log 0x0A code d (powerDetail s d lead))

/-- The package's power exceeds PW_CAP.CAP_W, where that is not 0 (R395). -/
def State.overCap (s : State) : Bool := s.fld F.PW_CAP_CAP_W ≠ 0 && decide (s.fld F.PW_CAP_CAP_W < s.fld F.PW_CAP_PACKAGE_W)

/-- FLOOR_ALARM: the forecast comes no later than max(2 ms, PERIOD_NS) before the loss, on a die with SCHED_LIVE = 1. Its event tells where it is
the power cap that cannot be held at the floor (R395, R442). -/
def floorAlarm (d lead : Nat) (s : State) : State :=
  if s.schedLive d && decide (max 2000000 (s.fld F.RB_PERIOD_PERIOD_NS) ≤ 1000 * lead) then floorAlarmOn d lead (if s.overCap then 0x05 else 0x01) s else s

def execFloorAlarm (d lead : Nat) (s : State) : Result := run (.floorAlarm d lead) s (floorAlarm d lead s)

/-- FLOOR_BREACH: the die's measured VCORE and Tj are these; where they have left the floor without a forecast while
SCHED_LIVE reads 1, the alarm has no lead. -/
def floorBreach (d vcore tj : Nat) (s : State) : State :=
  let s := (s.setFld F.PW_DIE_STATE_VCORE_MV vcore [d]).setFld F.PW_DIE_STATE_TJ tj [d]
  if s.schedLive d && !s.atFloor d && s.fld F.RB_ALARM_FLOOR_ALARM [d] = 0 then floorAlarmOn d 0 0x02 s else s

def execFloorBreach (d vcore tj : Nat) (s : State) : Result := run (.floorBreach d vcore tj) s (floorBreach d vcore tj s)

/-- SUSPEND (R191). -/
def execSuspend (d : Nat) (s : State) : Result := run (.suspend d) s (suspendNow d s)

/-- RESUME (R192). -/
def execResume (s : State) : Result := run .resume s (resumeNow s)

end Sys2Proof.Machine
end

