-- ==== Sys2Proof/Machine/Signal.lean ====
section
/-! DEFINITION. The lane signal and the block (R75 to R78): PAM4 levels and Gray code, 1/(1+D) precoding, RS(544,514) over GF(2^10),
the block and its header, the scrambler, and the fill of training frames (R82). Everything here is a function of bits. -/

namespace Sys2Proof.Machine

/-! ## Levels (R75) -/

/-- The bit pair of a level by Gray code: 00, 01, 11, 10 for levels 0 to 3. -/
def grayPair (level : Nat) : Nat := if level = 2 then 3 else if level = 3 then 2 else level

/-- The level of a bit pair: the map is its own inverse. -/
abbrev levelOf (pair : Nat) : Nat := grayPair pair

/-- The 1/(1+D) precoding of IEEE 802.3, after the level `prev` (PRESUMED, log 165): each level and the one before it add up, modulo 4,
to the level coded. -/
def precode : Nat → List Nat → List Nat
  | _, [] => []
  | prev, g :: t => let p := (g + 4 - prev % 4) % 4
                    p :: precode p t

/-- What a precoded lane carried. -/
def unprecode : Nat → List Nat → List Nat
  | _, [] => []
  | prev, p :: t => (p + prev) % 4 :: unprecode p t

/-- The 10-bit symbols of a run of levels, five levels each, most significant bit first. -/
def symbolsOf : List Nat → List Nat
  | a :: b :: c :: d :: e :: t => ([a, b, c, d, e].foldl (fun x l => 4 * x + grayPair l) 0) :: symbolsOf t
  | _ => []

/-- The levels that carry symbols. -/
def levelsOf (l : List Nat) : List Nat := l.flatMap (fun x => [256, 64, 16, 4, 1].map (fun w => levelOf (x / w % 4)))

/-! ## RS(544,514) (R75) -/

/-- Times α in GF(2^10), by x^10 + x^3 + 1 (PRESUMED, log 165: IEEE 802.3 Clause 91). -/
def gfDouble (x : Nat) : Nat := if 512 ≤ x then (2 * x) ^^^ 0x409 else 2 * x

def gfMul (a b : Nat) : Nat :=
  (List.range 10).foldl (fun acc i => (gfDouble acc) ^^^ (if b.testBit (9 - i) then a else 0)) 0

/-- α to the power `n`. -/
def gfAlpha (n : Nat) : Nat := Nat.repeat gfDouble (n % 1023) 1

/-- The inverse of a non-zero element: its 1,022nd power. -/
def gfInv (a : Nat) : Nat :=
  ((List.range 9).foldl (fun (acc : Nat × Nat) _ => let q := gfMul acc.2 acc.2
                                                    (gfMul acc.1 q, q)) (1, a)).1

/-- A polynomial, lowest power first, at a point. -/
def gfEval (p : List Nat) (x : Nat) : Nat := p.foldr (fun c acc => (gfMul acc x) ^^^ c) 0

/-- The sum of two polynomials. -/
def gfAdd : List Nat → List Nat → List Nat
  | [], q => q
  | p, [] => p
  | a :: p, b :: q => (a ^^^ b) :: gfAdd p q

/-- The product of two polynomials. -/
def gfPolyMul : List Nat → List Nat → List Nat
  | [], _ => []
  | a :: p, q => gfAdd (q.map (gfMul a)) (0 :: gfPolyMul p q)

/-- The generator polynomial but for its leading 1, highest power first: the product of x − α^j for j from 0 to 29. -/
def rsGen : List Nat :=
  ((List.range 30).foldl (fun g j => gfPolyMul [gfAlpha j, 1] g) [1]).reverse.tail

/-- The thirty parity symbols of a message, in sending order. -/
def rsParity (m : List Nat) : List Nat :=
  m.foldl (fun r x =>
    let f := x ^^^ r.headD 0
    List.zipWith (fun a g => a ^^^ gfMul f g) (r.tail ++ [0]) rsGen) (List.replicate 30 0)

/-- The codeword of 514 message symbols. -/
def rsEncode (m : List Nat) : List Nat := m ++ rsParity m

/-- The thirty syndromes of a received word. -/
def rsSyndromes (w : List Nat) : List Nat :=
  (List.range 30).map (fun j => let a := gfAlpha j
                                w.foldl (fun acc x => (gfMul acc a) ^^^ x) 0)

/-- What Berlekamp and Massey's procedure carries from one syndrome to the next: the locator, the one before its last change of
length, that length, the steps since, and the discrepancy then. -/
structure RsStep where
  cur : List Nat := [1]
  old : List Nat := [1]
  len : Nat := 0
  gap : Nat := 1
  disc : Nat := 1

def rsStep (syn : List Nat) (x : RsStep) (n : Nat) : RsStep :=
  let d := (List.range (x.len + 1)).foldl (fun acc i => acc ^^^ gfMul (x.cur.getD i 0) (if i ≤ n then syn.getD (n - i) 0 else 0)) 0
  if d = 0 then { x with gap := x.gap + 1 }
  else
    let next := gfAdd x.cur (List.replicate x.gap 0 ++ x.old.map (gfMul (gfMul d (gfInv x.disc))))
    if 2 * x.len ≤ n then { cur := next, old := x.cur, len := n + 1 - x.len, gap := 1, disc := d }
    else { x with cur := next, gap := x.gap + 1 }

/-- The error in the symbol of power `e`, by Forney's formula: nothing where the locator has no root there. -/
def rsError (loc omega : List Nat) (e : Nat) : Option Nat :=
  let xi := gfAlpha (1023 - e % 1023)
  if gfEval loc xi = 0 then
    let der := gfEval (loc.mapIdx (fun i c => if i % 2 = 1 then c else 0)) xi
    some (gfMul (gfAlpha e) (gfMul (gfEval omega xi) (gfInv (gfMul der (gfAlpha e)))))
  else none

/-- A received word decoded: the 514 message symbols, and whether a symbol was corrected; nothing where more than fifteen symbols are
wrong. -/
def rsDecode (w : List Nat) : Option (List Nat × Bool) :=
  let syn := rsSyndromes w
  if syn.all (· = 0) then some (w.take 514, false)
  else
    let x := (List.range 30).foldl (rsStep syn) {}
    let omega := (gfPolyMul syn x.cur).take 30
    let errs := w.mapIdx (fun i _ => rsError x.cur omega (543 - i))
    let fixed := List.zipWith (fun a b => a ^^^ b.getD 0) w errs
    if x.len ≤ 15 ∧ (errs.filter (·.isSome)).length = x.len ∧ (rsSyndromes fixed).all (· = 0) then some (fixed.take 514, true) else none

/-! ## The block (R76) -/

/-- A number as digits of base `2^w`, most significant first. -/
def digits (w : Nat) : Nat → Nat → List Nat
  | 0, _ => []
  | n + 1, v => v / 2 ^ (w * n) % 2 ^ w :: digits w n v

/-- The number digits of base `2^w` spell. -/
def ofDigits (w : Nat) (l : List Nat) : Nat := l.foldl (fun a d => a * 2 ^ w + d) 0

/-- The ten slots of a block of 514 message symbols: two of header, whose bits [19 - 2s : 18 - 2s] are the code of slot s, then the
bytes of the slots, still scrambled. -/
def blockSlots (m : List Nat) : List Slot :=
  let codes := digits 2 10 (ofDigits 10 (m.take 2))
  let bytes := beBytes 640 (ofDigits 10 (m.drop 2))
  (List.range 10).map (fun s => ⟨codes.getD s 0, (bytes.drop (64 * s)).take 64⟩)

/-- The message symbols of a block. -/
def blockSymbols (l : List Slot) : List Nat :=
  digits 10 2 (ofDigits 2 (l.map (·.code))) ++ digits 10 512 (beNat (l.flatMap (·.bytes)))

/-! ## The scrambler (R77) -/

/-- One byte of the additive scrambler x^58 + x^39 + 1, most significant bit first, and its next state. -/
def scramByte (st : Nat) : Nat × Nat :=
  (List.range 8).foldl (fun acc _ =>
    let b := (acc.2 / 2 ^ 57 + acc.2 / 2 ^ 38) % 2
    (acc.1 * 2 + b, (acc.2 * 2 + b) % 2 ^ 58)) (0, st)

/-- Bytes with the scrambler applied or, which is the same, removed; and its next state. -/
def scramble : List Byte → Nat → List Byte × Nat
  | [], st => ([], st)
  | b :: t, st =>
    let (x, st) := scramByte st
    let (l, st) := scramble t st
    ((b ^^^ BitVec.ofNat 8 x) :: l, st)

/-- Slots with the scrambler applied or removed. It advances 5,120 bits a block, whether or not the block decoded. -/
def scrambleSlots : Nat → List Slot → Nat → List Slot × Nat
  | 0, _, st => ([], st)
  | n + 1, l, st =>
    let x := l.headD ⟨0, []⟩
    let (b, st) := scramble (x.bytes ++ List.replicate (64 - x.bytes.length) 0) st
    let (r, st) := scrambleSlots n (l.drop 1) st
    (⟨x.code, b⟩ :: r, st)

/-- The state in which the scrambler of logical lane `n` starts when ALIGN ends. -/
def scramStart (n : Nat) : Nat := 0x3FFFFFFFFFFFFF0 + n

/-! ## A block on the lane -/

/-- What a lane's receiver makes of the 2,720 levels of a codeword: inverted where the training marker came so, precoding removed where
it asked for it, and the code decoded. -/
def receiveBlock (inverted precoded : Bool) (prev : Nat) (levels : List Nat) : Option (List Slot × Bool) :=
  let l := if inverted then levels.map (3 - ·) else levels
  (rsDecode (symbolsOf (if precoded then unprecode prev l else l))).map (fun x => (blockSlots x.1, x.2))

/-- The levels that a lane sends for a block of scrambled slots. -/
def sendBlockLevels (precoded : Bool) (prev : Nat) (l : List Slot) : List Nat :=
  let g := levelsOf (rsEncode (blockSymbols l))
  if precoded then precode prev g else g

/-! ## The fill of training frames (R82) -/

/-- `n` bytes of PRBS13 (x^13 + x^12 + x^2 + x + 1), and its next state. -/
def prbsBytes : Nat → Nat → List Byte × Nat
  | 0, st => ([], st)
  | n + 1, st =>
    let (x, st) := (List.range 8).foldl (fun (acc : Nat × Nat) _ =>
      let b := (acc.2 / 2 ^ 12 + acc.2 / 2 ^ 11 + acc.2 / 2 + acc.2) % 2
      (acc.1 * 2 + b, (acc.2 * 2 + b) % 2 ^ 13)) (0, st)
    let (l, st) := prbsBytes n st
    (BitVec.ofNat 8 x :: l, st)

end Sys2Proof.Machine
end

