-- ==== Sys2Proof/Machine/Links.lean ====
section
/-! DEFINITION. The meanings of the link commands (chapter 3): training, ALIGN, timeouts, blocks and framing, loss of a
link, SEAL units, and circuit relink. RETRAIN, a manager write, is in Machine/Manager.lean. -/

namespace Sys2Proof.Machine

/-! ## Training (R81 to R87) -/

def State.lane (s : State) (h l : Nat) : Lane := tabGet {} (s.half h).lanes [l]

def State.setLane (s : State) (h l : Nat) (r : Lane) : State :=
  let p := s.half h
  s.setHalf h { p with lanes := tabSet {} p.lanes [l] r }

/-- SIGNAL_DETECT: from DOWN to TRAIN, unless the link waits to restart or for RETRAIN (R81, R87). -/
def signalDetect (h : Nat) (s : State) : State :=
  let r := s.half h
  if s.edborHalf h && s.link h = 0 && !r.stayDown && r.restartAt.isNone then enterTrain h s else s

def execSignalDetect (h : Nat) (s : State) : Result := run (.signalDetect h) s (signalDetect h s)

/-- Tap limits and steps of R390, in hundredths: minimum, maximum, step; c(−3) first. -/
def tapTable : List (Int × Int × Int) := [(-6, 0, 1), (0, 12, 1), (-30, 0, 2), (50, 100, 2), (-20, 0, 2)]

/-- *Presets* 1 to 7, in hundredths. -/
def presetTaps (n : Nat) : List Int :=
  match n with
  | 1 => [0, 0, 0, 100, 0]
  | 2 => [0, 0, -10, 90, 0]
  | 3 => [0, 2, -16, 82, 0]
  | 4 => [0, 4, -20, 70, -6]
  | 5 => [-2, 6, -24, 62, -6]
  | 6 => [0, 0, -12, 80, -8]
  | _ => [-4, 8, -28, 54, -6]

def tapSum (l : List Int) : Int := (l.map (fun x => (x.natAbs : Int))).sum

/-- One tap's request: the taps after it and its STATUS code, 1 updated, 2 at minimum, 3 at maximum. -/
def moveTap (taps : List Int) (i req : Nat) : List Int × Nat :=
  let (lo, hi, step) := tapTable.getD i (0, 0, 0)
  let cur := taps.getD i 0
  let next := if req = 1 then cur + step else cur - step
  let moved := taps.set i next
  if next < lo ∨ hi < next ∨ 100 < tapSum moved then (taps, if req = 1 then 3 else 2)
  else (moved, 1)

/-- The requests not yet answered, tap by tap: a tap asked to hold keeps its STATUS. -/
def moveTaps (taps : List Int) (req status : List Nat) : List Int × List Nat :=
  (List.range 5).foldl (fun acc i =>
    if req.getD i 0 = 0 then acc
    else
      let (t, c) := moveTap acc.1 i (req.getD i 0)
      (t, acc.2.set i c)) (taps, status)

/-- TAP_UPDATE: the requests not yet answered take effect, within 1 µs of their arrival (R83, R390). A preset overrides them. -/
def tapUpdate (h l : Nat) (s : State) : State :=
  let r := s.lane h l
  if s.link h ≠ 1 then s
  else if r.pendPreset ≠ 0 then
    s.setLane h l { r with taps := presetTaps r.pendPreset, status := [1, 1, 1, 1, 1], pend := [0, 0, 0, 0, 0], pendPreset := 0 }
  else
    let (t, c) := moveTaps r.taps r.pend r.status
    s.setLane h l { r with taps := t, status := c, pend := [0, 0, 0, 0, 0] }

def execTapUpdate (h l : Nat) (s : State) : Result := run (.tapUpdate h l) s (tapUpdate h l s)

/-! ### Frames (R82) -/

/-- The 16 bytes of INFO (*INFO field*). -/
def infoBytes (i : LinkInfo) : List Byte :=
  beBytes 16 (i.proto * 2 ^ 124 + i.role * 2 ^ 122 + i.width * 2 ^ 120 + i.lane * 2 ^ 116 + b2n i.circuit * 2 ^ 115
    + b2n i.time * 2 ^ 114 + b2n i.precode * 2 ^ 113 + b2n i.relink * 2 ^ 112 + i.device * 2 ^ 96 + i.half * 2 ^ 92)

/-- INFO as received. -/
def infoOf (l : List Byte) : LinkInfo :=
  let n := beNat l
  { proto := n / 2 ^ 124 % 16, role := n / 2 ^ 122 % 4, width := n / 2 ^ 120 % 4, lane := n / 2 ^ 116 % 16, circuit := n.testBit 115,
    time := n.testBit 114, precode := n.testBit 113, relink := n.testBit 112, device := n / 2 ^ 96 % 65536, half := n / 2 ^ 92 % 16 }

/-- The first 32 bytes of a frame: MARKER, CONTROL, STATUS and INFO. -/
def frameHead (control status : Nat) (info : List Byte) : List Byte :=
  beBytes 8 0xFFFFFFFF00000000 ++ beBytes 4 control ++ beBytes 4 status ++ info

/-- Whether a frame came inverted, and its bytes with polarity corrected; nothing where no marker is found. -/
def frameIn (bytes : List Byte) : Option (Bool × List Byte) :=
  let m := beNat (bytes.take 8)
  if m = 0xFFFFFFFF00000000 then some (false, bytes)
  else if m = 0x00000000FFFFFFFF then some (true, bytes.map (fun b => ~~~b)) else none

/-- What a frame says: the five requests of CONTROL, c(−3) first, its preset, RX_TRAINED, and INFO. -/
structure FrameSays where
  req : List Nat
  preset : Nat
  rxTrained : Bool
  info : LinkInfo
  deriving DecidableEq, Repr

def frameSays (b : List Byte) : FrameSays :=
  let c := beNat ((b.drop 8).take 4)
  ⟨digits 2 5 (c % 1024), c / 1024 % 8, (beNat ((b.drop 12).take 4)).testBit 10, infoOf ((b.drop 16).take 16)⟩

/-- The INFO this end sends on a lane: physical lane `l` carries logical lane `l`. -/
def ownInfo (s : State) (h l : Nat) : LinkInfo :=
  { role := 0, width := if s.isWhole h then 0 else 1, lane := l, circuit := s.isCircuit h,
    time := s.fld F.TK_PORT_CAL_EXCH_EN (hp h) = 1, precode := (s.lane h l).wantPre, relink := s.link h = 5, device := s.device, half := h }

/-- R84: a frame's INFO disagrees with this end, or two lanes announce the same LANE. -/
def infoMismatch (s : State) (h l : Nat) (i : LinkInfo) : Bool :=
  i.width ≠ (if s.isWhole h then 0 else 1) || i.circuit ≠ s.isCircuit h || decide (s.laneCount h ≤ i.lane) ||
  (s.half h).lanes.any (fun e => e.1 ≠ [l] && match e.2.info with
    | some j => j.lane = i.lane
    | none => false)

/-- The requests of a frame against what a lane has answered: a request not in force before waits for TAP_UPDATE, once until it returns to
hold, which clears the tap's STATUS; a preset overrides the taps' requests. -/
def takeRequests (r : Lane) (f : FrameSays) : Lane :=
  let held := if r.preset ≠ 0 ∧ f.preset = 0 then [0, 0, 0, 0, 0] else r.status
  let status := held.mapIdx (fun i c => if f.preset ≠ 0 ∨ f.req.getD i 0 ≠ 0 then c else 0)
  let fresh (i : Nat) : Bool := f.preset = 0 && (f.req.getD i 0 = 1 || f.req.getD i 0 = 2) && status.getD i 0 = 0
  { r with
    req := f.req, preset := f.preset, status := status,
    pend := r.pend.mapIdx (fun i p => if p = 0 ∧ fresh i then f.req.getD i 0 else p),
    pendPreset := if f.preset ≠ 0 ∧ r.preset = 0 then f.preset else r.pendPreset }

/-- Every lane of the link has had RX_TRAINED both sent and received in 16 consecutive frames. -/
def allTrained (s : State) (h : Nat) : Bool := (List.range (s.laneCount h)).all (fun l => decide (16 ≤ (s.lane h l).run))

/-- What a frame does to its lane: its requests are taken; RX_TRAINED is sent once the receiver is satisfied; and once every lane has
confirmed it, COUNTING begins at 127, on all lanes in the same frame period. `go` says that it has come to that. -/
def laneFrame (r : Lane) (inverted : Bool) (f : FrameSays) (own : TrainFrame) (go : Bool) : Lane :=
  let r := takeRequests r f
  let sent := r.rxTrained || own.satisfied
  { r with
    rxTrained := sent, run := if sent && f.rxTrained then min 16 (r.run + 1) else 0, counting := r.counting || go, info := some f.info,
    inverted := inverted, wantPre := own.wantPre }

/-- STATUS of the frame that a lane sends now. -/
def statusOf (r : Lane) : Nat :=
  ofDigits 2 r.status + b2n r.rxTrained * 2 ^ 10 + b2n r.counting * 2 ^ 11 + (if r.counting then r.count * 2 ^ 12 else 0)

/-- A lane sends a frame, unless that of COUNT = 0 has gone: 680 bytes, the rest of them fill, seeded at the first frame and running on. -/
def sendFrame (h l control : Nat) (s : State) : State :=
  let r := s.lane h l
  if r.counted then s
  else
    let (fill, st) := prbsBytes 648 (r.fill.getD (0x1FFF - l))
    let s := s.emit (.frameOut h l (frameHead control (statusOf r) (infoBytes (ownInfo s h l)) ++ fill))
    s.setLane h l { r with fill := some st, counted := r.counting && r.count = 0, count := if r.counting then r.count - 1 else r.count }

/-- The frame of COUNT = 0 has gone on every lane: the next to leave is PAM4. -/
def countdownDone (s : State) (h : Nat) : Bool := (List.range (s.laneCount h)).all (fun l => (s.lane h l).counted)

/-- PH_LINK shows the partner's INFO. -/
def showPartner (h : Nat) (i : LinkInfo) (s : State) : State :=
  ((s.setFld F.PH_LINK_PARTNER_DEVICE i.device (hp h)).setFld F.PH_LINK_PARTNER_HALF i.half (hp h)).setFld
    F.PH_LINK_PARTNER_ROLE i.role (hp h)

/-- An entry of a circuit link's relink table is ready (R104), or names a partner. -/
def relinkReady (s : State) (h e : Nat) : Bool :=
  let k := hp h ++ [e]
  s.fld F.PH_RELINK_VALID k = 1 && s.fld F.PH_RELINK_EQ_CACHED k = 1 && s.fld F.PH_RELINK_KEY_READY k = 1

def relinkNames (s : State) (h e : Nat) (i : LinkInfo) : Bool :=
  let k := hp h ++ [e]
  s.fld F.PH_RELINK_VALID k = 1 && s.fld F.PH_RELINK_PARTNER_DEVICE k = i.device && s.fld F.PH_RELINK_PARTNER_HALF k = i.half

/-- A full training with a partner that a valid entry names refreshes its cached equalisation (R104, R105). -/
def cacheEq (h : Nat) (i : LinkInfo) (s : State) : State :=
  if s.isCircuit h then
    s.forAll ((List.range 8).filter (fun e => relinkNames s h e i)) (fun e s =>
      let s := s.setFld F.PH_RELINK_EQ_CACHED 1 (hp h ++ [e])
      s.forAll (List.range (s.laneCount h)) (fun l s =>
        let r := s.half h
        s.setHalf h { r with eqCache := tabSet [] r.eqCache [e, l] (s.lane h l).taps }))
  else s

/-- The lanes of a link take the cached equalisation of an entry, and count 63 frames down (R105). -/
def loadEq (h e : Nat) (s : State) : State :=
  s.forAll (List.range (s.laneCount h)) (fun l s =>
    s.setLane h l { taps := tabGet [] (s.half h).eqCache [e, l], counting := true, count := 63 })

/-- A relink fails: full training and KEY run from TRAIN, and a relink miss is logged (R105). Whether a circuit port that comes up so has
relinked in the sense of R59 is not stated: here TK_PORT_CAL.CALIBRATED and the hop bound stay as they are (DESIGN CHOICE, log 166). -/
def relinkMiss (h : Nat) (s : State) : State := enterTrain h (linkEvent h 0x04 0 [] s)

/-- A training frame in TRAIN. -/
def trainFrame (h l : Nat) (inverted : Bool) (b : List Byte) (own : TrainFrame) (s : State) : State :=
  let f := frameSays b
  if infoMismatch s h l f.info then
    attemptFailed h false (linkEvent h 0x01 0 (infoBytes (ownInfo s h l) ++ (b.drop 16).take 16) s)
  else
    let s := s.setLane h l (laneFrame (s.lane h l) inverted f own (allTrained s h))
    let s := sendFrame h l own.asks s
    if countdownDone s h then enterAlign h (cacheEq h f.info (showPartner h f.info s)) else s

/-- A relay that runs for an entry of which a relink makes use is abandoned (R364). -/
def abandonRelay (h : Nat) (es : List Nat) (s : State) : State :=
  if s.trust.relay.isSome ∧ s.fld F.TC_RELAY_HALF_PORT = h ∧ s.fld F.TC_RELAY_ENTRY ∈ es then
    { s.setFld F.TC_RELAY_STATE 3 with trust := { s.trust with relay := none, mailbox := none } }
  else s

/-- A frame in RELINK, once the marker has been found: the partner's INFO must name a ready entry; this end's relink frame leaves, and
after the 64th on every lane ALIGN follows (R105). -/
def relinkFrame (h l : Nat) (inverted : Bool) (b : List Byte) (own : TrainFrame) (s : State) : State :=
  if (s.half h).relinkTry.isNone then s
  else
    let i := (frameSays b).info
    match (if i.relink then (List.range 8).find? (fun e => relinkReady s h e && relinkNames s h e i) else none) with
    | none => relinkMiss h s
    | some e =>
      let s := sendFrame h l 0 (s.setLane h l { s.lane h l with info := some i, inverted := inverted, wantPre := own.wantPre })
      if countdownDone s h then
        let s := enterAlign h (showPartner h i (abandonRelay h [e] s))
        s.setHalf h { s.half h with relinkTry := some e }
      else s

/-- TRAINING_FRAME: acted on in TRAIN and RELINK; in UP it takes the link to DOWN (R83, R88). Without a marker there is no frame. -/
def trainingFrame (h l : Nat) (f : TrainFrame) (s : State) : State :=
  match frameIn f.bytes with
  | none => s
  | some (inverted, b) =>
    if s.laneCount h ≤ l then s
    else
      match s.link h with
      | 1 => trainFrame h l inverted b f s
      | 4 => if s.isEth h then s else goDown h 0 (linkEvent h 0x06 0 [] s)
      | 5 => relinkFrame h l inverted b f s
      | _ => s

def execTrainingFrame (h l : Nat) (f : TrainFrame) (s : State) : Result :=
  run (.trainingFrame h l f) s (trainingFrame h l f s)

/-! ## ALIGN (R77, R85) -/

/-- ALIGN has ended in both directions: KEY follows, or a relink installs the entry's keys and enters UP. -/
def alignDone (h : Nat) (s : State) : State :=
  match (s.half h).relinkTry with
  | none => enterKey h s
  | some e =>
    let s := (s.setFld F.PH_RELINK_KEY_READY 0 (hp h ++ [e])).setFld F.PH_LINK_RELINK_ENTRY e (hp h)
    let s := (s.setSecret h 0 (tabGet none s.trust.relinkKeys [h, e, 0])).setSecret h 1 (tabGet none s.trust.relinkKeys [h, e, 1])
    let s := { s with trust := { s.trust with relinkKeys := tabSet none (tabSet none s.trust.relinkKeys [h, e, 0] none) [h, e, 1] none } }
    let s := s.setFld F.TK_PORT_CAL_CALIBRATED 0 (hp h)
    installBoth h (enterUp h s)

/-- The next ALIGN row this end sends: RX_READY once its receiver is deskewed, LAST once RX_READY has also come in 16 consecutive rows. Unit
position 0 of its direction leaves one row of 12.8 ns after the row with LAST (R85). -/
def sendAlignRow (h : Nat) (s : State) : State :=
  let r := s.half h
  if r.lastSent then s
  else
    let last := r.deskewed && decide (16 ≤ r.readyRun)
    let arg (n : Nat) : Nat := n * 16 + b2n r.deskewed * 8 + b2n last * 4
    let s := s.emit (.alignRow h ((List.range (s.laneCount h)).map (fun n => linkUnit 3 (arg n) r.rowTx [])))
    s.setHalf h { r with rowTx := (r.rowTx + 1) % 65536, lastSent := last, txAt := if last then s.now + 205 else r.txAt, txNext := 0 }

/-- ROW of a link unit. -/
def unitRow (u : List Byte) : Nat := beNat ((u.drop 4).take 2)

/-- The logical lane that a physical lane of a link carries, as its INFO announced. -/
def State.logical (s : State) (h l : Nat) : Nat := (((s.lane h l).info.map (·.lane)).getD l)

/-- The skew of a row: from the earliest lane to the latest. -/
def rowSkew (row : List AlignLane) : Nat := (row.map (·.arrived)).foldl max 0 - (row.map (·.arrived)).foldl min 4096

/-- The receiver is deskewed on a row: every lane brings an ALIGN unit for the lane it announced, the counters match, and the skew is one it
can remove, 1,280 units of 80 ps. -/
def rowAligned (s : State) (h : Nat) (row : List AlignLane) : Bool :=
  row.length = s.laneCount h && decide (rowSkew row ≤ 1280) &&
  (List.range row.length).all (fun l =>
    let u := (row.getD l ⟨[], 0⟩).unit
    unitType u = 3 && unitArg u / 16 = s.logical h l && unitRow u = unitRow ((row.headD ⟨[], 0⟩).unit))

/-- ALIGN has ended in both directions, where it has. -/
def alignEnds (h : Nat) (s : State) : State :=
  if s.link h = 2 ∧ (s.half h).lastSent ∧ (s.half h).lastRcvd then alignDone h s else s

/-- ALIGN_UNIT: one row of ALIGN units comes, and one of this end's leaves. Position 0 of what it receives follows the row with LAST, and
so do the scramblers of its lanes. -/
def alignUnit (h : Nat) (row : List AlignLane) (s : State) : State :=
  if s.link h ≠ 2 ∨ (s.half h).lastRcvd then s
  else
    let s := sendAlignRow h s
    let r := s.half h
    let ok := rowAligned s h row
    let last := ok && row.all (fun x => (unitArg x.unit).testBit 2)
    let s := s.setHalf h { r with
      deskewed := ok, readyRun := if ok && row.all (fun x => (unitArg x.unit).testBit 3) then min 16 (r.readyRun + 1) else 0, lastRcvd := last,
      rxPos := 0, rowBlocks := [], scram := if last then (List.range (s.laneCount h)).map (fun n => ([n], scramStart n)) else [] }
    alignEnds h (if ok then s.setFld F.PH_LINK_SKEW_UNITS (rowSkew row) (hp h) else s)

def execAlignUnit (h : Nat) (row : List AlignLane) (s : State) : Result := run (.alignUnit h row) s (alignUnit h row s)

/-! ## Timeouts (R87) -/

/-- The limit of a phase in µs. -/
def phaseLimitUs (st : Nat) : Nat := if st = 1 then 60000 else if st = 2 then 200 else 20000

/-- PHASE_TIMEOUT: a failed attempt; a relink's failed ALIGN goes on to full training (R105). -/
def phaseTimeout (h : Nat) (s : State) : State :=
  let st := s.link h
  let r := s.half h
  if (st = 1 ∨ st = 2 ∨ st = 3) ∧ r.since + usUnits (phaseLimitUs st) ≤ s.now then
    if st = 2 ∧ r.relinkTry.isSome then relinkMiss h s
    else attemptFailed h true (linkEvent h 0x02 0 [] s)
  else s

def execPhaseTimeout (h : Nat) (s : State) : Result := run (.phaseTimeout h) s (phaseTimeout h s)

/-- TRAIN_RESTART: 1 ms after a failed attempt. -/
def trainRestart (h : Nat) (s : State) : State :=
  match (s.half h).restartAt with
  | some t => if t ≤ s.now ∧ s.link h = 0 ∧ s.edborHalf h ∧ !(s.half h).stayDown then enterTrain h s else s
  | none => s

def execTrainRestart (h : Nat) (s : State) : Result := run (.trainRestart h) s (trainRestart h s)

/-- PH_CTRL.RETRAIN of a half-port (R74, R86, R87): training starts from DOWN. What the write does to a link in another state is not
stated: here it only clears TRAIN_FAILS and what holds the link in DOWN, and the link goes on (DESIGN CHOICE, log 167). -/
def retrain (h : Nat) (s : State) : State :=
  let s := s.setFld F.PH_LINK_TRAIN_FAILS 0 (hp h)
  let s := s.setHalf h { s.half h with stayDown := false, restartAt := none }
  if s.link h = 0 ∧ s.edborHalf h then enterTrain h s else s

/-! ## Blocks (R75 to R80) -/

/-- A whole block row has come: its positions are taken in striping order, position 10N b + k from slot k / N of logical lane k % N; each
lane's scrambler advances by a block, whether or not the block decoded (R77, R78). -/
def processRow (h : Nat) (s : State) : State :=
  let n := s.laneCount h
  let r := s.half h
  let lanes := (List.range n).map (fun l =>
    let b := tabGet none r.rowBlocks [l]
    let (slots, st) := scrambleSlots 10 (b.getD []) (tabGet 0 r.scram [l])
    (b.isSome, slots, st))
  let s := s.setHalf h { r with rowBlocks := [], scram := (List.range n).map (fun l => ([l], (lanes.getD l (false, [], 0)).2.2)) }
  s.forAll (List.range (10 * n)) (fun k s =>
    let b := lanes.getD (k % n) (false, [], 0)
    position h (if b.1 then b.2.1[k / n]? else none) s)

/-- A block that failed: counted, and four in a row on the lane or 64 within 1 µs call for the link's loss (R80). -/
def failedBlock (h l : Nat) (s : State) : State :=
  let s := s.bump F.LK_FEC_UNCORRECTABLE (hp h)
  let ln := s.lane h l
  let s := s.setLane h l { ln with failRun := ln.failRun + 1 }
  let r := s.half h
  let recent := r.failTimes.filter (fun t => decide (s.now < t + usUnits 1)) ++ [s.now]
  s.setHalf h { r with failTimes := recent, lossDue := r.lossDue || decide (4 ≤ ln.failRun + 1) || decide (64 ≤ recent.length) }

/-- PAM4 blocks that carry unit positions come: the link is in KEY or UP, or the row with LAST has been received. -/
def State.takesBlocks (s : State) (h : Nat) : Bool := !s.isEth h && (s.link h = 3 || s.link h = 4 || (s.link h = 2 && (s.half h).lastRcvd))

/-- BLOCK_RECEIVE: the levels of one codeword on a physical lane. While this end has not ended ALIGN, it sends another ALIGN row in the
time of each row that comes. -/
def blockReceive (h l : Nat) (levels : List Nat) (s : State) : State :=
  if !s.takesBlocks h ∨ s.laneCount h ≤ l then s
  else
    let ln := s.lane h l
    let b := receiveBlock ln.inverted ln.wantPre ln.prevRx levels
    let end_ := levels.getLastD 0
    let s := s.setLane h l { ln with prevRx := if ln.inverted then 3 - end_ else end_ }
    let s := match b with
      | none => failedBlock h l s
      | some x =>
        let s := if x.2 then s.bump F.LK_FEC_CORRECTED (hp h) else s
        s.setLane h l { s.lane h l with failRun := 0 }
    let r := s.half h
    let n := s.logical h l
    let s := s.setHalf h { r with rowBlocks := r.rowBlocks.filter (fun e => e.1 ≠ [n]) ++ [([n], b.map (·.1))] }
    if (s.half h).rowBlocks.length = s.laneCount h then
      let s := processRow h s
      if s.link h = 2 then alignEnds h (sendAlignRow h s) else s
    else s

def execBlockReceive (h l : Nat) (levels : List Nat) (s : State) : Result := run (.blockReceive h l levels) s (blockReceive h l levels s)

/-- LINK_LOSS: too many failed blocks, or lost lock: a fixed link goes to DOWN, a circuit link to RELINK (R80, R88). -/
def linkLoss (h : Nat) (lockLost : Bool) (s : State) : State :=
  if s.link h = 4 ∧ (lockLost ∨ (s.half h).lossDue) then
    goDown h (if s.isCircuit h then 5 else 0) (linkEvent h 0x05 0 [] s)
  else s

def execLinkLoss (h : Nat) (lockLost : Bool) (s : State) : Result := run (.linkLoss h lockLost) s (linkLoss h lockLost s)

/-- DOWN_UNIT_RECEIVE (R90). A half-port in SILENT stays there. -/
def downUnitReceive (h : Nat) (unit : List Byte) (s : State) : State :=
  if s.link h = 6 ∨ s.link h = 0 ∨ s.isEth h ∨ unitType unit ≠ 2 then s else goDown h 0 (linkEvent h 0x03 (unitArg unit) [] s)

def execDownUnitReceive (h : Nat) (unit : List Byte) (s : State) : Result := run (.downUnitReceive h unit) s (downUnitReceive h unit s)

def execSealUnit (h : Nat) (unit : List Byte) (s : State) : Result := run (.sealUnit h unit) s (sealUnit h unit s)

/-! ## What a lane sends (R75 to R78, R89, R90) -/

/-- The units that an emission placed on a link, with the position of the first. -/
def sentUnits (h : Nat) : Emission → Option (Nat × List Slot)
  | .link h' pos _ units => if h' = h then some (pos, units) else none
  | .handshake h' _ pos l => if h' = h then some (pos, l.map (fun p => ⟨1, packetBytes p⟩)) else none
  | _ => none

/-- An emission of a link before its unit positions began. -/
def isAlignRow (h : Nat) : Emission → Bool
  | .alignRow h' _ => h' = h
  | _ => false

/-- What a link sends at a unit position: a DOWN unit once in every block row while it sends them, else the unit placed there since ALIGN
ended, else idle. -/
def State.sentAt (s : State) (h pos : Nat) : Slot :=
  let idle : Slot := ⟨0, List.replicate 64 0⟩
  match (s.half h).downReason with
  | some r => if pos % (10 * s.laneCount h) = 0 then ⟨3, linkUnit 2 r 0 []⟩ else idle
  | none =>
    ((s.out.reverse.takeWhile (fun e => !isAlignRow h e)).findSome? (fun e =>
      (sentUnits h e).bind (fun x => if x.1 ≤ pos then x.2[pos - x.1]? else none))).getD idle

/-- The ten slots that logical lane `n` carries in block row `b`. -/
def State.rowSlots (s : State) (h n b : Nat) : List Slot :=
  let w := s.laneCount h
  (List.range 10).map (fun i => s.sentAt h (10 * w * b + n + w * i))

/-- The scrambler of a lane and the level it sent last, before block row `b`. -/
def State.laneBefore (s : State) (h n : Nat) : Nat → Nat × Nat
  | 0 => (scramStart n, 0)
  | b + 1 =>
    let (st, prev) := s.laneBefore h n b
    let (slots, st) := scrambleSlots 10 (s.rowSlots h n b) st
    (st, (sendBlockLevels ((((s.lane h n).info.map (·.precode)).getD false)) prev slots).getLastD 0)

/-- The 2,720 levels that a lane sends in block row `b`, precoded where the partner asked for it. -/
def State.laneLevels (s : State) (h n b : Nat) : List Nat :=
  let (st, prev) := s.laneBefore h n b
  sendBlockLevels ((((s.lane h n).info.map (·.precode)).getD false)) prev (scrambleSlots 10 (s.rowSlots h n b) st).1

/-! ## Circuit relink (R105) -/

/-- RELINK_SIGNAL: signal is back; `found` are the entries under whose settings the frame marker would be found. Ready
entries are tried in turn from the one used last. -/
def relinkSignal (h : Nat) (found : List Nat) (s : State) : State :=
  if s.link h ≠ 5 then s
  else
    let last := s.fld F.PH_LINK_RELINK_ENTRY (hp h)
    let order := (List.range 8).map (fun i => (last + i) % 8)
    let s := abandonRelay h found s
    match order.find? (fun e => relinkReady s h e && e ∈ found) with
    | some e => loadEq h e (s.setHalf h { s.half h with relinkTry := some e })
    | none => relinkMiss h s

def execRelinkSignal (h : Nat) (found : List Nat) (s : State) : Result := run (.relinkSignal h found) s (relinkSignal h found s)

/-- RELINK_TIMEOUT: signal has not returned within 10 ms. -/
def relinkTimeout (h : Nat) (s : State) : State :=
  if s.link h = 5 ∧ (s.half h).relinkTry.isNone ∧ (s.half h).since + usUnits 10000 ≤ s.now then goDown h 0 s else s

def execRelinkTimeout (h : Nat) (s : State) : Result := run (.relinkTimeout h) s (relinkTimeout h s)

end Sys2Proof.Machine
end

