-- ==== Sys2Proof/Machine/Trust.lean ====
section
/-! DEFINITION. Handshakes and keys (R333 to R349): signatures, certificates and chains, the transcript and what follows
from it, the link handshake and rekeying. -/

namespace Sys2Proof.Machine

/-! ## Common forms (R333) -/

/-- H of a byte string. -/
def hashOf (l : List Byte) : List Byte := bytesOfLen 48 (Config.sha384 l)

/-- Key ID of a public key block. -/
def keyId (pk : List Byte) : List Byte := (hashOf pk).take 16

/-- A label, padded to 16 bytes. -/
def label16 (t : String) : List Byte := bytesOfLen 16 (ascii t)

/-- What a signature covers. -/
def digest (label : String) (content : List Byte) : List Byte := hashOf (label16 label ++ content)

/-- A hybrid signature is valid: both parts verify. -/
def sigOk (pk : List Byte) (label : String) (content sig : List Byte) : Bool :=
  sig.length = 3405 && pk.length = 2049 && Config.ecdsaOk (pk.take 97) (digest label content) (sig.take 96)
    && Config.mldsaOk (pk.drop 97) (digest label content) (sig.drop 96)

/-! ## Device identity (R334) -/

/-- The order of P-384's base point (PRESUMED: FIPS 186-5, which the rule names as n_p384; log 188). -/
def p384Order : Nat := 0xffffffffffffffffffffffffffffffffffffffffffffffffc7634d81f4372ddf581a0db248b0a77aecec196accc52973

/-- The 80 bytes that the identity keys come from. -/
def identityOkm : List Byte := bytesOfLen 80 (Config.hkdfExpand (Config.hkdfExtract Config.fuseSeed Config.pufResponse) (ascii "YFK IDENTITY") 80)

/-- The P-384 private key, and the ML-DSA-65 seed. -/
def ecPrivate : Nat := beNat (identityOkm.take 48) % (p384Order - 1) + 1
def mldsaSeed : List Byte := identityOkm.drop 48

/-- This device's public key block and Key ID. -/
def ownBlock : List Byte := bytesOfLen 97 (Config.ecPublic ecPrivate) ++ bytesOfLen 1952 (Config.mldsaPublic mldsaSeed)
def ownId : List Byte := keyId ownBlock

/-- This device's hybrid signature (R333); ML-DSA's signing is hedged, so each has a draw. -/
def signWith (label : String) (content : List Byte) (s : State) : List Byte × State :=
  let d := digest label content
  (bytesOfLen 96 (Config.ecdsaSign ecPrivate d) ++ bytesOfLen 3309 (Config.mldsaSign mldsaSeed d s.fresh), s.tick)

/-! ## Certificates (R335, R336) -/

def certKind (c : List Byte) : Nat := (c.getD 3 0).toNat
def certSerial (c : List Byte) : List Byte := (c.drop 4).take 16
def certIssuer (c : List Byte) : List Byte := (c.drop 20).take 16
def certKey (c : List Byte) : List Byte := (c.drop 64).take 2049

/-- The layout of *Certificate*. -/
def certForm (c : List Byte) : Bool :=
  c.length = 5518 && c.take 3 = [0x59, 0x43, 1] && allZero ((c.drop 40).take 24) && decide (1 ≤ certKind c ∧ certKind c ≤ 6)
    && (if certKind c = 2 then beNat ((c.drop 36).take 2) = 0x8800 else allZero ((c.drop 38).take 2))

/-- The issuer signed the certificate. -/
def certSigned (issuerPk c : List Byte) : Bool :=
  certIssuer c = keyId issuerPk && sigOk issuerPk "YFK CERTIFICATE" (c.take 2113) (c.drop 2113)

/-- The root that a chain's issuer names, for the kinds of subject and issuer (R336). -/
def rootFor (t : ImageTrust) (subject issuer : List Byte) : Option (List Byte) :=
  if certKind subject = 2 ∧ certKind issuer = 1 then (if keyId t.vendorRoot = certIssuer issuer then some t.vendorRoot else none)
  else if certKind subject = 3 ∧ certKind issuer = 4 then t.partnerRoots.find? (fun r => keyId r = certIssuer issuer)
  else none

/-- The Trust Core accepts a chain: the subject's public key block, or the REASON of an ABORT. A cached issuer is not verified
again. -/
def chainCheck (s : State) (subject issuer : List Byte) : Except Nat (List Byte) :=
  let t := s.trust.image
  if keyId (certKey subject) = ownId then .error 0x05
  else match rootFor t subject issuer with
    | none => .error 0x01
    | some root =>
      if certForm subject && certForm issuer && (keyId (certKey issuer) ∈ s.trust.issuers || certSigned root issuer) && certSigned (certKey issuer) subject
          && certSerial subject ∉ t.deny && certSerial issuer ∉ t.deny then .ok (certKey subject) else .error 0x01

/-- Up to 32 verified issuers are kept. -/
def cacheIssuer (issuer : List Byte) (s : State) : State :=
  let id := keyId (certKey issuer)
  if id ∈ s.trust.issuers ∨ 32 ≤ s.trust.issuers.length then s else { s with trust := { s.trust with issuers := s.trust.issuers ++ [id] } }

/-- The peer's kind and ROLE suit the port (R345). -/
def roleOk (s : State) (h kind : Nat) : Bool :=
  let role := s.fld F.PH_LINK_PARTNER_ROLE (hp h)
  if s.isEndpoint h || s.isEth h then kind = 2 || (kind = 3 && (s.isEth h || role = 1 || role = 2)) else kind = 2 && role = 0

/-! ## The transcript (R347) -/

def helloNonce (m : List Byte) : List Byte := (m.drop 4).take 32
def helloPoint (m : List Byte) : List Byte := (m.drop 36).take 97
def helloKem (m : List Byte) : List Byte := (m.drop 133).take 1184
def helloChain (m : List Byte) : List Byte := m.drop 1317

/-- This end is lo: its NONCE is the lower one. -/
def isLo (r : HsRec) : Bool := decide (beNat (helloNonce r.myHello) < beNat (helloNonce r.peerHello))

/-- t of R347. -/
def transcript (label : String) (r : HsRec) : List Byte :=
  let (hl, hh, kl, kh) := if isLo r then (r.myHello, r.peerHello, r.myKem, r.peerKem) else (r.peerHello, r.myHello, r.peerKem, r.myKem)
  hashOf (label16 label ++ hl ++ hh ++ kl ++ kh)

/-- prk of R347. -/
def prkOf (label : String) (r : HsRec) : List Byte :=
  let mine := bytesOfLen 32 (Config.kemSecret (helloKem r.peerHello) r.kemDraw)
  let theirs := bytesOfLen 32 (Config.kemOpen r.draw r.peerKem)
  let (a, b) := if isLo r then (mine, theirs) else (theirs, mine)
  Config.hkdfExtract (transcript label r) (bytesOfLen 48 (Config.ecdh r.draw (helloPoint r.peerHello)) ++ a ++ b)

/-- The keys of what the end with Key ID `id` transmits; the next key is formed at once (R347, R348). -/
def linkKeysOf (r : HsRec) (id peer : List Byte) : LinkSecret :=
  let okm := bytesOfLen 84 (Config.hkdfExpand (prkOf "YFK LINK HS" r) (ascii "YFK LINK KEY" ++ id) 84)
  nextSecret peer (okm.take 48) ((okm.drop 48).take 32) (okm.drop 80)

/-- Both directions of a finished handshake: what this device transmits, and what it receives. -/
def pairOf (r : HsRec) : LinkSecret × LinkSecret :=
  let peer := keyId r.partner
  (linkKeysOf r ownId peer, linkKeysOf r peer peer)

/-! ## The steps of a handshake (R346), whatever carries its messages -/

/-- What a step makes of a handshake: the next record with the messages to send, or the REASON of an ABORT; nothing where the
message is out of turn. -/
inductive HsStep where
  | ignore
  | abort (reason : Nat)
  | go (r : HsRec) (send : List (Nat × List Byte)) (s : State)

/-- The peer's HELLO, once its subject's key is known: KEMCT goes out. -/
def takeHello (r : HsRec) (m pk : List Byte) (s : State) : HsStep :=
  let ct := bytesOfLen 1088 (Config.kemCipher (helloKem m) s.fresh)
  .go { r with peerHello := m, partner := pk, kemDraw := s.fresh, myKem := ct, got := r.got ++ [1], sent := r.sent ++ [2] } [(2, ct)] s.tick

/-- The format of a HELLO with a chain of two certificates. -/
def helloForm (flags : Nat) (m : List Byte) : Bool := m.length = 12353 && m.take 4 = [1, BitVec.ofNat 8 flags, 0, 2]

/-- HELLO: the nonces differ and the chain is accepted; `port` is what R345 asks of the subject's kind. -/
def onHello (r : HsRec) (flags : Nat) (port : Nat → Bool) (m : List Byte) (s : State) : HsStep :=
  if 1 ∈ r.got then .ignore
  else if !helloForm flags m then .abort 0x01
  else if helloNonce m = helloNonce r.myHello then .abort 0x02
  else
    let a := (helloChain m).take 5518
    let b := (helloChain m).drop 5518
    match chainCheck s a b with
    | .error e => .abort e
    | .ok pk => if port (certKind a) then takeHello r m pk (cacheIssuer b s) else .abort 0x01

/-- KEMCT: FINISH goes out, with this device's signature over the transcript. -/
def onKemct (label : String) (r : HsRec) (m : List Byte) (s : State) : HsStep :=
  if 1 ∉ r.got ∨ 2 ∈ r.got then .ignore
  else if m.length ≠ 1088 then .abort 0x03
  else
    let r := { r with peerKem := m, got := r.got ++ [2], sent := r.sent ++ [3] }
    let (sig, s) := signWith label (transcript label r) s
    .go r [(3, sig)] s

/-- FINISH: the peer's signature over the transcript is valid; keys follow, and DONE goes out. -/
def onFinish (label : String) (r : HsRec) (m : List Byte) (s : State) : HsStep :=
  if 2 ∉ r.got ∨ 3 ∈ r.got then .ignore
  else if sigOk r.partner label (transcript label r) m then
    .go { r with keys := some (pairOf r), got := r.got ++ [3], sent := r.sent ++ [4] } [(4, [])] s
  else .abort 0x04

/-- DONE. -/
def onDone (r : HsRec) (s : State) : HsStep :=
  if 1 ∉ r.got ∨ 4 ∈ r.got then .ignore else .go { r with got := r.got ++ [4] } [] s

/-- A handshake is over: DONE has been sent and received. -/
def HsRec.over (r : HsRec) : Bool := 4 ∈ r.sent && 4 ∈ r.got

/-! ## The link handshake -/

/-- Handshake messages are taken now: in KEY, or in a tunnel whose link is up (R86, R351). -/
def State.keyPhase (s : State) (h : Nat) : Bool := s.link h = 3 || (s.link h = 4 && (s.tunnelOf h).isSome)

/-- DETAIL of a TRUST event: half-port or key index, reason, FS_ORDER. -/
def trustDetail (s : State) (place reason : Nat) : List Byte := beBytes 1 place ++ beBytes 1 reason ++ beBytes 8 (s.rawWord .FS_ORDER [])

/-- A refusal of identity (R86): a down notice with reason 0x06, and DOWN until PH_CTRL.RETRAIN. A tunnel only loses its
handshake. -/
def refuseIdentity (h reason : Nat) (s : State) : State :=
  let s := (s.bump F.TC_STATUS_REFUSALS).log 0x0B 0x01 (h / 2) (trustDetail s h reason)
  if s.isEth h then s.setHs h none
  else
    let s := goDown h 0 (sendDown h 0x06 s)
    s.setHalf h { s.half h with stayDown := true, restartAt := none }

/-- What an ABORT does at both ends: refusals, and attempts that failed without one (R346). -/
def abortActs (h reason : Nat) (s : State) : State :=
  if reason = 0x02 ∨ reason = 0x03 then (if s.isEth h then startHandshake h s else attemptFailed h true s)
  else refuseIdentity h reason s

/-- The keys are installed; the link enters UP once both DONEs have passed. -/
def linkSettle (h : Nat) (s : State) : State :=
  match s.hsOn h with
  | none => s
  | some r =>
    match r.keys with
    | some (tx, rx) =>
      if r.over then
        let s := ((s.setHs h none).setSecret h 0 (some tx)).setSecret h 1 (some rx)
        if s.isEth h then showPeer h tx.peer (installBoth h { s with trust := { s.trust with tunnelSeqs := tabSet [] s.trust.tunnelSeqs [h] [] } })
        else installBoth h (enterUp h s)
      else s
    | none => s

/-- Carry out a step on a link. -/
def linkStep (h : Nat) (st : HsStep) (s : State) : State :=
  match st with
  | .ignore => s
  | .abort e => abortActs h e (sendHs h 5 e [] s)
  | .go r send s' => linkSettle h (s'.forAll send (fun m s => sendHs h m.1 0 m.2 (s.setHs h (some r))) |> fun s => s.setHs h (some r))

/-- A handshake message on a link; `none` where a fragment was missing or out of order. -/
def linkMessage (h : Nat) (m : Option (List Byte)) (f : HsRec → List Byte → State → HsStep) (s : State) : State :=
  if !s.keyPhase h ∨ !s.trustReady then s
  else match s.hsOn h with
    | none => s
    | some r => if !s.hsTurn r.startedAt h then s else linkStep h (match m with
      | none => .abort 0x03
      | some b => f r b s) s

/-- HELLO: one that arrives while the link is UP takes it to KEY first (R98); in a tunnel it starts the handshake anew. -/
def hello (h : Nat) (m : Option (List Byte)) (s : State) : State :=
  let s := if s.link h = 4 ∧ s.edborHalf h then enterKey h s
    else if (s.tunnelOf h).isSome ∧ s.link h = 4 ∧ (s.hsOn h).isNone then startHandshake h s else s
  linkMessage h m (fun r b s => onHello r 0 (roleOk s h) b s) s

def execHello (h : Nat) (m : Option (List Byte)) (s : State) : Result := run (.hello h m) s (hello h m s)

def execKemct (h : Nat) (m : Option (List Byte)) (s : State) : Result :=
  run (.kemct h m) s (linkMessage h m (onKemct "YFK LINK HS") s)

def execFinish (h : Nat) (m : Option (List Byte)) (s : State) : Result :=
  run (.finish h m) s (linkMessage h m (onFinish "YFK LINK HS") s)

def execDone (h : Nat) (s : State) : Result := run (.done h) s (linkMessage h (some []) (fun r _ s => onDone r s) s)

/-- ABORT: the receiver acts as its sender does (R346). -/
def execAbort (h reason : Nat) (s : State) : Result :=
  run (.abort h reason) s (if s.keyPhase h ∧ (s.hsOn h).isSome then abortActs h reason s else s)

/-! ## Rekeying (R98) -/

/-- REKEY_START: the transmit key has sealed 2^31 packets or been in use for 5 minutes. -/
def rekeyStart (h : Nat) (s : State) : State :=
  let k := (s.half h).keys
  if s.link h = 4 ∧ k.txValid ∧ (2 ^ 31 ≤ k.txCount ∨ k.txAt + usUnits 300000000 ≤ s.now) then s.setFld F.LC_STATUS_REKEY_PENDING 1 (hp h) else s

def execRekeyStart (h : Nat) (s : State) : Result := run (.rekeyStart h) s (rekeyStart h s)

/-- KEY_INSTALLED: the transmitter takes its next key and inverts KP. -/
def keyInstalled (h : Nat) (s : State) : State :=
  let r := s.half h
  if s.link h = 4 ∧ s.fld F.LC_STATUS_REKEY_PENDING (hp h) = 1 then
    let kp := 1 - r.keys.txKp
    let s := rotateSecret h 0 (s.setHalf h { r with keys := { r.keys with txKp := kp, txCount := 0, txAt := s.now } })
    (s.setFld F.LC_STATUS_REKEY_PENDING 0 (hp h)).setFld F.PH_LINK_TX_KP kp (hp h)
  else s

def execKeyInstalled (h : Nat) (s : State) : Result := run (.keyInstalled h) s (keyInstalled h s)

/-- KEY_RETIRE: 2^32 packets or 10 minutes without replacement: the end enters KEY, carries no packets and sends HELLO; a
tunnel starts a new handshake and carries nothing meanwhile. -/
def keyRetire (h : Nat) (s : State) : State :=
  let k := (s.half h).keys
  if s.link h = 4 ∧ k.txValid ∧ (2 ^ 32 ≤ k.txCount ∨ k.txAt + usUnits 600000000 ≤ s.now) then
    if s.isEth h then startHandshake h (dropKeys h s) else enterKey h s
  else s

def execKeyRetire (h : Nat) (s : State) : Result := run (.keyRetire h) s (keyRetire h s)

end Sys2Proof.Machine
end

