-- ==== Sys2Proof/Machine/Ethernet.lean ====
section
/-! DEFINITION. Ethernet mode (R107 to R111): the link, the 802.1Q bridge and the tunnels. -/

namespace Sys2Proof.Machine

/-! ## The link (R107, R162) -/

/-- The half-port runs an enabled Ethernet interface. -/
def State.ethHalf (s : State) (h : Nat) : Bool :=
  s.halfExists h && s.fld F.PH_PORT_CFG_ENABLE [h / 2] = 1 && s.isEth h && s.fld F.SL_STATUS_STATE = 4

/-- ETH_LINK_UP: frames pass, and a tunnel over the half-port starts its handshake (R351). PTP forms d_ref anew (R58). -/
def ethLinkUp (h : Nat) (s : State) : State :=
  if s.ethHalf h ∧ s.link h ≠ 4 ∧ s.link h ≠ 6 then
    let s := setLink h 4 s
    let s : State := { s with gran := { s.gran with tokens := tabSet none s.gran.tokens (hp h) (some (16 * 4096, s.now)) } }
    let x := tabGet {} s.time.ptp [h]
    let s : State := { s with time := { s.time with ptp := tabSet {} s.time.ptp [h] { x with dSamples := [], dRef := none } } }
    if (s.tunnelOf h).isSome then startHandshake h s else s
  else s

def execEthLinkUp (h : Nat) (s : State) : Result := run (.ethLinkUp h) s (ethLinkUp h s)

/-- ETH_LINK_DOWN: queued packets are discarded, the half-port is no candidate, its keys and time sources are gone. -/
def ethLinkDown (h : Nat) (s : State) : State := if s.isEth h ∧ s.link h = 4 then goDown h 0 s else s

def execEthLinkDown (h : Nat) (s : State) : Result := run (.ethLinkDown h) s (ethLinkDown h s)

/-! ## The bridge (R108, R109) -/

/-- A received frame: its addresses, its 802.1Q tag (PCP and DEI, VLAN), and what follows the tag, up to the FCS. -/
structure EthFrame where
  dst : Nat
  src : Nat
  tag : Option (Nat × Nat)
  rest : List Byte
  deriving DecidableEq, Repr

/-- Read a frame without its FCS. -/
def ethFrameOf (l : List Byte) : EthFrame :=
  if beNat ((l.drop 12).take 2) = 0x8100 then
    let tci := beNat ((l.drop 14).take 2)
    ⟨beNat (l.take 6), beNat ((l.drop 6).take 6), some (tci / 4096, tci % 4096), l.drop 16⟩
  else ⟨beNat (l.take 6), beNat ((l.drop 6).take 6), none, l.drop 12⟩

/-- The EtherType. -/
def EthFrame.etherType (f : EthFrame) : Nat := beNat (f.rest.take 2)

/-- A group address. -/
abbrev isGroup (mac : Nat) : Bool := mac.testBit 40

/-- An address that no bridge forwards: 01-80-C2-00-00-00 to -0F. -/
def isReservedGroup (mac : Nat) : Bool := mac / 16 = 0x0180C200000

/-- The frame as it leaves on a VLAN, tagged or not, with the priority it came with and a new FCS. -/
def ethBytes (f : EthFrame) (vlan : Nat) (tagged : Bool) : List Byte :=
  let head := beBytes 6 f.dst ++ beBytes 6 f.src
  let pcp := (f.tag.map (·.1)).getD 0
  let l := if tagged then head ++ beBytes 2 0x8100 ++ beBytes 2 (pcp * 4096 + vlan) ++ f.rest else head ++ f.rest
  l ++ leBytes 4 (crc32 l)

/-- The VLAN of a frame: its tag's, or the half-port's PVID. -/
def frameVlan (s : State) (h : Nat) (f : EthFrame) : Nat :=
  match f.tag with
  | some (_, v) => if v = 0 then tabGet 0 s.bridge.pvid [h] else v
  | none => tabGet 0 s.bridge.pvid [h]

/-- Learn a source address: 32,768 entries, keyed by VLAN and MAC. -/
def learnMac (vlan mac h : Nat) (s : State) : State :=
  if isGroup mac then s
  else
    let known := s.bridge.macs.any (fun e => e.vlan = vlan && e.mac = mac)
    if !known && decide (32768 ≤ s.bridge.macs.length) then s
    else { s with bridge := { s.bridge with macs := s.bridge.macs.filter (fun e => !(e.vlan = vlan && e.mac = mac)) ++ [⟨vlan, mac, h, s.now⟩] } }

/-- The half-ports a frame of a VLAN leaves by: the learned one, or every other member. -/
def bridgePorts (s : State) (h : Nat) (v : VlanRec) (dst : Nat) : List Nat :=
  let members := (List.range 16).filter (fun c => v.member.testBit c && c ≠ h && s.isEth c && s.linkUp c)
  match (if isGroup dst then none else s.bridge.macs.find? (fun e => e.vlan = v.vlan && e.mac = dst)) with
  | some e => members.filter (· = e.half)
  | none => members

/-- Hold one copy of a frame for a half-port, as data-class traffic of the VLAN's Field; a copy that gets no cells is lost. -/
def storeFrame (h c field : Nat) (bytes : List Byte) (tagged : Bool) (s : State) : State :=
  let o := s.fmap (c / 2) field
  match allocate (c / 2) o ((bytes.length + 255) / 256) (c % 2) 2 s with
  | none => s.bump F.GK_DROP_BUSY [c / 2]
  | some (cs, s) =>
    let p : Packet := { h := { cls := 1, typ := 0x80, field := field, depart := departOf s.now }, body := [] }
    (storePkt { p := p, die := c / 2, out := c % 2, q := 2, owner := o, cells := cs, input := .half h, tagOk := true, frame := bytes, ports := if tagged then [c] else [], issuedAt := s.now } s).2

/-- Bridge a frame of a VLAN. -/
def bridgeFrame (h : Nat) (v : VlanRec) (f : EthFrame) (s : State) : State :=
  let s := learnMac v.vlan f.src h s
  let unlearned := !isGroup f.dst && !(s.bridge.macs.any (fun e => e.vlan = v.vlan && e.mac = f.dst))
  let s : State := if unlearned && decide (32768 ≤ s.bridge.macs.length) then
      { s with bridge := { s.bridge with unlearned := tabSet 0 s.bridge.unlearned [h] (tabGet 0 s.bridge.unlearned [h] + 1) } }
    else s
  s.forAll (bridgePorts s h v f.dst) (fun c s =>
    let tagged := !v.untagged.testBit c
    storeFrame h c v.field (ethBytes f v.vlan tagged) tagged s)

/-- A frame belongs to the tunnel of its half-port, or to PTP: it is not bridged. -/
def notBridged (s : State) (h : Nat) (f : EthFrame) : Bool :=
  f.etherType = 0x88F7 || (match s.tunnelOf h with
    | some n => s.fld F.LK_TUNNEL_1_LOCAL_MAC [n] = f.dst
    | none => false)

/-- ETH_FRAME_RECEIVE: `bytes` run from the destination address to the FCS. -/
def ethFrameReceive (h : Nat) (bytes : List Byte) (s : State) : State :=
  if !s.isEth h ∨ s.link h ≠ 4 then s
  else if 9216 < bytes.length then
    { s with bridge := { s.bridge with tooLong := tabSet 0 s.bridge.tooLong [h] (tabGet 0 s.bridge.tooLong [h] + 1) } }
  else
    let l := bytes.take (bytes.length - 4)
    let f := ethFrameOf l
    if bytes.length < 64 ∨ bytes.drop (bytes.length - 4) ≠ leBytes 4 (crc32 l) then s
    else if s.fld F.LK_ETH_CFG_BRIDGE_EN = 0 ∨ notBridged s h f ∨ isReservedGroup f.dst then s
    else match s.bridge.vlans.find? (fun v => v.vlan = frameVlan s h f) with
      | some v => if v.member.testBit h then bridgeFrame h v f s else s
      | none => s

def execEthFrameReceive (h : Nat) (bytes : List Byte) (s : State) : Result :=
  run (.ethFrameReceive h bytes) s (ethFrameReceive h bytes s)

/-- MAC_AGE_EXPIRE: an entry not seen for MAC_AGE_S seconds is dropped. -/
def macAgeExpire (vlan mac : Nat) (s : State) : State :=
  let old := s.bridge.macs.filter (fun e => e.vlan = vlan && e.mac = mac && decide (e.seen + s.fld F.LK_ETH_CFG_MAC_AGE_S * 16000000000 ≤ s.now))
  { s with bridge := { s.bridge with macs := s.bridge.macs.filter (fun e => e ∉ old) } }

def execMacAgeExpire (vlan mac : Nat) (s : State) : Result := run (.macAgeExpire vlan mac) s (macAgeExpire vlan mac s)

/-! ## Tunnels (R110, R111) -/

/-- A datagram comes from the tunnel's peer, as its record describes it. -/
def fromPeer (s : State) (n : Nat) (g : Datagram) : Bool :=
  g.checksumOk && g.udpPort = s.fld F.LK_ETH_CFG_UDP_PORT && g.dstMac = s.fld F.LK_TUNNEL_1_LOCAL_MAC [n]
    && g.dstIp = s.fld F.LK_TUNNEL_3_LOCAL_IP_HI [n] * 2 ^ 64 + s.fld F.LK_TUNNEL_4_LOCAL_IP_LO [n]
    && g.srcIp = s.fld F.LK_TUNNEL_5_PEER_IP_HI [n] * 2 ^ 64 + s.fld F.LK_TUNNEL_6_PEER_IP_LO [n]
    && (if s.fld F.LK_TUNNEL_0_TAGGED [n] = 1 then g.vlan = some (s.fld F.LK_TUNNEL_0_VLAN [n]) else g.vlan = none)

/-- The SEQs accepted under the present key that still matter. -/
def seenSeqs (s : State) (h : Nat) : List Nat := tabGet [] s.trust.tunnelSeqs [h]

/-- A SEQ more than 1,024 below the highest accepted, or accepted already, is discarded. -/
def staleSeq (s : State) (h seq : Nat) : Bool :=
  seq ∈ seenSeqs s h || decide (seq + 1024 < (seenSeqs s h).foldl max 0)

def keepSeqs (h : Nat) (l : List Nat) (s : State) : State :=
  { s with trust := { s.trust with tunnelSeqs := tabSet [] s.trust.tunnelSeqs [h] (l.filter (fun x => decide (l.foldl max 0 ≤ x + 1024))) } }

/-- A tag fails in a tunnel: counted as on a link; the eighth within 1 ms ends the keys, and a new handshake starts (R99). -/
def tunnelFail (h : Nat) (s : State) : State :=
  let s := s.bump F.LC_STATUS_TAG_FAILS (hp h)
  let r := s.half h
  let recent := r.tagFails.filter (fun t => decide (s.now < t + usUnits 1000)) ++ [s.now]
  if 8 ≤ recent.length then
    let s := s.log 0x03 0x01 (h / 2) (beBytes 1 h ++ beBytes 8 (s.rawWord .LC_STATUS (hp h)))
    startHandshake h (dropKeys h (s.setHalf h { r with tagFails := [] }))
  else s.setHalf h { r with tagFails := recent }

/-- TUNNEL_DATAGRAM: the packet inside meets the checks of a packet from a link once its tag has passed; an outer CE marks it. Key
handshakes have commands of their own, and no time exchange runs through a tunnel. -/
def tunnelDatagram (h : Nat) (g : Datagram) (s : State) : State :=
  match s.tunnelOf h with
  | none => s
  | some n =>
    if s.link h ≠ 4 ∨ !fromPeer s n g ∨ linkLocal g.p.h.typ then s
    else
      let old := (s.half h).keys.rxKp
      let fresh := (s.half h).keys.rxNew && g.p.h.kp ≠ old
      if !(s.kpHeld h g.p.h.kp) || g.tag ≠ hopTag s h g.seq g.p then tunnelFail h s
      else if !fresh && staleSeq s h g.seq then s
      else
        let s := keepSeqs h ((if fresh then [] else seenSeqs s h) ++ [g.seq]) (takePhase h g.p.h.kp s)
        let hd := g.p.h
        let p := { g.p with h := { hd with tailback := if g.ecn = 3 ∧ hd.tailback = 0 then 1 else hd.tailback } }
        let (pid, s) := arrive h p s
        tagVerdict h pid true s

def execTunnelDatagram (h : Nat) (g : Datagram) (s : State) : Result := run (.tunnelDatagram h g) s (tunnelDatagram h g s)

end Sys2Proof.Machine
end

