-- ==== Sys2Proof/Machine/Delivery.lean ====
section
/-! DEFINITION. Chapter 4 at its two ends: delivery at a tile NI (R128, R129, R115, R135), responses and NAKs at the tag table
(R132 to R134), the Tailback echo (R102, R103), version switches and the age limit (R120, R130), the comparison of the Hedge
copies (R118) and the end of a drain (R137). -/

namespace Sys2Proof.Machine

/-! ## Taking a packet -/

/-- A unit takes a packet its output has passed to it: one whose CHECK fails is discarded whole (R129); the packet is then
done with. -/
def receive (pid out : Nat) (types : List Nat) (f : Pkt → State → State) (s : State) : State :=
  match s.pkt pid with
  | some k =>
    if k.stage = .taken ∧ k.out = out ∧ k.p.h.typ ∈ types then
      let s := s.setPkt pid (some { k with stage := .done })
      if checkOk k.p then f k s else checkFailure k s
    else s
  | none => s

/-- The second Hedge check where a request takes effect, at a tile NI or an engine slice (R35, R118, R128): the Field owns the row of the
tile that the destination rank names. -/
def ownedThen (k : Pkt) (f : State → State) (s : State) : State :=
  if s.ownsTile2 k.die k.dstTile k.p.h.field then f s else hedgeFault k.die 0x02 k.p.h.field k.dstTile s

/-- A tile's role epoch (R135). -/
def State.roleEpoch (s : State) (d t : Nat) : Nat := s.fld F.TL_OWNER_ROLE_EPOCH [d, t]

def advanceRole (d t : Nat) (s : State) : State := s.setFld F.TL_OWNER_ROLE_EPOCH ((s.roleEpoch d t + 1) % 256) [d, t]

/-! ## Windows and references (R115, R233) -/

/-- The tile byte offset of (window, offset, length) under the permission asked for, or nothing where R115 refuses it. -/
def windowAt (s : State) (d t w off len : Nat) (write : Bool) : Option Nat :=
  let base := s.fld F.NI_WINDOW_BASE_BLK [d, t, w] * 64
  let size := s.fld F.NI_WINDOW_LENGTH_BLK [d, t, w] * 64
  let perm := if write then s.fld F.NI_WINDOW_WR [d, t, w] else s.fld F.NI_WINDOW_RD [d, t, w]
  if size ≠ 0 ∧ perm = 1 ∧ off + len ≤ size ∧ base + off + len ≤ tileSize then some (base + off) else none

/-- The slot a reference names, 1,024 for none; nothing where R233 refuses it. -/
def refSlot (s : State) (d t ref : Nat) : Option Nat :=
  if ref = noRef then some 1024
  else if ref / 1024 % 16384 = 0 ∧ ref / 2 ^ 24 = (s.slot d t (ref % 1024)).gen then some (ref % 1024) else none

/-- A stale reference is counted (R233). -/
def countRef (d t ref : Nat) (s : State) : State :=
  if ref ≠ noRef ∧ ref / 1024 % 16384 = 0 ∧ ref / 2 ^ 24 ≠ (s.slot d t (ref % 1024)).gen then s.bump F.TL_WB_STAT_STALE_REFS [d, t] else s

/-- An MX packet carries whole segments from a multiple of 2,048 elements; other formats ask nothing (R198). -/
def mxWhole (p : Packet) : Bool :=
  match elemOf p.elemFormat with
  | some (.mx f) => p.h.units * 64 % segBytes f = 0 && p.elemBase % 2048 = 0
  | _ => true

/-- The credit of a delivered packet (R234). -/
def creditRef (d t n : Nat) (poisoned : Bool) (s : State) : State := if n < 1024 then creditSlot d t n poisoned s else s

/-- Bytes are committed to tile memory (R32, R128). -/
def commit (d t off : Nat) (l : List Byte) (s : State) : State := s.writeMem d t off l

/-- The window, the reference and, just before a commit, the age: what R128 asks of a write before it happens. -/
def deliverWrite (k : Pkt) (w off ref : Nat) (bytes : List Byte) (aligned : Bool) (s : State) : State :=
  let d := k.die
  let t := k.dstTile
  let s := countRef d t ref s
  match (if aligned then windowAt s d t w off bytes.length true else none), refSlot s d t ref with
  | some at_, some n =>
    if s.aged k.p.h then noteMark d t k.p (s.bump F.NI_DROP_A_AGED [d])
    else sendAck d t k.p (.tile d t) (creditRef d t n false (commit d t at_ bytes s))
  | _, _ => refuse d t k.p 4 0 (.tile d t) s

/-- A GET_REQ: the bytes of the window go back in a GET_RESP (R94, R115). -/
def deliverGet (k : Pkt) (s : State) : State :=
  let p := k.p
  let d := k.die
  let t := k.dstTile
  let n := p.pay 6 2
  match (if p.pay 1 5 % 64 = 0 ∧ p.pay 9 5 % 64 = 0 then windowAt s d t (p.pay 0 1) (p.pay 1 5) (n * 64) false else none) with
  | none => refuse d t p 4 0 (.tile d t) s
  | some at_ =>
    if s.aged p.h then s.bump F.NI_DROP_A_AGED [d]
    else answer d t p 0x81 1 n (dataBody (p.pay 8 1) (p.pay 9 5) (p.pay 14 4) 0 0 0 0 0 0) (s.readMem d t at_ (n * 64)) (.tile d t) s

/-- The bytes of a PUT_SHORT lie in one block. -/
def oneBlock (off len : Nat) : Bool := off / 64 = (off + len - 1) / 64

/-- R128 for a request to a tile: the role epoch, then what its type asks. -/
def deliver (k : Pkt) (s : State) : State :=
  let p := k.p
  let d := k.die
  let t := k.dstTile
  ownedThen k (fun s =>
    if p.h.roleEpoch ≠ s.roleEpoch d t then refuse d t p 2 (s.roleEpoch d t) (.tile d t) s
    else match p.h.typ with
      | 0x01 => deliverGet k s
      | 0x02 => deliverWrite k (p.pay 0 1) (p.pay 1 5) (p.pay 8 4) ((p.body.drop 16).take (p.pay 6 1)) (oneBlock (p.pay 1 5) (p.pay 6 1)) s
      | _ => deliverWrite k p.window p.offset p.waybillRef p.data (p.offset % 64 = 0 && mxWhole p) s) s

/-- TILE_DELIVERY: GET_REQ, PUT_SHORT, PUT, and the engine outputs that name a window. -/
def execTileDelivery (pid : Nat) (s : State) : Result :=
  run (.tileDelivery pid) s (receive pid 2 [0x01, 0x02, 0x80, 0x83, 0x85] deliver s)

/-! ## The tag table (R132) -/

/-- A response type answers a request type. -/
def answers (resp req : Nat) : Bool :=
  match resp with
  | 0x81 => req = 0x01
  | 0x87 => req = 0x86
  | 0x03 => req ≠ 0x01 && req ≠ 0x86
  | 0x04 => true
  | _ => false

/-- What the tag table makes of a response: nothing where it is discarded and counted. -/
def matchTag (k : Pkt) (f : Nat → TagRec → State → State) (s : State) : State :=
  let d := k.die
  let t := k.dstTile
  let i := k.p.h.tagIndex
  let g := s.tagOf d t i
  if g.epoch ≠ k.p.h.tagEpoch then s.bump F.NI_TAG_STAT_STALE [d, t]
  else match g.st with
    | .quarantine => s.bump F.NI_TAG_STAT_DUPLICATE [d, t]
    | .free => s.bump F.NI_TAG_STAT_STALE [d, t]
    | .opened =>
      if answers k.p.h.typ ((g.req.map (fun q => q.h.typ)).getD 0) then f i g s else s.bump F.NI_TAG_STAT_STALE [d, t]

/-- A GET_RESP or GLEAN_RESULT that completes its tag; a result whose STATUS is not OK leaves 192 bytes and a poisoned credit (R325): written and credited once, or, where R115 or R233 refuses it, discarded
whole with the tag completed as MALFORMED. -/
def takeData (k : Pkt) (i : Nat) (s : State) : State :=
  let d := k.die
  let t := k.dstTile
  let p := k.p
  let s := countRef d t p.waybillRef s
  match (if p.offset % 64 = 0 && mxWhole p then windowAt s d t p.window p.offset p.data.length true else none), refSlot s d t p.waybillRef with
  | some at_, some n =>
    if p.h.typ = 0x87 ∧ resultStatus p ≠ 0 then completeTag d t i 0x05 0 (creditRef d t n true (commit d t at_ (p.data.take 192) s))
    else completeTag d t i 0 0 (creditRef d t n false (commit d t at_ p.data s))
  | _, _ => completeTag d t i 0x0C 0 (s.bump F.NI_DROP_B_MALFORMED [d])
where
  /-- STATUS of a GLEAN_RESULT: byte 0 of its payload (R325). -/
  resultStatus (p : Packet) : Nat := (p.data.headD 0).toNat

/-- An echo carried by a packet that answers one of the tile's own (R102, R103). -/
def takeEcho (k : Pkt) (s : State) : State :=
  if k.p.h.tailback = 2 then onEcho k.die k.dstTile k.p.h.field k.p.h.srcRank s else s

/-- A response at the NI that holds its tag; a marked one owes an echo whatever becomes of it. -/
def respond (k : Pkt) (s : State) : State :=
  ownedThen k (fun s =>
    let s := noteMark k.die k.dstTile k.p (takeEcho k s)
    if s.aged k.p.h then s.bump F.NI_DROP_A_AGED [k.die]
    else matchTag k (fun i _ s =>
      if k.p.h.typ = 0x03 then completeTag k.die k.dstTile i 0 0 s else takeData k i s) s) s

/-- RESPONSE_RECEIVE. -/
def execResponseReceive (pid : Nat) (s : State) : Result :=
  run (.responseReceive pid) s (receive pid 2 [0x03, 0x81, 0x87] respond s)

/-- NAK_RECEIVE (R134). -/
def nakReceive (k : Pkt) (s : State) : State :=
  ownedThen k (fun s =>
    let s := takeEcho k s
    if s.aged k.p.h then s.bump F.NI_DROP_A_AGED [k.die]
    else matchTag k (fun i _ s => nakAction k.die k.dstTile i (k.p.pay 0 1) (k.p.pay 3 1) s) s) s

def execNakReceive (pid : Nat) (s : State) : Result := run (.nakReceive pid) s (receive pid 2 [0x04] nakReceive s)

/-- A request is sent again (R133, R134): the same tag and epoch, a new DEPART_NS and CHECK. It passes its flow's limit like any other
(R103). -/
def resend (d t i : Nat) (s : State) : State :=
  let g := s.tagOf d t i
  match g.req with
  | some p =>
    submit d t { p := p, issuer := g.issuer, tag := some i, resend := g.resend, input := g.input.getD (.tile d t) }
      ((s.setTag d t i { g with resends := g.resends + 1, backoffAt := none }).bump F.NI_TAG_STAT_RESENDS [d, t])
  | none => s

/-- BUSY_BACKOFF_EXPIRE. -/
def busyBackoffExpire (d t i : Nat) (s : State) : State :=
  let g := s.tagOf d t i
  match g.backoffAt with
  | some m => if g.st = .opened ∧ m ≤ s.now then resend d t i s else s
  | none => s

def execBusyBackoffExpire (d t i : Nat) (s : State) : Result := run (.busyBackoffExpire d t i) s (busyBackoffExpire d t i s)

/-- A tag's request still waits at the NI, or for cells: its timer has not started. -/
def unsent (s : State) (d t i : Nat) : Bool :=
  (s.sendQ d t).any (fun x => x.tag = some i) || s.gran.waits.any (fun w => w.kind = .request d t i || w.kind = .engine d t i)

/-- E2E_TIMEOUT (R133): a resend, or giving up with status DELIVERY_FAULT. -/
def e2eTimeout (d t i : Nat) (s : State) : State :=
  let g := s.tagOf d t i
  if g.st = .opened ∧ !unsent s d t i ∧ g.timerAt + usUnits (s.fld F.NI_E2E_TIMEOUT_US) ≤ s.now then
    if g.resend ∧ g.resends < s.fld F.NI_E2E_MAX_RESENDS then resend d t i s
    else completeTag d t i 0x08 0 (s.bump F.NI_TAG_STAT_GIVEUPS [d, t])
  else s

def execE2eTimeout (d t i : Nat) (s : State) : Result := run (.e2eTimeout d t i) s (e2eTimeout d t i s)

/-- TAG_QUARANTINE_END: twice the largest age limit in force since completion has passed (R132). -/
def tagQuarantineEnd (d t i : Nat) (s : State) : State :=
  let g := s.tagOf d t i
  if s.tileExists d t ∧ g.st = .quarantine ∧ g.since + 2 * usUnits (s.maxAgeSince g.since) ≤ s.now then
    pump d t (s.setTag d t i { st := .free, epoch := (g.epoch + 1) % 16, since := s.now })
  else s

def execTagQuarantineEnd (d t i : Nat) (s : State) : Result := run (.tagQuarantineEnd d t i) s (tagQuarantineEnd d t i s)

/-- TILE_ALLOC_TIMEOUT (R159): 2 µs have passed since an allocation was first refused. A SHEAF_SMALL, which holds no tag, is lost. -/
def tileAllocTimeout (id : Nat) (s : State) : State :=
  match s.gran.waits.find? (fun w => w.id = id) with
  | some w =>
    if s.now < w.since + usUnits 2 then s
    else
      match w.kind with
      | .request d t i => if i < 4096 then nakAction d t i 3 0 (dropWait id s) else dropWait id s
      | .response => (dropWait id s).bump F.GK_DROP_CONTROL [w.pk.die]
      | .engine _ _ _ => s
  | none => s

def execTileAllocTimeout (id : Nat) (s : State) : Result := run (.tileAllocTimeout id) s (tileAllocTimeout id s)

/-! ## Echoes and rates (R102, R103) -/

/-- ECHO_SEND: the echo a pair is owed leaves in an ECHO packet; `unit` is the tile, or 2048 for an engine slice. -/
def echoSend (d unit field rank : Nat) (s : State) : State :=
  match tabGet none s.ni.echoOwed [d, unit, field, rank] with
  | some (h, _) =>
    let q := { respHdr s h 0x05 0 0 with tailback := 2 }
    sendResponse d { h := q, body := List.replicate 32 0 } (if unit < 2048 then .tile d unit else .engine d) (echoGone d unit h s)
  | none => s

def execEchoSend (d unit field rank : Nat) (s : State) : Result :=
  run (.echoSend d unit field rank) s (echoSend d unit field rank s)

/-- ECHO_RECEIVE. -/
def execEchoReceive (pid : Nat) (s : State) : Result :=
  run (.echoReceive pid) s (receive pid 2 [0x05] (fun k s => ownedThen k (takeEcho k) s) s)

/-- RATE_RECOVER: every_8000_ns of R103, at its next instant. -/
def rateRecover (d t field rank : Nat) (s : State) : State :=
  let k := [d, t, field, rank]
  match tabGet none s.ni.flows k with
  | none => s
  | some f =>
    let at_ := f.created + 8000 * (f.steps + 1)
    if s.now / 16 < at_ then s
    else
      let f := { f with steps := f.steps + 1, tokens := flowTokens s f, filledAt := s.now }
      let f := if f.lastEcho + 8000 ≤ at_ then { f with rate := f.rate + 25000 } else f
      let o := if 800000 ≤ f.rate then none else some f
      pump d t { s with ni := { s.ni with flows := tabSet none s.ni.flows k o } }

def execRateRecover (d t field rank : Nat) (s : State) : Result :=
  run (.rateRecover d t field rank) s (rateRecover d t field rank s)

/-! ## Versions and the age limit (R120, R130) -/


/-- When the HELD version becomes EMPTY: one age limit after the switch, the largest in force since. -/
def holdEnd (s : State) : Nat := s.ni.switchedAt + usUnits (s.maxAgeSince s.ni.switchedAt)

/-- SIGNPOST_SWITCH: at M the sealed version becomes CURRENT and the previous one HELD. -/
def signpostSwitch (s : State) : State :=
  if s.launchDue .sgSwitch ∧ s.verState s.otherVer = 2 then
    let v := s.otherVer
    let s := (s.dropGate .sgSwitch).setFld F.SG_CTRL_PENDING 0
    let s := (s.setVerState (1 - v) 4).setVerState v 3
    let s := s.setFld F.SG_CTRL_CURRENT v
    let s := { s with ni := { s.ni with switchedAt := s.fld F.SG_SWITCH_AT_COUNT } }
    s.setFld F.SG_HOLD_END_COUNT (holdEnd s)
  else s

def execSignpostSwitch (s : State) : Result := run .signpostSwitch s (signpostSwitch s)

/-- The tables of a version are empty. -/
def clearVer (v : Nat) (s : State) : State :=
  { s with ni := { s.ni with ranks := s.ni.ranks.filter (fun e => e.1.head? ≠ some v), posts := s.ni.posts.filter (fun e => e.1.head? ≠ some v) } }

/-- HELD_VERSION_EXPIRE. -/
def heldVersionExpire (s : State) : State :=
  if s.verState s.otherVer = 4 ∧ s.fld F.SG_HOLD_END_COUNT ≤ s.now then
    ((clearVer s.otherVer s).setVerState s.otherVer 0).setFld F.SG_HOLD_END_COUNT 0
  else s

def execHeldVersionExpire (s : State) : Result := run .heldVersionExpire s (heldVersionExpire s)

/-- A new age limit is in force from `at_`; the end of a HELD version follows the largest since its switch. -/
def setAgeLimit (us at_ : Nat) (s : State) : State :=
  let s := s.setFld F.NI_AGE_LIMIT_US us
  let s := { s with ni := { s.ni with ageHist := s.ni.ageHist ++ [(at_, us)] } }
  if s.verState s.otherVer = 4 then s.setFld F.SG_HOLD_END_COUNT (holdEnd s) else s

/-- AGE_LIMIT_CHANGE: at the armed count NEXT_US takes effect. -/
def ageLimitChange (s : State) : State :=
  if s.launchDue .niAge then
    setAgeLimit (s.fld F.NI_AGE_NEXT_US) s.now ((s.dropGate .niAge).setFld F.NI_AGE_PENDING 0)
  else s

def execAgeLimitChange (s : State) : Result := run .ageLimitChange s (ageLimitChange s)

/-! ## The Hedge copies (R118) -/

/-- The Field-map bits in which the two copies of half-port `h` differ. -/
def mapDiffs (s : State) (h : Nat) : List Nat :=
  (List.range 64).flatMap (fun w =>
    let x := s.fld F.NI_FIELD_MAP_MAP [h / 2, h % 2, w] ^^^ tabGet 0 s.ni.map2 [h, w]
    if x = 0 then [] else ((List.range 64).filter (fun b => x.testBit b)).map (fun b => 64 * w + b))

/-- The rows whose owner differs between the copies, by (die, row). -/
def rowDiffs (s : State) : List (Nat × Nat) :=
  dies.flatMap (fun d => ((List.range 32).filter (fun r => s.rowOwner1 d r ≠ s.rowOwner2 d r)).map (fun r => (d, r)))

/-- A Hedge fault of row 4 on Field `f`. -/
def copyFault (d code f place : Nat) (lrow : Option Nat) (s : State) : State :=
  s.report ⟨4, false, [4, d], d, d, f, lrow, false, 0x08, code, false, hedgeDetail 2 f place⟩

/-- HEDGE_COPY_COMPARE. -/
def hedgeCopyCompare (s : State) : State :=
  let s := s.forAll (List.range 16) (fun h s => s.forAll (mapDiffs s h) (fun f s => copyFault (h / 2) 0x04 f h none s))
  s.forAll (rowDiffs s) (fun x s =>
    let owners := [s.rowOwner1 x.1 x.2, s.rowOwner2 x.1 x.2].filterMap id
    s.forAll owners (fun n s => copyFault x.1 0x05 (s.fld F.DV_FIELD_SLOT_FIELD_ID [n]) (x.2 * 64) (some x.2) s))

def execHedgeCopyCompare (s : State) : Result := run .hedgeCopyCompare s (hedgeCopyCompare s)

/-! ## Drains (R137) -/

/-- A stored packet is bound for the domain. -/
def boundFor (s : State) (x : Domain) (k : Pkt) : Bool :=
  decide (2 ≤ k.out ∧ k.out ≤ 4) && match x with
    | .die d => k.die = d
    | .field n => s.slotOf k.p.h.field = some n
    | .tile d t => k.die = d && k.dstTile = t

/-- The packets past a closed gate. -/
def pastGate (s : State) (x : Domain) : List (Nat × Pkt) :=
  s.gran.pkts.filterMap (fun e => match e.2 with
    | some k => if boundFor s x k then some (e.1.headD 0, k) else none
    | none => none)

/-- DRAIN_END: after L, or when none remain; any still held are discarded and counted as aged. -/
def drainEnd (x : Domain) (s : State) : State :=
  match s.ni.closed.find? (fun e => e.1 = x) with
  | some (_, m) =>
    let l := pastGate s x
    if x ∈ s.ni.drained ∨ (l ≠ [] ∧ s.now < m) then s
    else
      let s := s.forAll l (fun e s => (failPkt e.1 8 s).bump F.NI_DROP_A_AGED [e.2.die])
      { s with ni := { s.ni with drained := s.ni.drained ++ [x] } }
  | none => s

end Sys2Proof.Machine
end

