-- ==== Sys2Proof/Machine/Compute.lean ====
section
/-! DEFINITION. Running Waybills (R231, R237, R241, R246) and what one instance of each opcode computes (R248 to R257). -/

namespace Sys2Proof.Machine

/-! ## Dispatch and starting (R241) -/

/-- Take the head off the ready queue; a push that waited takes the place. -/
def popReady (d t : Nat) (s : State) : State :=
  match s.overQ d t with
  | [] => s.setReadyQ d t (s.readyQ d t).tail
  | n :: l => (s.setReadyQ d t ((s.readyQ d t).tail ++ [n])).setOverQ d t l

/-- Whether dispatch is blocked on a full issue queue, which is counted once (R231). -/
def setBlocked (d t : Nat) (b : Bool) (s : State) : State :=
  { s with tiles := { s.tiles with blocked := tabSet 0 s.tiles.blocked [d, t] (b2n b) } }

/-- A Waybill that does not run finishes with its status (R239, R245). -/
def finishUnrun (d t n st : Nat) (s : State) : State := s.setSlot d t n { s.slot d t n with finished := some (st, 0) }

/-- DISPATCH: the head of the ready queue goes to its unit's issue queue. -/
def dispatch (d t : Nat) (s : State) : State :=
  match s.readyQ d t with
  | [] => s
  | n :: _ =>
    let r := s.slot d t n
    match r.fail with
    | some st => finishUnrun d t n st (popReady d t s)
    | none =>
      match unitOf (wbOpcode r.armed) with
      | some 4 | none => s
      | some u =>
        if s.tileFenced d t then s
        else if (s.issueQ d t u).length < 4 then
          setBlocked d t false ((popReady d t s).setIssueQ d t u (s.issueQ d t u ++ [n]))
        else if tabGet 0 s.tiles.blocked [d, t] = 1 then s
        else setBlocked d t true (s.bump F.TL_STALL_ISSUE_FULL [d, t])

def execDispatch (d t : Nat) (s : State) : Result := run (.dispatch d t) s (dispatch d t s)

/-- JOIN: a JOIN Waybill at the head of the ready queue does nothing and has finished (R247). -/
def joinRun (d t : Nat) (s : State) : State :=
  match s.readyQ d t with
  | [] => s
  | n :: _ =>
    let r := s.slot d t n
    if r.fail = none ∧ wbOpcode r.armed = 0x00 ∧ !s.tileFenced d t then finishUnrun d t n (if r.late then 1 else 0) (popReady d t s) else s

def execJoin (d t : Nat) (s : State) : Result := run (.join d t) s (joinRun d t s)

/-- WAYBILL_START: a free unit starts the Waybill at the head of its issue queue. -/
def waybillStart (d t u : Nat) (s : State) : State :=
  match s.running d t u, s.issueQ d t u with
  | none, n :: l =>
    if s.tileFenced d t then s
    else ((s.setIssueQ d t u l).setRunning d t u (some n)).setSlot d t n { s.slot d t n with st := .running, k := 0, ran := false, allDone := false }
  | _, _ => s

def execWaybillStart (d t u : Nat) (s : State) : Result := run (.waybillStart d t u) s (waybillStart d t u s)

/-- The slot and armed copy of the Waybill whose present instance a unit has yet to run. -/
def presentRun (s : State) (d t u op : Nat) : Option (Nat × List Byte) :=
  match s.running d t u with
  | some n =>
    let r := s.slot d t n
    if r.st = .running ∧ !r.ran ∧ !r.allDone ∧ r.status = none ∧ r.finished = none ∧ wbOpcode r.armed = op then some (n, r.armed) else none
  | none => none

/-- The stores of a unit that has a store buffer drain as its Waybill ends (R230). -/
def drainUnit (d t u : Nat) (s : State) : State := if u = 1 ∨ u = 2 then drainStores d t (decide (u = 1)) s else s

/-- The last instance has run, or a fault has stopped the run: the unit is free, its stores have drained, and the Waybill finishes
when its tags have completed (R244). -/
def endRun (d t u n : Nat) (s : State) : State :=
  let s := if (s.slot d t n).status = none then endStream d t n s else s
  let s := ((drainUnit d t u s).setRunning d t u none).setSlot d t n { s.slot d t n with allDone := true, ran := false }
  maybeFinish d t n s

/-- Requests of one Waybill no longer concern it. -/
def orphanSlot (d t n : Nat) (s : State) : State :=
  { s with ni := { s.ni with tags := s.ni.tags.map (fun e => if e.1.take 2 = [d, t] then (e.1, e.2.map (fun g => if g.issuer = .run n then { g with issuer := .none_ } else g)) else e) } }

/-- In a hand-off a running Waybill stops: POISONED where the fault named it, FENCED otherwise; it waits for no tag, and a
fused stream ends with its notice (R404). -/
def stopRun (d t n : Nat) (s : State) : State :=
  let s := if (s.slot d t n).status = none then failRun d t n 0x0D 0 (poisonStream d t n s) else s
  let s := orphanSlot d t n s
  let s := s.forAll [0, 1, 2, 3] (fun u s => if s.running d t u = some n then (drainUnit d t u s).setRunning d t u none else s)
  let r := s.slot d t n
  s.setSlot d t n { r with allDone := true, ran := false, opened := 0, calling := false, finished := some (r.status.getD 0x0D, r.detail) }

/-- A packet of the running mover instance waits for a FREE tag (R257). -/
def moverWaits (s : State) (d t n : Nat) : Bool := (s.sendQ d t).any (·.unsentOf n)

/-- INSTANCE_DONE: the loop nest moves on (R237). -/
def instanceDone (d t u : Nat) (s : State) : State :=
  match s.running d t u with
  | none => s
  | some n =>
    let r := s.slot d t n
    if s.tileHanding d t then (if r.st = .running ∧ (r.ran ∨ r.status ≠ none) then stopRun d t n s else s)
    else if r.st = .running ∧ (r.ran ∨ r.status ≠ none) ∧ (r.status ≠ none ∨ u ≠ 3 ∨ !moverWaits s d t n) then
      let s := if u = 3 ∧ r.ran then s.bump F.TM_STAT_INSTANCES [d, t] else s
      if r.status ≠ none ∨ wbInstances r.armed ≤ r.k + 1 then endRun d t u n s
      else s.setSlot d t n { r with k := r.k + 1, ran := false }
    else s

def execInstanceDone (d t u : Nat) (s : State) : Result := run (.instanceDone d t u) s (instanceDone d t u s)

/-- WAYBILL_COMPLETE (R244). -/
def execWaybillComplete (d t n : Nat) (s : State) : Result := run (.waybillComplete d t n) s (completeWaybill d t n s)

/-! ## One instance -/

/-- What an instance leaves: bytes to write, elements to stream from an index, IEEE flags of the lane cores, and a status
that stops the Waybill. `partial_` marks outputs that may hold anything. -/
structure InstOut where
  writes : List (Nat × List Byte) := []
  stream : Option (Nat × List Byte) := none
  flags : Nat := 0
  fail : Option Nat := none
  partial_ : Bool := false
  deriving DecidableEq, Repr

/-- Bytes a poisoned or broken instance may leave: none of them is stated (R246, R254). -/
def freeBytes (s : State) (n : Nat) : List Byte := (List.range n).map (Config.partialByte s.fresh)

/-- Write an instance's outputs. -/
def writeOuts (d t : Nat) (free : Bool) (l : List (Nat × List Byte)) (s : State) : State :=
  s.forAll l (fun x s => if free then (s.writeMem d t x.1 (freeBytes s x.2.length)).tick else s.writeMem d t x.1 x.2)

/-- DETAIL of a POISON event of a tile unit. -/
def poisonDetail (t u n gen : Nat) : List Byte := beBytes 2 t ++ beBytes 1 u ++ beBytes 2 n ++ beBytes 1 gen

/-- A checker has failed during a run: 1 a residue check, 2 another checker (R220, R246, row 1 of *Fault domains*). -/
def poisonRun (d t u n kind : Nat) (s : State) : State :=
  let r := s.slot d t n
  let s := if kind = 1 then (s.bump F.TL_RESIDUE_COUNT [d, t]).setFld F.TL_RESIDUE_LAST_UNIT u [d, t] else s
  let s := failRun d t n 0x05 0 (poisonStream d t n s)
  let s := s.setSlot d t n { s.slot d t n with ran := true }
  s.report ⟨1, false, [20, d, t], d, d, (s.tileField d t).getD 0xFFFF, some (t / 64), false, 0x06, kind, true, poisonDetail t u n r.gen⟩

/-- The accesses of `n` elements of a memory operand, as (address, bytes): one for each element, or for each byte of an MX operand. -/
def accesses (w : List Byte) (x : Opnd) (k n : Nat) : List (Nat × Nat) :=
  let at_ := (instOf w x k).toNat
  match elemOf x.fmt with
  | some (.mx f) => (List.range ((Elem.mx f).span n)).map (fun j => (at_ + j, 1))
  | some e => (List.range n).map (fun j => (at_ + j * e.size, e.size))
  | none => []

/-- The loads and then the stores of a lane-core instance meet the store buffers (R229, R230): element i is core i % 64's. -/
def laneBuffers (d t : Nat) (w : List Byte) (k : Nat) (s : State) : State :=
  let n := pLength w
  let loads := accesses w (opA w) k n ++ (if usesB w then accesses w (opB w) k n else [])
    ++ (if wbOpcode w = 0x20 ∧ pFn w = 4 then accesses w (opO w) k n else [])
  let stores := if (opO w).target = 0 then accesses w (opO w) k (if wbOpcode w = 0x22 then 1 else n) else []
  let s := s.forAll loads (fun x s => loadCompare d t true x.1 x.2 s)
  s.forAll ((List.range stores.length).zip stores) (fun x s => pushStore d t ⟨x.1 % 64, x.2.1, x.2.2⟩ s)

/-- Run the present instance of unit `u`. -/
def runInstance (d t u op fault : Nat) (f : State → List Byte → Nat → InstOut) (s : State) : State :=
  match presentRun s d t u op with
  | none => s
  | some (n, w) =>
    let r := s.slot d t n
    let out := f s w r.k
    if fault ≠ 0 then poisonRun d t u n fault (writeOuts d t true out.writes s)
    else
      let s := writeOuts d t out.partial_ out.writes s
      let s := if u = 1 then laneBuffers d t w r.k (raiseFlags d t 1 out.flags s) else s
      let done (s : State) : State := s.setSlot d t n { s.slot d t n with ran := true }
      match out.fail with
      | some st =>
        let s := if u = 3 then s.bump F.TM_STAT_FORM_FAULTS [d, t] else s
        done (failRun d t n st 0 (poisonStream d t n s))
      | none =>
        match out.stream with
        | some (start, l) => streamOut d t n (opO w) start l (done s)
        | none => done s

/-- Where instance `k` places an operand. -/
def placeOf (w : List Byte) (x : Opnd) (k : Nat) : Nat := (instOf w x k).toNat

/-- The elements of an output go to memory at O.inst, or into the stream from index O.inst. -/
def outTo (w : List Byte) (k : Nat) (bytes : List Byte) (flags : Nat) : InstOut :=
  let o := opO w
  if o.target = 0 then { writes := [(placeOf w o k, bytes)], flags := flags }
  else { stream := some (placeOf w o k, bytes), flags := flags }

/-- Bytes of tile memory from `base`. -/
def memFrom (s : State) (d t base : Nat) : Nat → Byte := fun i => s.memByte d t (base + i)

/-! ## Fixed masks (R249, R255) -/

/-- Code of group `g` of the line whose codes start at `off`. -/
def maskCode (s : State) (d t off g : Nat) : Nat := (s.memByte d t (off + g / 2)).toNat / 16 ^ (g % 2) % 16

/-- A code names two positions in ascending order. -/
def codeOk (c : Nat) : Bool := decide (c % 4 < c / 4)

/-- The codes of `n` groups, or nothing where one breaks the rules. -/
def codesAt (s : State) (d t off n : Nat) : Option (List Nat) :=
  let l := (List.range n).map (maskCode s d t off)
  if l.all codeOk then some l else none

/-- A kept line spread over its groups of four; what is pruned is `z`. -/
def spread {α : Type} (z : α) (codes : List Nat) (kept : List α) : List α :=
  (List.range codes.length).flatMap (fun g =>
    let c := codes.getD g 0
    (List.range 4).map (fun p => if p = c % 4 then kept.getD (2 * g) z else if p = c / 4 then kept.getD (2 * g + 1) z else z))

/-- The elements a line keeps. -/
def squeeze {α : Type} (z : α) (codes : List Nat) (l : List α) : List α :=
  (List.range codes.length).flatMap (fun g => let c := codes.getD g 0
                                              [l.getD (4 * g + c % 4) z, l.getD (4 * g + c / 4) z])

/-! ## MATMUL (R248, R249) -/

/-- A line of `n` elements at `at_`, masked by codes at `codes` where there are some. -/
def lineAt (s : State) (d t : Nat) (e : Elem) (at_ n : Nat) (codes : Option Nat) : Option (List Num) :=
  let rd := memFrom s d t at_
  match codes with
  | none => some ((List.range n).map (e.read rd))
  | some off => (codesAt s d t off (n / 4)).map (fun c => spread .zero c ((List.range (n / 2)).map (e.read rd)))

/-- Every element of a list of options, or nothing. -/
def allSome {α : Type} : List (Option α) → Option (List α)
  | [] => some []
  | none :: _ => none
  | some a :: l => (allSome l).map (a :: ·)

/-- The 64 rows of A, each K long. -/
def rowsA (s : State) (d t : Nat) (w : List Byte) (k : Nat) (e : Elem) : Option (List (List Num)) :=
  allSome ((List.range 64).map (fun r =>
    lineAt s d t e (placeOf w (opA w) k + r * mmPitchA w) (mmK w) (if mmMask w = 1 then some (mmMaskOff w + r * (mmK w / 8)) else none)))

/-- The 64 columns of B, each K long. -/
def colsB (s : State) (d t : Nat) (w : List Byte) (k : Nat) (e : Elem) : Option (List (List Num)) :=
  let at_ := placeOf w (opB w) k
  if mmBT w then
    allSome ((List.range 64).map (fun n =>
      lineAt s d t e (at_ + n * mmPitchB w) (mmK w) (if mmMask w = 2 then some (mmMaskOff w + n * (mmK w / 8)) else none)))
  else
    (allSome ((List.range (mmK w)).map (fun j =>
      lineAt s d t e (at_ + j * mmPitchB w) 64 (if mmMask w = 3 then some (mmMaskOff w + 8 * j) else none)))).map
      (fun rows => (List.range 64).map (fun n => rows.map (fun r => r.getD n .zero)))

/-- One dot product by the formats of the operands and of O (R211, R212, R218). -/
def dotOf (e eo : Elem) (sat : Bool) (init : Num) (ps : List (Num × Num)) : Num :=
  match e with
  | .int _ _ => dotInt init ps
  | .pair => dotPair (eo = .pair) init ps
  | .flt f => if f = fp64 then dotFlt fp64 sat init ps else dotFlt fp32 sat init ps
  | .mx _ => dotFlt fp32 sat init ps

/-- One MATMUL instance. -/
def matmulInst (d t : Nat) (s : State) (w : List Byte) (k : Nat) : InstOut :=
  let o := opO w
  match elemOf (opA w).fmt, elemOf (opB w).fmt, elemOf o.fmt with
  | some ea, some eb, some eo =>
    let sat := wbSat w o.fmt
    let md : Mode := ⟨.even, sat, wbWrap w, true, ea.isInt⟩
    let at_ := placeOf w o k
    match rowsA s d t w k ea, colsB s d t w k eb with
    | some ra, some cb =>
      let rows := (List.range 64).map (fun r =>
        let prior := memFrom s d t (at_ + r * mmPitchO w)
        (List.range 64).map (fun n =>
          let init := if mmAcc w then (eo.read prior n).norm else .zero
          dotOf ea eo sat init (List.zip (ra.getD r []) (cb.getD n []))))
      if o.target = 0 then
        { writes := (List.range 64).map (fun r => (at_ + r * mmPitchO w, (eo.bytes md (rows.getD r [])).1)) }
      else { stream := some (at_, (eo.bytes md rows.flatten).1) }
    | _, _ => { fail := some 0x07 }
  | _, _, _ => { fail := some 0x07 }

/-- MATMUL. `fault`: 1 where a residue check fails, 2 where another checker does. -/
def execMatmul (d t fault : Nat) (s : State) : Result :=
  run (.matmul d t fault) s (runInstance d t 0 0x10 fault (matmulInst d t) s)

/-! ## Vector operations (R250, R251) -/

/-- The working format of a VFLOAT or VREDUCE: FP64 where an operand or O is FP64. -/
def workFmt (w : List Byte) : FloatFmt :=
  if (opA w).fmt = 1 ∨ (opO w).fmt = 1 ∨ (usesB w ∧ (opB w).fmt = 1) then fp64 else fp32

/-- One VFLOAT function in the working format: its bits and flags. -/
def vfloatFn (fn : Nat) (a : Rnd) (f : FloatFmt) (x y z : Num) : Nat × Nat :=
  match fn with
  | 0x01 => ieeeAdd a f x y
  | 0x02 => ieeeSub a f x y
  | 0x03 => ieeeMul a f x y
  | 0x04 => ieeeFma a f x y z
  | 0x05 => ieeeDiv a f x y
  | 0x06 => ieeeSqrt a f x
  | 0x07 => ieeeMax f x y
  | 0x08 => ieeeMin f x y
  | 0x0A => (expFn false false x, 0)
  | 0x0B => (expFn true false x, 0)
  | 0x0C => (recipFn false x, 0)
  | _ => (rsqrtFn false x, 0)

/-- One VFLOAT instance. -/
def vfloatInst (d t : Nat) (s : State) (w : List Byte) (k : Nat) : InstOut :=
  let o := opO w
  match elemOf (opA w).fmt, elemOf o.fmt with
  | some ea, some eo =>
    let f := workFmt w
    let att := Rnd.ofCode (wbRnd w)
    let sc := fp32.encode false att false (fp64.decode (pScalar w))
    let imm := if f = fp64 then fp64.decode (pScalar w) else fp32.decode sc.1
    let immFl := if pImm w && !unaryFn (pFn w) && f.w = 32 then sc.2 else 0
    let ra := memFrom s d t (placeOf w (opA w) k)
    let rb := memFrom s d t (placeOf w (opB w) k)
    let ro := memFrom s d t (placeOf w o k)
    let b (j : Nat) : Num := if usesB w then (match elemOf (opB w).fmt with
        | some eb => eb.read rb j
        | none => .zero) else imm
    let idx := List.range (pLength w)
    if pFn w = 0x09 then
      let r := eo.bytes ⟨.even, wbSat w o.fmt, wbWrap w, false, ea.isInt⟩ (idx.map (ea.read ra))
      outTo w k r.1 r.2
    else
      let vals := idx.map (fun j => vfloatFn (pFn w) att f (ea.read ra j) (b j) (eo.read ro j))
      let r := eo.bytes ⟨.even, wbSat w o.fmt, wbWrap w, false, false⟩ (vals.map (fun v => f.decode v.1))
      outTo w k r.1 (vals.foldl (fun a v => a ||| v.2) (r.2 ||| immFl))
  | _, _ => { fail := some 0x07 }

def execVfloat (d t fault : Nat) (s : State) : Result :=
  run (.vfloat d t fault) s (runInstance d t 1 0x20 fault (vfloatInst d t) s)

/-- A 64-bit pattern read back as a number of A's signedness. -/
def as64 (signed : Bool) (n : Nat) : Int := if signed then toSigned 64 (n % 2 ^ 64) else (n % 2 ^ 64 : Nat)

/-- One VINT function on values extended to 64 bits. -/
def vintFn (fn : Nat) (signed : Bool) (x y : Int) : Int :=
  let a := ofSigned 64 x
  let b := ofSigned 64 y
  match fn with
  | 0x01 => x + y
  | 0x02 => x - y
  | 0x03 => x * y
  | 0x04 => as64 signed (a &&& b)
  | 0x05 => as64 signed (a ||| b)
  | 0x06 => as64 signed (a ^^^ b)
  | 0x07 => as64 signed (a * 2 ^ (b % 64))
  | 0x08 => as64 signed (a / 2 ^ (b % 64))
  | 0x09 => as64 signed (ofSigned 64 (toSigned 64 a / (2 ^ (b % 64) : Int)))
  | 0x0A => min x y
  | _ => max x y

/-- One VINT instance. -/
def vintInst (d t : Nat) (s : State) (w : List Byte) (k : Nat) : InstOut :=
  let o := opO w
  match elemOf (opA w).fmt, elemOf o.fmt with
  | some (.int sa na), some (.int so no) =>
    let ra := memFrom s d t (placeOf w (opA w) k)
    let rb := memFrom s d t (placeOf w (opB w) k)
    let imm := intOf sa na (pScalar w % 2 ^ (8 * na))
    let b (j : Nat) : Int := if usesB w then (match elemOf (opB w).fmt with
        | some eb => (eb.read rb j).toInt
        | none => 0) else imm
    let vals := (List.range (pLength w)).map (fun j => vintFn (pFn w) sa ((Elem.int sa na).read ra j).toInt (b j))
    outTo w k (vals.flatMap (fun v => leBytes no (intPattern (wbWrap w) so no v))) 0
  | _, _ => { fail := some 0x07 }

def execVint (d t fault : Nat) (s : State) : Result :=
  run (.vint d t fault) s (runInstance d t 1 0x21 fault (vintInst d t) s)

/-- The exact sum of a list of values: an exact zero is +0, unless every element is -0 (R251). -/
def sumAll : List Num → Num
  | [] => .zero
  | x :: l => match l.foldl Num.add x with
    | .nan _ _ => .qnan
    | v => v

/-- The greater or the lesser of two pair values: NaN where either is NaN (R251). -/
def pickPair (least : Bool) (x y : Num) : Num :=
  if x.isNan || y.isNan then .qnan else if (if least then y.lt x else x.lt y) then y else x

/-- One VREDUCE instance. -/
def vreduceInst (d t : Nat) (s : State) (w : List Byte) (k : Nat) : InstOut :=
  let o := opO w
  match elemOf (opA w).fmt, elemOf o.fmt with
  | some ea, some eo =>
    let ra := memFrom s d t (placeOf w (opA w) k)
    let l := (List.range (pLength w)).map (ea.read ra)
    let f := workFmt w
    let pick (op : FloatFmt → Num → Num → Nat × Nat) (least : Bool) : Num × Nat :=
      if ea = .pair then (l.tail.foldl (pickPair least) (l.headD .zero), 0)
      else l.tail.foldl (fun a x => let r := op f a.1 x
                                    (f.decode r.1, a.2 ||| r.2)) (l.headD .zero, 0)
    let ints : Num := match pFn w with
      | 0x01 => Num.ofInt ((l.map Num.toInt).foldl (· + ·) 0)
      | 0x02 => Num.ofInt ((l.tail.map Num.toInt).foldl max (l.headD .zero).toInt)
      | _ => Num.ofInt ((l.tail.map Num.toInt).foldl min (l.headD .zero).toInt)
    let v : Num × Nat := if ea.isInt then (ints, 0) else match pFn w with
      | 0x01 => (sumAll l, 0)
      | 0x02 => pick ieeeMax false
      | _ => pick ieeeMin true
    let att := if pFn w = 0x01 then Rnd.ofCode (wbRnd w) else .even
    let r := eo.bytes ⟨att, wbSat w o.fmt, wbWrap w, false, ea.isInt⟩ [v.1]
    outTo w k r.1 (v.2 ||| r.2)
  | _, _ => { fail := some 0x07 }

def execVreduce (d t fault : Nat) (s : State) : Result :=
  run (.vreduce d t fault) s (runInstance d t 1 0x22 fault (vreduceInst d t) s)

/-! ## COPY and FILL (R253 to R255) -/

/-- A byte string cut into elements of `n` bytes. -/
def elemsOf (n : Nat) (l : List Byte) : List (List Byte) := groupsOf n (l.length / max n 1 + 1) l

/-- The run at the head of a list of elements that are, or are not, zero: at most 128. -/
def runLen (zero : Bool) (l : List (List Byte)) : Nat := ((l.take 128).takeWhile (fun e => allZero e = zero)).length

/-- The records of the zero-run form (R254). -/
def zeroRuns : Nat → List (List Byte) → List Byte
  | 0, _ => []
  | _ + 1, [] => []
  | fuel + 1, e :: l =>
    if allZero e then
      let k := runLen true (e :: l)
      BitVec.ofNat 8 (k - 1) :: zeroRuns fuel ((e :: l).drop k)
    else
      let k := runLen false (e :: l)
      BitVec.ofNat 8 (0x80 + (k - 1)) :: (((e :: l).take k).flatten ++ zeroRuns fuel ((e :: l).drop k))

/-- The zero-run form of a list of elements of `w` bytes. -/
def zeroRunForm (w : Nat) (l : List (List Byte)) : List Byte :=
  leBytes 4 l.length ++ leBytes 1 w ++ [0, 0, 0] ++ zeroRuns l.length l

/-- Read `left` elements of `w` bytes from the records at byte `at_`; nothing where the stream overruns. -/
def unRun (rd : Nat → Byte) (limit w : Nat) : Nat → Nat → Nat → Option (List Byte)
  | 0, left, _ => if left = 0 then some [] else none
  | fuel + 1, left, at_ =>
    if left = 0 then some []
    else if limit ≤ at_ then none
    else
      let b := (rd at_).toNat
      let k := b % 128 + 1
      if left < k then none
      else if b < 128 then (unRun rd limit w fuel (left - k) (at_ + 1)).map (List.replicate (k * w) 0 ++ ·)
      else if limit < at_ + 1 + k * w then none
      else (unRun rd limit w fuel (left - k) (at_ + 1 + k * w)).map ((List.range (k * w)).map (fun i => rd (at_ + 1 + i)) ++ ·)

/-- One COPY instance. -/
def copyInst (d t : Nat) (s : State) (w : List Byte) (k : Nat) : InstOut :=
  let a := opA w
  let o := opO w
  let n := pLength w
  let at_ := placeOf w a k
  let es := unitBytes a.fmt (cpWidth w)
  match cpForm w with
  | 0 =>
    match elemOf a.fmt, elemOf o.fmt with
    | some ea, some eo =>
      if a.fmt = o.fmt then outTo w k (s.readMem d t at_ (ea.span n)) 0
      else
        let vals := (List.range n).map (ea.read (memFrom s d t at_))
        outTo w k (eo.bytes ⟨.even, wbSat w o.fmt, wbWrap w, true, ea.isInt⟩ vals).1 0
    | _, _ => outTo w k (s.readMem d t at_ (n * cpWidth w)) 0
  | 1 =>
    let l := zeroRunForm es (elemsOf es (s.readMem d t at_ (n * es)))
    outTo w k (if o.target = 0 then l else padTo ((l.length + es - 1) / max es 1 * es) l) 0
  | 2 =>
    let rd := memFrom s d t at_
    let headOk := leNat (s.readMem d t at_ 4) = n && (rd 4).toNat = es && rd 5 = 0 && rd 6 = 0 && rd 7 = 0
    match (if headOk then unRun rd (min (packedMax n es) (tileSize - at_)) es n n 8 else none) with
    | some l => outTo w k l 0
    | none => { writes := if o.target = 0 then [(placeOf w o k, List.replicate (n * es) 0)] else [], fail := some 0x07, partial_ := true }
  | 3 =>
    match codesAt s d t (cpCodeOff w) (n / 4) with
    | some c => outTo w k (squeeze [] c (elemsOf es (s.readMem d t at_ (n * es)))).flatten 0
    | none => { fail := some 0x07 }
  | _ =>
    match codesAt s d t (cpCodeOff w) (n / 4) with
    | some c => outTo w k (spread (List.replicate es 0) c (elemsOf es (s.readMem d t at_ (n / 2 * es)))).flatten 0
    | none => { fail := some 0x07 }

def execCopy (d t fault : Nat) (s : State) : Result :=
  run (.copy d t fault) s (runInstance d t 3 0x30 fault (copyInst d t) s)

/-- One FILL instance. -/
def fillInst (w : List Byte) (k : Nat) : InstOut :=
  let es := unitBytes (opO w).fmt (cpWidth w)
  outTo w k (List.replicate (pLength w) (leBytes es (pScalar w))).flatten 0

def execFill (d t fault : Nat) (s : State) : Result :=
  run (.fill d t fault) s (runInstance d t 3 0x31 fault (fun _ w k => fillInst w k) s)

/-! ## PUT and GET (R257) -/

/-- OFFSET plus the stride offset of the instance, in 40 bits. -/
def farOffset (w : List Byte) (k : Nat) : Nat := (((pgOffset w : Int) + instOf w (opO w) k - (opO w).base) % (2 ^ 40 : Int)).toNat

/-- Whether the packet just submitted waits for a tag is counted. -/
def countTagWait (d t n : Nat) (s : State) : State := if moverWaits s d t n then s.bump F.TM_STAT_TAG_WAITS [d, t] else s

/-- The present PUT instance sends its packet. -/
def putNow (d t fault : Nat) (s : State) : State :=
  match presentRun s d t 3 0x32 with
  | none => s
  | some (n, w) =>
    if fault ≠ 0 then poisonRun d t 3 n fault s
    else
      let units := pgUnits w
      let k := (s.slot d t n).k
      let ref := wbLe w 92 4
      let f := (s.tileField d t).getD 0
      let h := { reqHdr s d t 0x80 (if pgSched w then 3 else 1) units f (pgRank w) with ord := b2n (pgOrd w), roleEpoch := pgEpoch w }
      let p : Packet := { h := h, body := dataBody (pgWindow w) (farOffset w k) ref 0 0 0 0 0 (if pgSched w then (opO w).tid else 0), data := s.readMem d t (placeOf w (opA w) k) (units * 64) }
      let s := s.setSlot d t n { s.slot d t n with ran := true }
      countTagWait d t n (submitRun d t n p (ref = noRef) 0 s)

def execPut (d t fault : Nat) (s : State) : Result := run (.put d t fault) s (putNow d t fault s)

/-- The present GET instance sends its request. -/
def getNow (d t fault : Nat) (s : State) : State :=
  match presentRun s d t 3 0x33 with
  | none => s
  | some (n, w) =>
    if fault ≠ 0 then poisonRun d t 3 n fault s
    else
      let units := pgUnits w
      let k := (s.slot d t n).k
      let win := wbByte w 92
      let base := s.fld F.NI_WINDOW_BASE_BLK [d, t, win] * 64
      let size := s.fld F.NI_WINDOW_LENGTH_BLK [d, t, win] * 64
      let at_ := placeOf w (opA w) k
      let s := s.setSlot d t n { s.slot d t n with ran := true }
      if at_ < base ∨ base + size < at_ + units * 64 then failRun d t n 0x06 0 s
      else
        let h := { reqHdr s d t 0x01 0 0 ((s.tileField d t).getD 0) (pgRank w) with ord := b2n (pgOrd w), roleEpoch := pgEpoch w }
        let body := beBytes 1 (pgWindow w) ++ beBytes 5 (farOffset w k) ++ beBytes 2 units ++ beBytes 1 win ++ beBytes 5 (at_ - base) ++ beBytes 4 noRef
          ++ List.replicate 14 0
        countTagWait d t n (submitRun d t n { h := h, body := body } true 0 s)

def execGet (d t fault : Nat) (s : State) : Result := run (.get d t fault) s (getNow d t fault s)

end Sys2Proof.Machine
end

