-- ==== Sys2Proof/Machine/Steward.lean ====
section
/-! DEFINITION. The Steward: the Almanac's routines for windows, roles, resets, Waybills and scalars (R259, R260), the tile reset
(R261) and packed long words (R262 to R264). -/

namespace Sys2Proof.Machine

/-! ## CALL (R259) -/

def callRoutine (w : List Byte) : Nat := wbLe w 24 2
def callRes (w : List Byte) : Nat := wbLe w 26 3

/-- ARG0 to ARG7. -/
def arg (w : List Byte) (i : Nat) : Nat := wbLe w (32 + 8 * i) 8

/-- Arguments from `i` on are zero. -/
def argsZero (w : List Byte) (i : Nat) : Bool := (List.range (8 - i)).all (fun j => arg w (i + j) = 0)

/-- The routines every Almanac provides. -/
def knownRoutine (n : Nat) : Bool :=
  decide (1 ≤ n ∧ n ≤ 12) || n ∈ [0x10, 0x11, 0x12, 0x20, 0x21, 0x22, 0x30, 0x31, 0x32, 0x40]

/-- The Waybill that the Steward runs. -/
def stewardRun (s : State) (d t op : Nat) : Option (Nat × List Byte) := presentRun s d t 2 op

/-- A CALL ends: with DETAIL `e` where it is refused, else with its results written as 64-bit words. -/
def endCall (d t n : Nat) (e : Option Nat) (res : List Nat) (s : State) : State :=
  let w := (s.slot d t n).armed
  let s := match e with
    | some det => failRun d t n 0x0F det s
    | none => if callRes w = 0xFFFFFF then s else stewardWrite d t (callRes w) (res.flatMap (leBytes 8)) s
  let s := s.setSlot d t n { s.slot d t n with calling := false }
  endRun d t 2 n s

/-- The results of `k` words have a place. -/
def resOk (w : List Byte) (k : Nat) : Bool := callRes w = 0xFFFFFF || (callRes w % 8 = 0 && decide (callRes w + 8 * k ≤ tileSize))

/-- CALL: the routine is looked up; one that is not known ends the Waybill. -/
def callStart (d t fault : Nat) (s : State) : State :=
  match stewardRun s d t 0x40 with
  | none => s
  | some (n, w) =>
    if (s.slot d t n).calling then s
    else if fault ≠ 0 then endRun d t 2 n (poisonRun d t 2 n fault s)
    else if knownRoutine (callRoutine w) then s.setSlot d t n { s.slot d t n with calling := true }
    else endCall d t n (some 0x01) [] s

def execCall (d t fault : Nat) (s : State) : Result := run (.call d t fault) s (callStart d t fault s)

/-- The Waybill whose CALL of routine `no` is in progress on a tile. -/
def inCall (s : State) (d t no : Nat) : Option (Nat × List Byte) :=
  match stewardRun s d t 0x40 with
  | some (n, w) => if (s.slot d t n).calling ∧ callRoutine w = no then some (n, w) else none
  | none => none

/-- Carry out a routine of `words` results: `f` answers a DETAIL, or the results and the new state. -/
def routine (d t no words : Nat) (f : List Byte → State → Except Nat (List Nat × State)) (s : State) : State :=
  match inCall s d t no with
  | none => s
  | some (n, w) =>
    if !resOk w words then endCall d t n (some 0x02) [] s
    else match f w s with
      | .ok (res, s) => endCall d t n none res s
      | .error e => endCall d t n (some e) [] s

/-! ## Windows and roles -/

/-- Set a window, or make it absent (R114). -/
def setWindow (d t w base len perm : Nat) (s : State) : State :=
  (((s.setFld F.NI_WINDOW_BASE_BLK base [d, t, w]).setFld F.NI_WINDOW_LENGTH_BLK len [d, t, w]).setFld F.NI_WINDOW_RD (perm % 2) [d, t, w]).setFld
    F.NI_WINDOW_WR (perm / 2) [d, t, w]

def windowSet (d t : Nat) (w : List Byte) (s : State) : Except Nat (List Nat × State) :=
  if arg w 0 < 256 ∧ arg w 1 < 32768 ∧ arg w 2 ≤ 32768 ∧ arg w 3 < 4 ∧ argsZero w 4 then
    .ok ([], setWindow d t (arg w 0) (arg w 1) (arg w 2) (arg w 3) s)
  else .error 0x02

def execWindowSet (d t : Nat) (s : State) : Result := run (.windowSet d t) s (routine d t 0x0001 0 (windowSet d t) s)

def roleDeclare (d t : Nat) (w : List Byte) (s : State) : Except Nat (List Nat × State) :=
  if argsZero w 0 then let s := advanceRole d t s
                       .ok ([s.roleEpoch d t], s)
  else .error 0x02

def execRoleDeclare (d t : Nat) (s : State) : Result := run (.roleDeclare d t) s (routine d t 0x0002 1 (roleDeclare d t) s)

/-! ## Tile reset (R261) -/

/-- A tile reset begins: its gate closes, and it drains. A caller of TILE_RESET waits for its end. -/
def startTileReset (d t : Nat) (caller : Option (Nat × Nat)) (s : State) : State :=
  match tabGet none s.tiles.resets [d, t] with
  | some r => { s with tiles := { s.tiles with resets := tabSet none s.tiles.resets [d, t] (some { r with callers := r.callers ++ caller.toList }) } }
  | none =>
    let s := (closeGate (.tile d t) s).setFld F.TL_CTRL_RESET_BUSY 1 [d, t]
    { s with tiles := { s.tiles with resets := tabSet none s.tiles.resets [d, t] (some { callers := caller.toList }) } }

/-- The tile of this device that a rank of the caller's Field names. -/
def rankHere (s : State) (d t rank : Nat) : Option (Nat × Nat) :=
  match s.tileSlot d t with
  | none => none
  | some slot =>
    let b := s.rankBlock (s.fld F.SG_CTRL_CURRENT) d slot rank
    if b.kind = 1 ∧ b.device = s.device ∧ b.lrow < s.rowsPerDie ∧ s.rowOwner1 b.die b.lrow = some slot then some (b.die, rankTile b rank)
    else none

/-- TILE_RESET: the call lasts until the target's reset has finished. -/
def tileResetCall (d t : Nat) (s : State) : State :=
  match inCall s d t 0x0003 with
  | none => s
  | some (n, w) =>
    if 2 ^ 20 ≤ arg w 0 ∨ !argsZero w 1 then endCall d t n (some 0x02) [] s
    else match rankHere s d t (arg w 0) with
      | some (e, u) =>
        if (e = d ∧ u = t) ∨ s.dieFenced e ∨ s.tileFenced e u then endCall d t n (some 0x03) [] s
        else if ((tabGet none s.tiles.resets [e, u]).map (fun r => decide ((d, t) ∈ r.callers))).getD false then s
        else startTileReset e u (some (d, t)) s
      | none => endCall d t n (some 0x03) [] s

def execTileReset (d t : Nat) (s : State) : Result := run (.tileReset d t) s (tileResetCall d t s)

/-- A held packet is done with: its output frees its cells. -/
def letGo (pid : Nat) (s : State) : State :=
  match s.pkt pid with
  | some k => s.setPkt pid (some { k with stage := .done })
  | none => s

/-- A node is removed without results or notices (R270, R297). -/
def removeNode (d f id : Nat) (s : State) : State :=
  match s.node d f id with
  | some nd => (s.forAll (nd.now_.held ++ nd.next_.held) (fun c s => letGo c.pid s)).setNode d f id none
  | none => s

/-- A job is removed without outputs (R300). -/
def removeJob (f j : Nat) (s : State) : State :=
  match s.job f j with
  | some x => (s.forAll (x.now_.held ++ x.next_.held) letGo).setJob f j none
  | none => s

/-- A context is removed; its queries are dropped without results (R330). -/
def removeCtx (c : Nat) (s : State) : State :=
  match s.ctx c with
  | some x => (s.forAll x.queries (fun q s => letGo q.id s)).setCtx c none
  | none => s

/-- A context's extents hold a tile. -/
def GlCtx.holds (c : GlCtx) (d t : Nat) : Bool := c.extents.any (fun e => e.1 = d && decide (e.2.1 ≤ t / 64 ∧ t / 64 < e.2.1 + e.2.2))

/-- What a tile's reset does to engine objects: those anchored on it are removed, and a context it holds part of is LOST. -/
def engineTileReset (d t : Nat) (s : State) : State :=
  let s := s.forAll s.sheaf.nodes (fun e s => match e.1, e.2 with
    | [nd, f, id], some x => if nd = d ∧ x.tile = t then removeNode nd f id s else s
    | _, _ => s)
  let s := s.forAll s.engine.jobs (fun e s => match e.1, e.2 with
    | [f, j], some x => if x.die = d ∧ x.tile = t then removeJob f j s else s
    | _, _ => s)
  s.forAll s.engine.ctxs (fun e s => match e.1, e.2 with
    | [c], some x => if x.die = d ∧ x.tile = t then removeCtx c s else if x.holds d t then s.setCtx c (some { x with lost := true }) else s
    | _, _ => s)

/-- The first byte of a tile's Steward data memory, and its length (R228). -/
def stewardBase (d t : Nat) : Nat := (d * 2048 + t) * 65536

/-- The registers of a tile whose numbers are listed read 0 again. -/
def clearTileRegs (regs : List Reg) (d t : Nat) (s : State) : State :=
  let nums := regs.map Reg.ctorIdx
  { s with flds := s.flds.filter (fun e => !(e.1.headD 0 ∈ nums && (e.1.drop 2).take 2 = [d, t])) }

/-- A tile's slots, memory, windows, tags, role epoch, flags and counters after a reset (R261). -/
def resetTile (d t : Nat) (s : State) : State :=
  let s := abandonTile d t s
  let s := s.setSendQ d t []
  let s := s.forAll (List.range 1024) (fun n s => s.setSlot d t n { gen := ((s.slot d t n).gen + 1) % 256 })
  let s := zeroTile d t s
  let lo := stewardBase d t
  let s : State := { s with tiles := { s.tiles with steward := s.tiles.steward.filter (fun c => !decide (lo ≤ c.1 ∧ c.1 < lo + 65536)), flags := tabSet 0 (tabSet 0 s.tiles.flags [d, t, 0] 0) [d, t, 1] 0, stalls := tabSet 0 (tabSet 0 s.tiles.stalls [d, t, 0] 0) [d, t, 1] 0 } }
  let s : State := { s with ni := { s.ni with tags := s.ni.tags.filter (fun e => e.1.take 2 ≠ [d, t]), tagReset := tabSet 0 s.ni.tagReset [d, t] s.now } }
  let s := clearTileRegs [.NI_WINDOW, .TL_RESIDUE, .TL_WB_STAT, .TL_STALL, .TM_STAT] d t s
  engineTileReset d t (advanceRole d t s)

/-- TILE_RESET_DONE: the drain has ended and the reset completes; callers go on. -/
def tileResetDone (d t : Nat) (s : State) : State :=
  match tabGet none s.tiles.resets [d, t] with
  | some r =>
    if Domain.tile d t ∈ s.ni.drained then
      let s := (openGate (.tile d t) (resetTile d t s)).setFld F.TL_CTRL_RESET_BUSY 0 [d, t]
      let s : State := { s with tiles := { s.tiles with resets := tabSet none s.tiles.resets [d, t] none } }
      s.forAll r.callers (fun c s => match inCall s c.1 c.2 0x0003 with
        | some (n, _) => endCall c.1 c.2 n none [] s
        | none => s)
    else s
  | none => s

def execTileResetDone (d t : Nat) (s : State) : Result := run (.tileResetDone d t) s (tileResetDone d t s)

/-! ## Waybill routines -/

def wbArm (d t : Nat) (w : List Byte) (s : State) : Except Nat (List Nat × State) :=
  if 1 ≤ arg w 1 ∧ arg w 1 ≤ 64 ∧ arg w 0 + arg w 1 ≤ 1024 ∧ argsZero w 2 then
    .ok ([], s.forAll (List.range (arg w 1)) (fun i s => armSlot d t (arg w 0 + i) s))
  else .error 0x02

def execWbArm (d t : Nat) (s : State) : Result := run (.wbArm d t) s (routine d t 0x0004 0 (wbArm d t) s)

/-- The tiles of a rectangle, row by row. -/
def rectangle (r0 r1 c0 c1 : Nat) : List Nat :=
  (List.range (r1 + 1 - r0)).flatMap (fun r => (List.range (c1 + 1 - c0)).map (fun c => (r0 + r) * 64 + c0 + c))

def wbBcast (d t : Nat) (w : List Byte) (s : State) : Except Nat (List Nat × State) :=
  let x := arg w 2
  let r0 := x % 32
  let r1 := x / 32 % 32
  let c0 := x / 1024 % 64
  let c1 := x / 65536 % 64
  let e := x / 2 ^ 22
  if arg w 0 % 128 ≠ 0 ∨ tileSize < arg w 0 + 128 ∨ 1024 ≤ arg w 1 ∨ 8 ≤ e ∨ r1 < r0 ∨ c1 < c0 ∨ 2 ≤ arg w 3 ∨ !argsZero w 4 then .error 0x02
  else if s.tileSlot d t = none ∨ (List.range (r1 + 1 - r0)).any (fun r => decide (s.rowsPerDie ≤ r0 + r) || s.rowOwner1 e (r0 + r) ≠ s.tileSlot d t) then .error 0x03
  else
    let bytes := s.readMem d t (arg w 0) 128
    let n := arg w 1
    let r := (rectangle r0 r1 c0 c1).foldl (fun (a : Nat × Nat × State) u =>
      let x := a.2.2.slot e u n
      if x.st ≠ .idle ∨ x.pendingArm then (a.1, a.2.1 + 1, a.2.2)
      else
        let s := a.2.2.writeMem e u (wbOffset n) bytes
        (a.1 + 1, a.2.1, if arg w 3 = 1 then armSlot e u n s else s)) (0, 0, s)
    .ok ([r.1, r.2.1], r.2.2)

def execWbBcast (d t : Nat) (s : State) : Result := run (.wbBcast d t) s (routine d t 0x0005 2 (wbBcast d t) s)

def wbRenew (d t : Nat) (w : List Byte) (s : State) : Except Nat (List Nat × State) :=
  if 1024 ≤ arg w 0 ∨ !argsZero w 1 then .error 0x02
  else
    let r := s.slot d t (arg w 0)
    if r.st ≠ .idle ∨ r.pendingArm then .error 0x03
    else
      let g := (r.gen + 1) % 256
      .ok ([g], s.setSlot d t (arg w 0) { r with gen := g, credits := 0, nextCredits := 0, poison := false })

def execWbRenew (d t : Nat) (s : State) : Result := run (.wbRenew d t) s (routine d t 0x0006 1 (wbRenew d t) s)

/-- STATE as WB_QUERY codes it. -/
def SlotSt.code : SlotSt → Nat
  | .idle => 0
  | .armed => 1
  | .ready => 2
  | .running => 3
  | .held => 4

def wbQuery (d t : Nat) (w : List Byte) (s : State) : Except Nat (List Nat × State) :=
  if 1024 ≤ arg w 0 ∨ !argsZero w 1 then .error 0x02
  else
    let r := s.slot d t (arg w 0)
    .ok ([r.st.code + 8 * b2n r.poison + 16 * b2n r.pendingArm + 256 * r.gen + 65536 * (r.credits + r.nextCredits)], s)

def execWbQuery (d t : Nat) (s : State) : Result := run (.wbQuery d t) s (routine d t 0x0007 1 (wbQuery d t) s)

def flagsRead (d t : Nat) (w : List Byte) (s : State) : Except Nat (List Nat × State) :=
  if 2 ≤ arg w 0 ∨ !argsZero w 1 then .error 0x02
  else
    let v := tabGet 0 s.tiles.flags [d, t, 0] + 32 * tabGet 0 s.tiles.flags [d, t, 1]
    .ok ([v], if arg w 0 = 1 then { s with tiles := { s.tiles with flags := tabSet 0 (tabSet 0 s.tiles.flags [d, t, 0] 0) [d, t, 1] 0 } } else s)

def execFlagsRead (d t : Nat) (s : State) : Result := run (.flagsRead d t) s (routine d t 0x0008 1 (flagsRead d t) s)

def timeRead (w : List Byte) (s : State) : Except Nat (List Nat × State) :=
  if argsZero w 0 then .ok ([s.now, b2n s.timeValid], s) else .error 0x02

def execTimeRead (d t : Nat) (s : State) : Result := run (.timeRead d t) s (routine d t 0x0009 2 timeRead s)

def patchWord (d t : Nat) (w : List Byte) (s : State) : Except Nat (List Nat × State) :=
  let n := arg w 1
  if (n = 1 ∨ n = 2 ∨ n = 4 ∨ n = 8) ∧ arg w 0 % n = 0 ∧ arg w 0 + n ≤ tileSize ∧ argsZero w 3 then
    let old := s.memWord d t (arg w 0) n
    .ok ([old], stewardWrite d t (arg w 0) (leBytes n ((old + arg w 2) % 2 ^ (8 * n))) (loadCompare d t false (arg w 0) n s))
  else .error 0x02

def execPatch (d t : Nat) (s : State) : Result := run (.patch d t) s (routine d t 0x000A 1 (patchWord d t) s)

/-- The tests of BRANCH. -/
def branchTest (test v c : Nat) : Bool :=
  match test with
  | 0 => v = c
  | 1 => v ≠ c
  | 2 => decide (toSigned 64 v < toSigned 64 c)
  | 3 => decide (toSigned 64 v ≤ toSigned 64 c)
  | _ => decide (v < c)

def branchArm (d t : Nat) (w : List Byte) (s : State) : Except Nat (List Nat × State) :=
  if tileSize < arg w 0 + 8 ∨ 4 < arg w 1 ∨ 1024 ≤ arg w 3 ∨ (1024 ≤ arg w 4 ∧ arg w 4 ≠ 0xFFFF) ∨ !argsZero w 5 then .error 0x02
  else
    let hit := branchTest (arg w 1) (s.memWord d t (arg w 0) 8) (arg w 2)
    let n := if hit then arg w 3 else arg w 4
    .ok ([b2n hit], if n = 0xFFFF then s else armSlot d t n s)

def execBranch (d t : Nat) (s : State) : Result := run (.branch d t) s (routine d t 0x000B 1 (branchArm d t) s)

/-- One scalar IEEE operation. -/
def scalarOp (op : Nat) (a : Rnd) (f : FloatFmt) (x y z : Num) : Nat × Nat :=
  match op with
  | 1 => ieeeAdd a f x y
  | 2 => ieeeSub a f x y
  | 3 => ieeeMul a f x y
  | 4 => ieeeDiv a f x y
  | 5 => ieeeSqrt a f x
  | _ => ieeeFma a f x y z

def scalarF (d t : Nat) (w : List Byte) (s : State) : Except Nat (List Nat × State) :=
  if arg w 0 = 0 ∨ 6 < arg w 0 ∨ (arg w 1 ≠ 1 ∧ arg w 1 ≠ 2) ∨ 4 < arg w 2 ∨ !argsZero w 6 then .error 0x02
  else
    let f := if arg w 1 = 1 then fp64 else fp32
    let num (i : Nat) : Num := f.decode (arg w i % 2 ^ f.w)
    let r := scalarOp (arg w 0) (Rnd.ofCode (arg w 2)) f (num 3) (num 4) (num 5)
    .ok ([r.1], raiseFlags d t 0 r.2 s)

def execScalarF (d t : Nat) (s : State) : Result := run (.scalarF d t) s (routine d t 0x000C 1 (scalarF d t) s)

/-! ## Packed long words (R262 to R264) -/

def pkOffset (w : List Byte) : Nat := wbLe w 24 3
def pkMax (w : List Byte) : Nat := wbLe w 28 4

/-- Slots of a mask. -/
def maskSlots (m : Nat) : List Nat := (List.range 8).filter (fun i => m.testBit i)

/-- The starts of the bundles from `at_` to the first END. -/
def scanBundles (s : State) (d t : Nat) : Nat → Nat → Option (List Nat)
  | 0, _ => none
  | fuel + 1, at_ =>
    if tileSize < at_ + 4 then none
    else
      let hd := s.memWord d t at_ 4
      let next := at_ + 4 + 4 * (maskSlots (hd % 256)).length
      if tileSize < next then none
      else if hd.testBit 8 then some [at_]
      else (scanBundles s d t fuel next).map (at_ :: ·)

/-- PACKED: the decoder scans the stream and starts running it. -/
def packedStart (d t : Nat) (s : State) : State :=
  match stewardRun s d t 0x41 with
  | none => s
  | some (n, w) =>
    if (s.slot d t n).packed.isSome then s
    else match scanBundles s d t 4096 (pkOffset w) with
      | none => endRun d t 2 n (failRun d t n 0x07 0 s)
      | some l =>
        let x := 0 :: (List.range 8).map (arg w) ++ List.replicate 23 0
        s.setSlot d t n { s.slot d t n with packed := some ⟨x, List.replicate 16 (List.replicate 64 0), l, pkOffset w, 0, false⟩ }

def execPacked (d t : Nat) (s : State) : Result := run (.packed d t) s (packedStart d t s)

/-- An instruction of a bundle: its slot, OP, D, A, B and IMM. -/
structure PkIns where
  slot : Nat
  op : Nat
  d : Nat
  a : Nat
  b : Nat
  imm : Int
  deriving DecidableEq, Repr

def pkIns (slot w : Nat) : PkIns := ⟨slot, w / 2 ^ 26 % 64, w / 2 ^ 21 % 32, w / 2 ^ 16 % 32, w / 2 ^ 11 % 32, toSigned 11 (w % 2048)⟩

/-- An operation is listed for the slot it stands in. -/
def pkListed (i : PkIns) : Bool :=
  match i.slot with
  | 0 | 1 => decide (0x01 ≤ i.op ∧ i.op ≤ 0x0C)
  | 2 => decide (0x10 ≤ i.op ∧ i.op ≤ 0x1A)
  | 3 => decide (0x20 ≤ i.op ∧ i.op ≤ 0x22)
  | 4 => decide (0x28 ≤ i.op ∧ i.op ≤ 0x2A)
  | 5 | 6 => decide (0x30 ≤ i.op ∧ i.op ≤ 0x35)
  | _ => decide (0x38 ≤ i.op ∧ i.op ≤ 0x3C)

/-- The register written: an x register as its number, a v register as 32 more. -/
def pkDest (i : PkIns) : Option Nat :=
  match i.slot with
  | 0 | 1 | 2 => some i.d
  | 3 => some (if i.op = 0x22 then 32 + i.d else i.d)
  | 5 | 6 => some (32 + i.d)
  | _ => none

/-- The v register numbers an instruction uses have bit 4 clear. -/
def pkVecOk (i : PkIns) : Bool :=
  match i.slot with
  | 3 => i.op ≠ 0x22 || decide (i.d < 16)
  | 4 => i.op ≠ 0x2A || decide (i.b < 16)
  | 5 | 6 => decide (i.d < 16) && (i.op = 0x35 || (decide (i.a < 16) && decide (i.b < 16)))
  | _ => true

/-- Bytes of a load or store. -/
def pkWidth (op : Nat) : Nat := if op = 0x20 ∨ op = 0x28 then 8 else if op = 0x21 ∨ op = 0x29 then 4 else 256

def pkAddr (p : PackedRun) (i : PkIns) : Nat := ofSigned 64 ((p.x.getD i.a 0 : Int) + pkWidth i.op * i.imm)

/-- The start a branch names. -/
def pkTarget (at_ : Nat) (i : PkIns) : Int := (at_ : Int) + 4 * i.imm

def isBranch (i : PkIns) : Bool := i.slot = 7 && decide (i.op ≤ 0x3A)

/-- Why a bundle does not run: FORMAT, or BOUNDS for an address outside tile memory. -/
def pkRefuse (p : PackedRun) (at_ hd : Nat) (l : List PkIns) : Option Nat :=
  let dests := l.filterMap pkDest
  let mem := l.filter (fun i => i.slot = 3 || i.slot = 4)
  if hd / 512 ≠ 0 ∨ !l.all pkListed ∨ !l.all pkVecOk ∨ dests.dedup ≠ dests
      ∨ l.any (fun i => isBranch i && !p.starts.any (fun b => (b : Int) = pkTarget at_ i)) ∨ mem.any (fun i => pkAddr p i % pkWidth i.op ≠ 0) then some 0x07
  else if mem.any (fun i => decide (tileSize < pkAddr p i + pkWidth i.op)) then some 0x06
  else none

/-- What an INT slot computes. -/
def pkInt (i : PkIns) (x y : Nat) : Nat :=
  match i.op with
  | 0x01 => (x + y) % 2 ^ 64
  | 0x02 => ofSigned 64 ((x : Int) - y)
  | 0x03 => x &&& y
  | 0x04 => x ||| y
  | 0x05 => x ^^^ y
  | 0x06 => x * 2 ^ (y % 64) % 2 ^ 64
  | 0x07 => x / 2 ^ (y % 64)
  | 0x08 => ofSigned 64 (toSigned 64 x / (2 ^ (y % 64) : Int))
  | 0x09 => ofSigned 64 ((x : Int) + i.imm)
  | 0x0A => x * y % 2 ^ 64
  | 0x0B => b2n (decide (toSigned 64 x < toSigned 64 y))
  | _ => (x * 2048 % 2 ^ 64) ||| ofSigned 11 i.imm

/-- What an FP slot computes, with its flags. -/
def pkFp (op x y z : Nat) : Nat × Nat :=
  let d (n : Nat) : Num := fp64.decode n
  let f (n : Nat) : Num := fp32.decode (n % 2 ^ 32)
  match op with
  | 0x10 => ieeeAdd .even fp64 (d x) (d y)
  | 0x11 => ieeeSub .even fp64 (d x) (d y)
  | 0x12 => ieeeMul .even fp64 (d x) (d y)
  | 0x13 => ieeeDiv .even fp64 (d x) (d y)
  | 0x14 => ieeeSqrt .even fp64 (d x)
  | 0x15 => ieeeFma .even fp64 (d x) (d y) (d z)
  | 0x16 => ieeeAdd .even fp32 (f x) (f y)
  | 0x17 => ieeeMul .even fp32 (f x) (f y)
  | 0x18 => ieeeFma .even fp32 (f x) (f y) (f z)
  | 0x19 => fp64.encode false .even false (f x)
  | _ => fp32.encode false .even false (d x)

/-- What a lane of a VEC slot computes. -/
def pkLane (op x y z : Nat) : Nat × Nat :=
  match op with
  | 0x30 => ieeeAdd .even fp32 (fp32.decode x) (fp32.decode y)
  | 0x31 => ieeeMul .even fp32 (fp32.decode x) (fp32.decode y)
  | 0x32 => ieeeFma .even fp32 (fp32.decode x) (fp32.decode y) (fp32.decode z)
  | 0x33 => ieeeMax fp32 (fp32.decode x) (fp32.decode y)
  | _ => ((x + y) % 2 ^ 32, 0)

/-- What the slots of a bundle leave: registers as they become, stores, flags of the Steward and of the lane cores, a slot
to credit, the branch taken, and HALT. -/
structure PkOut where
  x : List Nat
  v : List (List Nat)
  stores : List (Nat × List Byte) := []
  fl0 : Nat := 0
  fl1 : Nat := 0
  credit : Option Nat := none
  jump : Option Nat := none
  halt : Bool := false
  deriving DecidableEq, Repr

/-- Write an x register; x0 reads 0. -/
def putX (l : List Nat) (r v : Nat) : List Nat := if r = 0 then l else l.set r v

/-- One slot acts, reading the registers `p` held before the bundle. -/
def pkStep (s : State) (d t at_ : Nat) (p : PackedRun) (o : PkOut) (i : PkIns) : PkOut :=
  let x := p.x.getD i.a 0
  let y := p.x.getD i.b 0
  let va := p.v.getD i.a []
  let vb := p.v.getD i.b []
  let vd := p.v.getD i.d []
  match i.slot with
  | 0 | 1 => { o with x := putX o.x i.d (pkInt i x y) }
  | 2 => let r := pkFp i.op x y (p.x.getD i.d 0)
         { o with x := putX o.x i.d r.1, fl0 := o.fl0 ||| r.2 }
  | 3 =>
    let l := s.readMem d t (pkAddr p i) (pkWidth i.op)
    if i.op = 0x22 then { o with v := o.v.set i.d ((groupsOf 4 64 l).map leNat) } else { o with x := putX o.x i.d (leNat l) }
  | 4 =>
    let l := if i.op = 0x2A then vb.flatMap (leBytes 4) else leBytes (pkWidth i.op) y
    { o with stores := o.stores ++ [(pkAddr p i, l)] }
  | 5 | 6 =>
    if i.op = 0x35 then { o with v := o.v.set i.d (List.replicate 64 (x % 2 ^ 32)) }
    else
      let r := (List.range 64).map (fun j => pkLane i.op (va.getD j 0) (vb.getD j 0) (vd.getD j 0))
      { o with v := o.v.set i.d (r.map (·.1)), fl1 := r.foldl (fun a z => a ||| z.2) o.fl1 }
  | _ =>
    let hit : Bool := match i.op with
      | 0x38 => x = y
      | 0x39 => x ≠ y
      | 0x3A => decide (toSigned 64 x < toSigned 64 y)
      | _ => false
    if i.op = 0x3B then { o with credit := some (x % 1024) }
    else if i.op = 0x3C then { o with halt := true }
    else if hit then { o with jump := some (pkTarget at_ i).toNat } else o

/-- PACKED_BUNDLE: the decoder executes one bundle. `fault`: 1 where a residue check of the Steward fails, 2 where another checker
does, 3 where a residue check of a lane core does. -/
def packedBundle (d t fault : Nat) (s : State) : State :=
  match stewardRun s d t 0x41 with
  | none => s
  | some (n, w) =>
    match (s.slot d t n).packed with
    | none => s
    | some p =>
      if fault = 3 then endRun d t 2 n (poisonRun d t 1 n 1 s)
      else if fault ≠ 0 then endRun d t 2 n (poisonRun d t 2 n fault s)
      else if pkMax w ≤ p.count then endRun d t 2 n (failRun d t n 0x10 0 s)
      else
        let at_ := p.next_
        let hd := s.memWord d t at_ 4
        let slots := maskSlots (hd % 256)
        let ins := (List.range slots.length).map (fun j => pkIns (slots.getD j 0) (s.memWord d t (at_ + 4 + 4 * j) 4))
        match pkRefuse p at_ hd ins with
        | some st => endRun d t 2 n (failRun d t n st 0 s)
        | none =>
          let o := ins.foldl (pkStep s d t at_ p) { x := p.x, v := p.v }
          let s := raiseFlags d t 1 o.fl1 (raiseFlags d t 0 o.fl0 s)
          let s := s.forAll (ins.filter (fun i => i.slot = 3)) (fun i s => loadCompare d t false (pkAddr p i) (pkWidth i.op) s)
          let s := s.forAll o.stores (fun x s => pushStore d t ⟨64, x.1, x.2.length⟩ (s.writeMem d t x.1 x.2))
          let ended := o.halt || hd.testBit 8
          let q : PackedRun := ⟨o.x, o.v, p.starts, o.jump.getD (at_ + 4 + 4 * slots.length), p.count + 1, ended⟩
          let s := s.setSlot d t n { s.slot d t n with packed := some q }
          let s := match o.credit with
            | some m => creditSlot d t m false s
            | none => s
          if ended then endRun d t 2 n s else s

def execPackedBundle (d t fault : Nat) (s : State) : Result := run (.packedBundle d t fault) s (packedBundle d t fault s)

end Sys2Proof.Machine
end

