-- ==== Sys2Proof/Machine/SheafOps.lean ====
section
/-! DEFINITION. The Sheaf engine slice (R266 to R292): plans, lanes and their exact contents, the state of a round, results,
partials and notices, and the closing of a round. -/

namespace Sys2Proof.Machine

/-! ## Formats and shapes of a plan (R273, R276, R282, R285) -/

/-- SUM, MEAN, ISUM, MAX, MIN, MAXLOC, MINLOC, AND, OR, XOR. -/
abbrev opSum (op : Nat) : Bool := op = 1 || op = 2
abbrev opOrder (op : Nat) : Bool := decide (4 ≤ op ∧ op ≤ 7)
abbrev opLoc (op : Nat) : Bool := op = 6 || op = 7
abbrev opGreatest (op : Nat) : Bool := op = 4 || op = 6
abbrev opBits (op : Nat) : Bool := decide (8 ≤ op ∧ op ≤ 10)

/-- OP, IN_FORMAT and OUT_FORMAT make a row of *Operations*. -/
def opRow (op i o : Nat) : Bool :=
  match elemOf i, elemOf o with
  | some ei, some eo =>
    if opSum op then
      if i = 1 then o = 1 || o = 2 || o = 7 else (ei.isMx || (ei.isFlt && i ≠ 1)) && (eo.isFlt || eo.isMx || o = 7)
    else if op = 3 then ei.isInt && eo.isInt
    else if op = 4 ∨ op = 5 then i = o && (ei.isFlt || ei.isInt)
    else if opLoc op then i = o && i ∈ [0x01, 0x02, 0x22, 0x23, 0x26, 0x27]
    else opBits op && i = o && ei.isInt
  | _, _ => false

/-- The lanes are wide: SUM and MEAN of FP64. -/
def SheafPlan.wide (p : SheafPlan) : Bool := opSum p.op && p.inFmt = 1

/-- Elements of a chunk. -/
def SheafPlan.chunk (p : SheafPlan) : Nat := if p.wide then 16 else 128

/-- Chunks of the Sheaf. -/
def SheafPlan.chunks (p : SheafPlan) : Nat := if p.small then 1 else (p.n + p.chunk - 1) / p.chunk

/-- Elements that chunk `c` holds. -/
def SheafPlan.sizeOf (p : SheafPlan) (c : Nat) : Nat := min p.chunk (p.n - c * p.chunk)

/-- Bytes of a result element: a record of two words for MAXLOC and MINLOC (R274). -/
def SheafPlan.outSize (p : SheafPlan) : Nat := unitBytes p.outFmt 1 * (if opLoc p.op then 2 else 1)

def SheafPlan.outMx (p : SheafPlan) : Bool := decide (0x10 ≤ p.outFmt ∧ p.outFmt ≤ 0x14)

/-- P of R285. -/
def SheafPlan.per (p : SheafPlan) : Nat := if p.outMx then 2048 else 4096 / max p.outSize 1

/-- Words of a partial element, and how far its LSB lies above the lane's (*Partial widths*). -/
def SheafPlan.words (p : SheafPlan) : Nat × Nat :=
  if opSum p.op then
    match p.inFmt with
    | 0x01 => (35, 0)
    | 0x05 => (1, 140)
    | 0x06 => (1, 133)
    | 0x03 => (2, 125)
    | _ => (5, 0)
  else if p.op = 3 then (if p.inFmt = 0x23 ∨ p.inFmt = 0x27 then (2, 0) else (1, 0))
  else if opLoc p.op then (2, 0)
  else (1, 0)

/-- The overflow mode of results. -/
def SheafPlan.sat (p : SheafPlan) : Bool := if p.mode.testBit 1 then p.mode.testBit 0 else defaultSat p.outFmt

/-! ## Lanes (R213 to R216, R274) -/

/-- Weight of a lane's bit 0. -/
def SheafPlan.lsb (p : SheafPlan) : Int := if p.wide then -1074 else -149

/-- The integer of a finite value in units of the lane's bit 0; every accepted value is a multiple of it. -/
def laneInt (lsb : Int) : Num → Int
  | .fin n m e => let k : Int := (m * 2 ^ (e - lsb).toNat / 2 ^ (lsb - e).toNat : Nat)
                  if n then -k else k
  | _ => 0

/-- Add a value to a sum lane. -/
def addValue (lsb : Int) (v : Num) (l : Lane320) : Lane320 :=
  match v with
  | .nan _ _ => { l with fl := l.fl ||| 1 }
  | .inf false => { l with fl := l.fl ||| 2 }
  | .inf true => { l with fl := l.fl ||| 4 }
  | v => { l with a := l.a + laneInt lsb v }

/-- A value of MAX, MIN, MAXLOC or MINLOC as its lane holds it: the FP64 pattern, or the integer. -/
def orderInt (isInt : Bool) (v : Num) : Int := if isInt then v.toInt else ((fp64.encode true .even false v).1 : Nat)

/-- One held value stands before another. -/
def heldLt (isInt : Bool) (x y : Int) : Bool := if isInt then decide (x < y) else (fp64.decode x.toNat).lt (fp64.decode y.toNat)

/-- Merge two contents of an order lane (R274): NaN wins with the lowest rank that gave one and is held as FP64 (R282); else the
better value; among equals the lowest rank. -/
def mergeOrder (isInt greatest : Bool) (x y : Lane320) : Lane320 :=
  if x.fl % 2 = 1 ∨ y.fl % 2 = 1 then
    { a := (fp64.canonical : Nat), fl := 1, rank := if x.fl % 2 = 0 then y.rank else if y.fl % 2 = 0 then x.rank else min x.rank y.rank }
  else
    let better := if greatest then heldLt isInt x.a y.a else heldLt isInt y.a x.a
    let worse := if greatest then heldLt isInt y.a x.a else heldLt isInt x.a y.a
    if better then y else if worse then x else { x with rank := min x.rank y.rank }

/-- An integer as a lane of the plan holds it: two's complement of 320 bits, or of 2,240 on a wide lane (R213, R214). -/
def SheafPlan.inLane (p : SheafPlan) (a : Int) : Int :=
  let w := if p.wide then 2240 else 320
  toSigned w (ofSigned w a)

/-- Merge two contents of a lane; `fresh` where the first holds nothing yet. -/
def mergeLane (p : SheafPlan) (fresh : Bool) (x y : Lane320) : Lane320 :=
  let isInt := match elemOf p.inFmt with
    | some e => e.isInt
    | none => false
  if opSum p.op ∨ p.op = 3 then { x with a := p.inLane (x.a + y.a), fl := x.fl ||| y.fl }
  else if fresh then y
  else if opOrder p.op then mergeOrder isInt (opGreatest p.op) x y
  else
    let u := x.a.toNat
    let w := y.a.toNat
    { x with a := ((if p.op = 8 then u &&& w else if p.op = 9 then u ||| w else u ^^^ w : Nat) : Int) }

/-- What one LEAF element puts into a lane. -/
def leafLane (p : SheafPlan) (rank : Nat) (v : Num) : Lane320 :=
  let isInt := match elemOf p.inFmt with
    | some e => e.isInt
    | none => false
  if opSum p.op then addValue p.lsb v.norm {}
  else if p.op = 3 then { a := v.toInt }
  else if opOrder p.op then (if v.isNan then { a := (fp64.canonical : Nat), fl := 1, rank := rank } else { a := orderInt isInt v.norm, rank := rank })
  else { a := (ofSigned 64 v.toInt : Nat) }

/-- What one element of a CHILD's partial puts into a lane: its words and flags; an FP64 NaN in the word of an order lane is a NaN
also where no flag says so. -/
def partLane (p : SheafPlan) (l : List Byte) (fl : Nat) : Lane320 :=
  let (w, up) := p.words
  let n := leNat (l.take (8 * w))
  if opSum p.op then { a := toSigned (64 * w) n * 2 ^ up, fl := fl }
  else if p.op = 3 then { a := toSigned (64 * w) n, fl := fl }
  else if opLoc p.op ∨ opOrder p.op then
    let v := n % 2 ^ 64
    let a : Int := match elemOf p.inFmt with
      | some (.int true _) => toSigned 64 v
      | _ => v
    let isFloat := match elemOf p.inFmt with
      | some (.int _ _) => false
      | _ => true
    { a := a, fl := if isFloat && (fp64.decode v).isNan then fl ||| 1 else fl, rank := if opLoc p.op then n / 2 ^ 64 % 2 ^ 20 else 0xFFFFF }
  else { a := (n : Nat), fl := fl }

/-- The words of a lane in a partial. -/
def laneWords (p : SheafPlan) (n : Nat) (l : Lane320) : List Byte :=
  let (w, up) := p.words
  if n = 0 then List.replicate (8 * w) 0
  else if opSum p.op then leBytes (8 * w) (ofSigned (64 * w) (l.a / (2 ^ up : Int)))
  else if opLoc p.op then leBytes 8 (ofSigned 64 l.a) ++ leBytes 8 l.rank
  else leBytes (8 * w) (ofSigned (64 * w) l.a)

/-- The exact quotient of a mean, with a sticky bit far below any rounding (R215). -/
def meanNum (a : Int) (n : Nat) (lsb : Int) : Num :=
  let m := a.natAbs * 2 ^ 2400
  .fin (decide (a < 0)) (2 * (m / n) + (if m % n = 0 then 0 else 1)) (lsb - 2401)

/-- The exact value that a lane's element takes at the root (R215, R216, R274). -/
def laneNum (p : SheafPlan) (n : Nat) (l : Lane320) : Num :=
  if opSum p.op then
    if l.fl % 2 = 1 ∨ l.fl / 2 % 4 = 3 then .qnan
    else if l.fl.testBit 1 then .inf false
    else if l.fl.testBit 2 then .inf true
    else if n = 0 then .zero
    else if p.op = 2 then meanNum l.a n p.lsb
    else .fin (decide (l.a < 0)) l.a.natAbs p.lsb
  else if opOrder p.op then
    match elemOf p.inFmt with
    | some (.int sg b) =>
      let lo : Int := if sg then -(2 ^ (8 * b - 1) : Int) else 0
      let hi : Int := if sg then 2 ^ (8 * b - 1) - 1 else 2 ^ (8 * b) - 1
      Num.ofInt (if n = 0 then (if opGreatest p.op then lo else hi) else l.a)
    | _ => if n = 0 ∨ l.fl % 2 = 1 then .qnan else fp64.decode l.a.toNat
  else if p.op = 3 then Num.ofInt l.a
  else Num.ofInt (if n = 0 then (if p.op = 8 then -1 else 0) else l.a)

/-- The pattern of one result element in an output format that has whole bytes. -/
def laneBytes (p : SheafPlan) (n : Nat) (l : Lane320) : List Byte :=
  match elemOf p.outFmt with
  | some (.int sg b) =>
    let i := (laneNum p n l).toInt
    let v := if p.op = 3 then intPattern (p.mode.testBit 2) sg b i else ofSigned (8 * b) i
    leBytes b v ++ (if opLoc p.op then leBytes b (if n = 0 then 0xFFFFF else l.rank) else [])
  | some e =>
    leBytes e.size (e.pattern ⟨.even, p.sat, false, true, false⟩ (laneNum p n l)).1
      ++ (if opLoc p.op then leBytes e.size (if n = 0 then 0xFFFFF else l.rank) else [])
  | none => []

/-! ## The state of a round -/

def modNode (d f id : Nat) (g : SheafNode → SheafNode) (s : State) : State :=
  match s.node d f id with
  | some nd => s.setNode d f id (some (g nd))
  | none => s

def SheafNode.chunkRec (nd : SheafNode) (c : Nat) : ChunkRec := tabGet {} nd.chunks [c]

/-- Input `i` covers chunk `c` in a round (R281). -/
def covers (p : SheafPlan) (r : SheafRound) (i c : Nat) : Bool :=
  match p.inputs[i]? with
  | none => false
  | some x =>
    if p.small then true
    else if x.var then (tabGet [] r.covers [i]).any (fun g => decide (g.1 ≤ c ∧ c < g.1 + g.2))
    else decide (x.first / p.chunk ≤ c ∧ c * p.chunk < x.first + x.count)

/-- Every VARIABLE input has sent its FINAL. -/
def finalsIn (p : SheafPlan) (r : SheafRound) : Bool :=
  (List.range p.inputs.length).all (fun i => match p.inputs[i]? with
    | some x => !x.var || i ∈ r.finals
    | none => true)

/-- Every input that covers a chunk has given its data or its notice, and the data has been added (R281). -/
def chunkFull (nd : SheafNode) (c : Nat) : Bool :=
  let r := nd.now_
  finalsIn nd.plan r && (List.range nd.plan.inputs.length).all (fun i =>
    !covers nd.plan r i c || (let v := tabGet 0 r.recv [i, c]
                              v = 2 || (v = 1 && i ∈ (nd.chunkRec c).added)))

/-- The chunks not yet complete, lowest first. -/
def SheafNode.openChunks (nd : SheafNode) : List Nat := (List.range nd.plan.chunks).filter (fun c => !(nd.chunkRec c).done)

/-- The window: the lowest LANE_CHUNKS incomplete chunks (R280). -/
def SheafNode.window (nd : SheafNode) : List Nat := nd.openChunks.take nd.plan.laneChunks

/-- The first chunk of the horizon of round `next`. -/
def SheafNode.low (nd : SheafNode) (next : Bool) : Nat := if next then 0 else nd.openChunks.headD nd.plan.chunks

/-- The elements for which a node's parent names it as a fixed CHILD, or nothing where its entry is VARIABLE: as the parent's
plan says where the parent lies on this device, else as Config says. -/
def parentRange (s : State) (nd : SheafNode) : Option (Nat × Nat) :=
  match (List.range 8).findSome? (fun d => (s.node d nd.field nd.plan.id).filter (fun q => q.rank = nd.plan.parent)) with
  | some q => (q.plan.inputs.find? (fun x => x.rank = nd.rank && !x.var)).map (fun x => (x.first, x.count))
  | none => Config.childRange nd.field nd.plan.id nd.rank

/-- The span of a non-root node: the chunks its inputs cover, and, where it is a fixed CHILD, the empty chunks of the range its
parent names (R282). -/
def inSpan (s : State) (nd : SheafNode) (c : Nat) : Bool :=
  let p := nd.plan
  (List.range p.inputs.length).any (fun i => covers p nd.now_ i c) ||
    (match parentRange s nd with
    | some (a, n) => decide (a / p.chunk ≤ c ∧ c * p.chunk < a + n)
    | none => false)

/-- Elements of a target's block that starts at `e`. -/
def blockLen (p : SheafPlan) (t : SheafTarget) (e : Nat) : Nat := min p.per (t.first + t.count - e)

/-- The blocks of a target. -/
def blocksOf (p : SheafPlan) (t : SheafTarget) : List Nat :=
  (List.range ((t.count + p.per - 1) / p.per)).map (fun i => t.first + i * p.per)

/-- The chunks a run of elements touches. -/
def chunksIn (p : SheafPlan) (e n : Nat) : List Nat :=
  if n = 0 then [] else (List.range ((e + n - 1) / p.chunk + 1 - e / p.chunk)).map (fun i => e / p.chunk + i)

/-! ## Sending -/

/-- A packet of a node: it takes a tag of its anchor tile (R280). -/
def nodeSend (d : Nat) (nd : SheafNode) (p : Packet) (kind rank : Nat) (again handoff : Bool) (s : State) : State :=
  submit d nd.tile { p := p, issuer := .engine kind d nd.plan.id rank, resend := again, handoff := handoff, input := .sheaf d } s

/-- A SHEAF_SMALL packet of a node: it holds no tag (R292, R294). -/
def nodeSmall (d : Nat) (nd : SheafNode) (rank epoch : Nat) (body : List Byte) (handoff : Bool) (s : State) : State :=
  let h := { reqHdr s d nd.tile 0x06 (if nd.plan.sched then 2 else 0) 0 nd.field rank with roleEpoch := epoch }
  sendPlain d nd.tile { h := h, body := body } (.sheaf d) handoff s

/-- The result of elements `e` to `e + n - 1`, as stored. -/
def resultBytes (nd : SheafNode) (e n : Nat) : List Byte :=
  let p := nd.plan
  let lane (j : Nat) : Lane320 := (nd.chunkRec (j / p.chunk)).lanes.getD (j % p.chunk) {}
  let cnt (j : Nat) : Nat := (nd.chunkRec (j / p.chunk)).n
  match elemOf p.outFmt with
  | some (.mx f) => mxSegment f ⟨.even, p.sat, false, true, false⟩ ((List.range n).map (fun i => laneNum p (cnt (e + i)) (lane (e + i))))
  | _ => (List.range n).flatMap (fun i => laneBytes p (cnt (e + i)) (lane (e + i)))

/-- A SHEAF_RESULT for one block of a target, or the notice in its place (R285, R286, R289). -/
def sendBlock (d : Nat) (nd : SheafNode) (t : SheafTarget) (e : Nat) (data : Option (List Byte)) (s : State) : State :=
  let p := nd.plan
  let n := blockLen p t e
  match data with
  | none =>
    let ref := if t.child then noRef else t.ref
    let h := { reqHdr s d nd.tile 0x07 0 0 nd.field t.rank with roleEpoch := if t.child then 0 else t.epoch }
    nodeSend d nd { h := h, body := poisonBody nd.cur p.id e n ref (if t.child then 0 else 1) } 0 t.rank false true s
  | some l =>
    let pay := padTo (max 256 ((l.length + 63) / 64 * 64)) l
    let off := if t.child then 0xFFFFFFFFFF
      else t.offset + (if p.outMx then (e - t.first) / 2048 * (l.length) else (e - t.first) * p.outSize)
    let h := { reqHdr s d nd.tile 0x83 1 (pay.length / 64) nd.field t.rank with roleEpoch := if t.child then 0 else t.epoch }
    let body := dataBody (if t.child then 0 else t.window) off (if t.child then noRef else t.ref) p.id p.outFmt (nd.cur * 2 ^ 28 + e) 0 0 0
    nodeSend d nd { h := h, body := body, data := pay } 1 t.rank false false s

/-- The result of a small node to one target: RESULT to a window, DOWN to a CHILD (R292). -/
def sendSmall (d : Nat) (nd : SheafNode) (t : SheafTarget) (data : Option (List Byte)) (s : State) : State :=
  let pois := if data.isNone then 16 else 0
  let dat := padTo 16 ((data.getD []).take 16)
  if t.child then nodeSmall d nd t.rank 0 ([4] ++ beBytes 1 (nd.cur + pois) ++ beBytes 2 nd.plan.id ++ List.replicate 12 0 ++ dat) data.isNone s
  else nodeSmall d nd t.rank t.epoch ([3] ++ beBytes 1 (nd.cur + pois) ++ beBytes 2 nd.plan.id ++ beBytes 1 t.window ++ beBytes 5 t.offset ++ beBytes 4 t.ref ++ [0, 0] ++ dat) data.isNone s

/-- Send one block of target number `j` unless it has been sent. -/
def sendOnce (d f id j e : Nat) (t : SheafTarget) (data : Option (List Byte)) (s : State) : State :=
  match s.node d f id with
  | some nd =>
    if (j, e) ∈ nd.sent then s
    else
      let s := if nd.plan.small then sendSmall d nd t data s else sendBlock d nd t e data s
      modNode d f id (fun nd => { nd with sent := nd.sent ++ [(j, e)] }) s
  | none => s

/-- The root sends every block of its targets that touches chunk `c` and whose chunks are all complete (R284, R285). -/
def rootBlocks (d f id c : Nat) (s : State) : State :=
  match s.node d f id with
  | none => s
  | some nd =>
    let p := nd.plan
    s.forAll ((List.range p.targets.length).zip p.targets) (fun x s =>
      s.forAll (blocksOf p x.2) (fun e s =>
        let cs := if p.small then [0] else chunksIn p e (blockLen p x.2 e)
        if c ∈ cs ∧ cs.all (fun q => (nd.chunkRec q).done) then
          let bad := cs.any (fun q => q ∈ nd.now_.poisoned)
          sendOnce d f id x.1 e x.2 (if bad then none else some (resultBytes nd e (blockLen p x.2 e))) s
        else s))

/-- The 3-bit flags of a chunk's elements, as a number. -/
def flagBits (l : List Lane320) : Nat := l.foldr (fun x a => x.fl % 8 + 8 * a) 0

/-- The partial of a chunk (R282): to the parent, in one SHEAF_CONTRIB, or in the pieces of a small node (R292). -/
def sendPartial (d : Nat) (nd : SheafNode) (c : Nat) (s : State) : State :=
  let p := nd.plan
  let k := nd.chunkRec c
  let bad := decide (c ∈ nd.now_.poisoned)
  let n := k.n
  let lanes := (List.range (if p.small then p.n else p.chunk)).map (fun j => if bad then {} else k.lanes.getD j {})
  let words := ((List.range lanes.length).zip lanes).flatMap (fun x => laneWords p (if bad || decide (p.n ≤ c * p.chunk + x.1) then 0 else n) x.2)
  if p.small then
    let recd := leBytes 6 (flagBits lanes) ++ [BitVec.ofNat 8 (b2n bad), 0] ++ leBytes 4 n ++ List.replicate 4 0 ++ words
    let parts := (recd.length + 23) / 24
    s.forAll (List.range parts) (fun i s =>
      nodeSmall d nd p.parent 0 ([2] ++ beBytes 1 nd.cur ++ beBytes 2 p.id ++ beBytes 1 i ++ beBytes 1 parts ++ [0, 0] ++ padTo 24 ((recd.drop (24 * i)).take 24)) bad s)
  else
    let flag := leBytes 48 (flagBits lanes) ++ beBytes 4 n ++ [BitVec.ofNat 8 (b2n bad)] ++ List.replicate 11 0
    let data := flag ++ words
    let h := reqHdr s d nd.tile 0x82 1 (data.length / 64) nd.field p.parent
    nodeSend d nd { h := h, body := dataBody 0 0 noRef p.id 0 (nd.cur * 2 ^ 28 + c * p.chunk) 0 0 0, data := data } 0 p.parent true bad s

/-! ## Poison, completion and closing -/

/-- DETAIL of a POISON event of a Sheaf chunk. -/
def chunkDetail (id c : Nat) : List Byte := beBytes 2 id ++ beBytes 4 c

/-- The open round of a node, or the next. -/
def SheafNode.round (n : SheafNode) (next : Bool) : SheafRound := if next then n.next_ else n.now_

def SheafNode.setRound (n : SheafNode) (next : Bool) (r : SheafRound) : SheafNode := if next then { n with next_ := r } else { n with now_ := r }

/-- A chunk of the open round, or of the next, is poisoned (R288): counted once, and reported; `own` where a residue check of this
slice found it. -/
def poisonIn (next : Bool) (d f id c : Nat) (own : Bool) (s : State) : State :=
  match s.node d f id with
  | none => s
  | some nd =>
    let r := nd.round next
    if c ∈ r.poisoned then s
    else
      let s := s.setNode d f id (some { nd.setRound next { r with poisoned := r.poisoned ++ [c] } with poisonedEver := nd.poisonedEver + 1 })
      let s := s.bump F.SH_STAT_POISONED_CHUNKS [d]
      s.report ⟨2, !own, [30, d], d, d, f, none, false, 0x06, 0x03, true, chunkDetail id c⟩

abbrev poisonChunk (d f id c : Nat) (own : Bool) (s : State) : State := poisonIn false d f id c own s

/-- A round has nothing left to send (R277). -/
def roundDone (s : State) (nd : SheafNode) : Bool :=
  let p := nd.plan
  let all := ((List.range p.targets.length).zip p.targets).all (fun x => (blocksOf p x.2).all (fun e => decide ((x.1, e) ∈ nd.sent)))
  all && (p.root || (finalsIn p nd.now_ && (List.range p.chunks).all (fun c => !inSpan s nd c || (nd.chunkRec c).done)))

/-- CUR_ROUND advances, and what has been accepted of the next round is taken up (R277). -/
def advanceRound (d f id : Nat) (s : State) : State :=
  match s.node d f id with
  | none => s
  | some nd =>
    let s := s.forAll nd.now_.held (fun h s => letGo h.pid s)
    s.setNode d f id (some { nd with cur := (nd.cur + 1) % 16, now_ := nd.next_, next_ := {}, chunks := [], sent := [], completed := 0, openedAt := if nd.next_.begun then some s.now else none })

/-- A chunk is complete: its partial leaves, or its blocks may (R281, R282, R284). -/
def finishChunk (d f id c : Nat) (s : State) : State :=
  match s.node d f id with
  | none => s
  | some nd =>
    let s := if !nd.plan.root && inSpan s nd c then sendPartial d nd c s else s
    let k := nd.chunkRec c
    let k := { k with done := true, lanes := if nd.plan.root then k.lanes else [] }
    let s := modNode d f id (fun nd => { nd with chunks := tabSet {} nd.chunks [c] k, completed := nd.completed + 1 }) s
    if nd.plan.root then rootBlocks d f id c s else s

/-- Complete what can be completed in the window, as it moves. -/
def settleChunks (d f id : Nat) : Nat → State → State
  | 0, s => s
  | fuel + 1, s =>
    match s.node d f id with
    | none => s
    | some nd =>
      match nd.window.find? (chunkFull nd) with
      | some c => settleChunks d f id fuel (finishChunk d f id c s)
      | none => s

/-- The COVER messages by which a VARIABLE CHILD declares its own span to its parent (R283), once every FINAL has come and before
its first partial: three ranges a message, FINAL in the last. -/
def declareSpan (d f id : Nat) (s : State) : State :=
  match s.node d f id with
  | none => s
  | some nd =>
    let p := nd.plan
    if p.root ∨ p.small ∨ nd.now_.declared ∨ (parentRange s nd).isSome ∨ !finalsIn p nd.now_ then s
    else
      let s := modNode d f id (fun nd => { nd with now_ := { nd.now_ with declared := true } }) s
      let runs := ((List.range p.chunks).filter (inSpan s nd)).foldl (fun (a : List (Nat × Nat)) c => match a.getLast? with
        | some l => if l.1 + l.2 = c then a.dropLast ++ [(l.1, l.2 + 1)] else a ++ [(c, 1)]
        | none => [(c, 1)]) []
      let msgs := if runs = [] then [[]] else groupsOf 3 runs.length runs
      s.forAll (List.range msgs.length) (fun i s =>
        let m := msgs.getD i []
        let body := [1] ++ beBytes 1 (nd.cur + (if i + 1 = msgs.length then 16 else 0)) ++ beBytes 2 p.id ++ List.replicate 4 0
          ++ padTo 24 (m.flatMap (fun r => beBytes 4 r.1 ++ beBytes 4 r.2))
        nodeSend d nd { h := reqHdr s d nd.tile 0x07 0 0 f p.parent, body := body } 0 p.parent true false s)

/-- Lanes of `cnt` elements from their flags and words. -/
def partLanes (p : SheafPlan) (cnt flags : Nat) (words : List Byte) : List Lane320 :=
  (List.range cnt).map (fun i => partLane p (words.drop (8 * p.words.1 * i)) (flags / 8 ^ i % 8))

/-- What a packet gives its `j`-th chunk, chunk `c` of the Sheaf: lanes, n, and whether it is poisoned. Elements at or beyond N are
ignored (R276). -/
def contribution (p : SheafPlan) (x : SheafInput) (q : Packet) (j c : Nat) : List Lane320 × Nat × Bool :=
  let cnt := if p.small then p.n else p.sizeOf c
  if x.child then
    (partLanes p cnt (leNat (q.data.take 48)) (q.data.drop 64), beNat ((q.data.drop 48).take 4), ((q.data.getD 52 0).toNat % 2 = 1))
  else
    let bytes := if p.small then q.body.drop 16 else q.data
    match elemOf p.inFmt with
    | some e => ((List.range cnt).map (fun i => leafLane p q.h.srcRank (e.read (fun b => bytes.getD b 0) (j * p.chunk + i))), 1, p.small && q.pay 1 1 ≥ 16)
    | none => ([], 0, false)

/-- Add one input's lanes into chunk `c` of the open round (R280, R281); `fault` where a residue check fails. -/
def addLanes (d f id i c : Nat) (x : List Lane320 × Nat × Bool) (fault : Bool) (s : State) : State :=
  match s.node d f id with
  | none => s
  | some nd =>
    let k := nd.chunkRec c
    let lanes := (List.range x.1.length).map (fun j => if x.2.1 = 0 then k.lanes.getD j {} else mergeLane nd.plan (k.n = 0) (k.lanes.getD j {}) (x.1.getD j {}))
    let n := k.n + x.2.1
    let s := modNode d f id (fun nd => { nd with chunks := tabSet {} nd.chunks [c] { k with lanes := lanes, n := n, added := k.added ++ [i] } }) s
    let s := if 2 ^ 27 < n ∧ k.n ≤ 2 ^ 27 then poisonChunk d f id c false (s.bump F.SH_STAT_B_COUNT_OVERFLOWS [d]) else s
    let s := if x.2.2 then poisonChunk d f id c false s else s
    if fault then poisonChunk d f id c true (s.bump F.SH_STATUS_RESIDUE_FAILS [d]) else s

/-- The next chunk of a held packet is added; a packet wholly taken is let go. -/
def takeChunk (d f id : Nat) (h : HeldContrib) (fault : Bool) (s : State) : State :=
  match s.node d f id, s.pkt h.pid with
  | some nd, some k =>
    match nd.plan.inputs[h.input]? with
    | some x =>
      let s := addLanes d f id h.input (h.first + h.taken) (contribution nd.plan x k.p h.taken (h.first + h.taken)) fault s
      let h' := { h with taken := h.taken + 1 }
      let whole := decide (h.count ≤ h'.taken)
      let s := modNode d f id (fun nd => { nd with now_ := { nd.now_ with held := nd.now_.held.filterMap (fun g => if g.pid = h.pid then (if whole then none else some h') else some g) } }) s
      if whole then letGo h.pid s else s
    | none => s
  | _, _ => s

/-- The pieces of a CHILD's partial record, when all have come (R292). -/
def wholeRecord (p : SheafPlan) (r : SheafRound) (i : Nat) : Option (List Byte) :=
  let len := 16 + 8 * p.words.1 * p.n
  let parts := (len + 23) / 24
  (allSome ((List.range parts).map (fun k => (tabGet none r.pieces [i, k]).map (·.2)))).map (fun l => l.flatten.take len)

/-- Add a CHILD's whole record. -/
def takeRecord (d f id i : Nat) (l : List Byte) (fault : Bool) (s : State) : State :=
  match s.node d f id with
  | some nd =>
    let x := (partLanes nd.plan nd.plan.n (leNat (l.take 6)) (l.drop 16), leNat ((l.drop 8).take 4), decide ((l.getD 6 0).toNat % 2 = 1))
    addLanes d f id i 0 x fault s
  | none => s

/-- What a small node holds of its open round is taken at once: nothing waits for a window. -/
def takeSmall (d f id : Nat) (s : State) : State :=
  match s.node d f id with
  | some nd =>
    if !nd.plan.small then s
    else
      let s := s.forAll nd.now_.held (fun h s => takeChunk d f id h (decide (h.input ∈ nd.now_.faults)) s)
      s.forAll (List.range nd.plan.inputs.length) (fun i s =>
        if i ∈ (nd.chunkRec 0).added then s
        else match wholeRecord nd.plan nd.now_ i with
          | some l => takeRecord d f id i l (decide (i ∈ nd.now_.faults)) s
          | none => s)
  | none => s

/-- Complete what can be completed, and close the round when it is done. -/
def settleOnce (d f id : Nat) (s : State) : State :=
  match s.node d f id with
  | none => s
  | some nd =>
    if nd.openedAt.isNone then s
    else
      let s := settleChunks d f id nd.plan.chunks (takeSmall d f id (declareSpan d f id s))
      match s.node d f id with
      | some nd => if roundDone s nd then advanceRound d f id s else s
      | none => s

/-- After anything has changed in a node; a round that closes may let the next one complete at once. -/
def settleNode (d f id : Nat) (s : State) : State := settleOnce d f id (settleOnce d f id s)

/-- Every incomplete chunk closes as poisoned, what is held is discarded, and every result not yet sent becomes a notice
(R290, R404). -/
def closePoisoned (d f id : Nat) (s : State) : State :=
  match s.node d f id with
  | none => s
  | some nd =>
    if nd.openedAt.isNone then s
    else
      let s := s.forAll nd.now_.held (fun h s => letGo h.pid s)
      let s := modNode d f id (fun nd => { nd with now_ := { nd.now_ with held := [], finals := List.range nd.plan.inputs.length } }) s
      let s := declareSpan d f id s
      let s := s.forAll nd.openChunks (fun c s => finishChunk d f id c (poisonChunk d f id c false s))
      let s := s.forAll ((List.range nd.plan.targets.length).zip nd.plan.targets) (fun x s =>
        s.forAll (blocksOf nd.plan x.2) (fun e s => sendOnce d f id x.1 e x.2 none s))
      advanceRound d f id s

/-- The first packet of CUR_ROUND that is accepted opens the round; one of the next round opens that when it comes to be current
(R277). -/
def openRound (d f id : Nat) (next : Bool) (s : State) : State :=
  modNode d f id (fun nd =>
    if next then { nd with next_ := { nd.next_ with begun := true } } else { nd with openedAt := some (nd.openedAt.getD s.now) }) s

end Sys2Proof.Machine
end

