-- ==== Sys2Proof/Machine/Winnower.lean ====
section
/-! DEFINITION. The Winnower (R298 to R310): plans, contributions, key order, the six operations, outputs and poisoned
rounds. -/

namespace Sys2Proof.Machine

/-! ## Key order (R306) -/

/-- The 64-bit order code of a key's bit pattern. -/
def orderCode (fmt pat : Nat) (desc : Bool) : Nat :=
  let c := match elemOf fmt with
    | some (.int sg b) => if sg then (ofSigned 64 (intOf true b pat)) ^^^ 2 ^ 63 else pat
    | some e =>
      let f := (fp64.encode true .even false (e.value pat).norm).1
      if f.testBit 63 then 2 ^ 64 - 1 - f else f + 2 ^ 63
    | none => pat
  if desc then 2 ^ 64 - 1 - c else c

/-- Lexicographic order of two records of naturals. -/
def lexLt : List Nat → List Nat → Bool
  | [], _ => false
  | _, [] => false
  | a :: l, b :: m => decide (a < b) || (a = b && lexLt l m)

/-- Put a record in its place among ordered ones, after its equals. -/
def insertBy {α : Type} (lt : α → α → Bool) (x : α) : List α → List α
  | [] => [x]
  | y :: l => if lt x y then x :: y :: l else y :: insertBy lt x l

/-- Records in order. -/
def sortBy {α : Type} (lt : α → α → Bool) (l : List α) : List α := l.foldl (fun acc x => insertBy lt x acc) []

def WinnowRec.key (fmt : Nat) (desc : Bool) (r : WinnowRec) : List Nat := [orderCode fmt r.pat desc, r.rank, r.idx]

/-- Records of a stream in the order of R306. -/
def inOrderOf (fmt : Nat) (desc : Bool) (l : List WinnowRec) : List WinnowRec := sortBy (fun a b => lexLt (a.key fmt desc) (b.key fmt desc)) l

/-- Records in input order: ascending (source rank, element index) (R307). -/
def inInputOrder (l : List WinnowRec) : List WinnowRec := sortBy (fun a b => lexLt [a.rank, a.idx] [b.rank, b.idx]) l

/-! ## Plans (R301, R302, R308, R310) -/

/-- The operations that sort by key. -/
def keyOp (op : Nat) : Bool := op = 1 || op = 2 || op = 3 || op = 6

def keyFmt (fmt : Nat) : Bool := decide (1 ≤ fmt ∧ fmt ≤ 6) || decide (0x20 ≤ fmt ∧ fmt ≤ 0x27)

def intFmt (fmt : Nat) : Bool := decide (0x20 ≤ fmt ∧ fmt ≤ 0x27)

/-- A format whose elements have whole bytes: any but the MX formats. -/
def tableFmtOk (fmt : Nat) : Bool := match elemOf fmt with
  | some e => !e.isMx
  | none => false

/-- Format of the plan's output elements, and of a target's. -/
def WinnowPlan.outFmt (p : WinnowPlan) : Nat := if keyOp p.op then p.fmt0 else p.tableFmt

def WinnowPlan.fmtOf (p : WinnowPlan) (t : WinnowTarget) : Nat := if t.kind = 1 then p.outFmt else 0x27

/-- P: elements a packet carries. -/
def WinnowPlan.per (p : WinnowPlan) (t : WinnowTarget) : Nat := 4096 / max (unitBytes (p.fmtOf t) 1) 1

/-- Σ MAX_COUNT, of one stream or of both. -/
def WinnowPlan.maxOf (p : WinnowPlan) (stream : Nat) : Nat := ((p.inputs.filter (fun i => i.stream = stream)).map (·.maxCount)).sum

def WinnowPlan.maxAll (p : WinnowPlan) : Nat := (p.inputs.map (·.maxCount)).sum

/-- OUT_MAX (R308). -/
def WinnowPlan.outMax (p : WinnowPlan) : Nat :=
  match p.op with
  | 2 => p.k
  | 4 => p.maxAll
  | 5 => p.tableLen
  | _ => p.maxOf 0

/-- The least WORK_BYTES (R310). -/
def WinnowPlan.workNeed (p : WinnowPlan) : Nat :=
  match p.op with
  | 2 => 16 * (p.k + 4096)
  | 5 => 32 * p.maxAll
  | _ => 16 * p.maxAll

def WinnowPlan.tableBytes (p : WinnowPlan) : Nat := p.tableLen * unitBytes p.tableFmt 1

def winnowInputAt (l : List Byte) (k : Nat) : WinnowInput :=
  let le (i n : Nat) : Nat := leNat ((l.drop (64 + 16 * k + i)).take n)
  ⟨le 0 3, le 3 1, le 4 4⟩

def winnowTargetAt (l : List Byte) (ni k : Nat) : WinnowTarget :=
  let le (i n : Nat) : Nat := leNat ((l.drop (64 + 16 * ni + 32 * k + i)).take n)
  ⟨le 0 3, le 3 1, le 4 1, le 5 1, le 8 4, le 12 4, le 16 5, le 24 4⟩

/-- The plan that starts a byte string (*Winnower plan header*). -/
def winnowPlanOf (l : List Byte) : WinnowPlan :=
  let b (i : Nat) : Nat := (l.getD i 0).toNat
  let le (i n : Nat) : Nat := leNat ((l.drop i).take n)
  ⟨b 0, b 1, b 2, b 3, b 4, (b 5).testBit 0, b 8, le 16 8, le 24 4, le 28 4, le 32 4, le 36 4, le 40 4, le 44 4,
    (List.range (b 6)).map (winnowInputAt l), (List.range (b 7)).map (winnowTargetAt l (b 6))⟩

/-- Bytes `a` to `b` of a plan are zero. -/
def bytesZero (l : List Byte) (a b : Nat) : Bool := allZero ((l.drop a).take (b + 1 - a))

def winnowFmtsOk (p : WinnowPlan) : Bool :=
  if keyOp p.op then keyFmt p.fmt0 && p.fmt1 = 0 && p.tableFmt = 0
  else if p.op = 4 then intFmt p.fmt0 && p.fmt1 = 0 && tableFmtOk p.tableFmt
  else p.op = 5 && tableFmtOk p.tableFmt && p.fmt0 = p.tableFmt && intFmt p.fmt1

/-- FILTER's predicate and constant, and zero elsewhere where the header says so. -/
def winnowArgsOk (p : WinnowPlan) : Bool :=
  (if p.op = 3 then decide (1 ≤ p.pred ∧ p.pred ≤ (if intFmt p.fmt0 then 8 else 6)) && decide (p.const < 256 ^ unitBytes p.fmt0 1) else p.pred = 0)
    && (if p.op = 2 then decide (1 ≤ p.k ∧ p.k ≤ 4096) else p.k = 0)
    && (if p.op = 4 ∨ p.op = 5 then decide (1 ≤ p.tableLen ∧ p.tableLen ≤ 2 ^ 20) && p.tableOff % max (unitBytes p.tableFmt 1) 1 = 0 else p.tableLen = 0)

def winnowInputOk (p : WinnowPlan) (l : List Byte) (k : Nat) : Bool :=
  match p.inputs[k]? with
  | none => false
  | some x => decide (x.rank < 2 ^ 20) && decide (x.stream ≤ (if p.op = 5 then 1 else 0)) && decide (1 ≤ x.maxCount ∧ x.maxCount ≤ 2 ^ 20) && bytesZero l (72 + 16 * k) (79 + 16 * k)

def winnowTargetOk (p : WinnowPlan) (l : List Byte) (k : Nat) : Bool :=
  let a := 64 + 16 * p.inputs.length + 32 * k
  match p.targets[k]? with
  | none => false
  | some x =>
    decide (x.rank < 2 ^ 20) && decide (1 ≤ x.kind ∧ x.kind ≤ 3) && bytesZero l (a + 6) (a + 7) && bytesZero l (a + 21) (a + 23) && bytesZero l (a + 28) (a + 31)
      && x.offset % 64 = 0 && !(x.kind = 2 && p.op = 5)
      && (if x.kind = 3 then x.first = 0 && x.count = 0 else x.first % p.per x = 0 && decide (x.first + x.count ≤ p.outMax))

/-- The work area and the table lie below 0x1E_0000 and apart. -/
def winnowAreasOk (p : WinnowPlan) : Bool :=
  p.workOff % 64 = 0 && p.workBytes % 64 = 0 && decide (p.workOff + p.workBytes ≤ 0x1E0000 ∧ p.workNeed ≤ p.workBytes)
    && (p.tableLen = 0 || (decide (p.tableOff + p.tableBytes ≤ 0x1E0000) && decide (p.tableOff + p.tableBytes ≤ p.workOff ∨ p.workOff + p.workBytes ≤ p.tableOff)))

/-- R302's refusals with DETAIL 0x02, but for R329's. -/
def winnowPlanOk (l : List Byte) (p : WinnowPlan) : Bool :=
  winnowFmtsOk p && winnowArgsOk p && decide ((l.getD 5 0).toNat < 2) && decide (1 ≤ p.inputs.length ∧ p.inputs.length ≤ 64) && decide (p.targets.length ≤ 16)
    && bytesZero l 9 15 && bytesZero l 48 63 && decide (1 ≤ p.deadlineUs ∧ p.deadlineUs ≤ 1000000)
    && (List.range p.inputs.length).all (winnowInputOk p l) && (List.range p.targets.length).all (winnowTargetOk p l)
    && (p.inputs.map (fun i => (i.rank, i.stream))).dedup = p.inputs.map (fun i => (i.rank, i.stream)) && winnowAreasOk p

/-- A deadline keeps to R329 for the Field's ENGINE owner. -/
def engineFits (s : State) (d slot us : Nat) : Bool :=
  let a := s.fld F.GK_OWNER_TALLY_AGE_US [d, 32 + slot]
  a = 0 || decide (2 * us + 2 * s.fld F.NI_AGE_LIMIT_US ≤ a)

/-- Jobs of a Field on a die's slice (WN_GRANT.JOBS_USED). -/
def jobsUsed (s : State) (d f : Nat) : Nat :=
  (s.engine.jobs.filter (fun e => e.1.head? = some f && (match e.2 with
    | some j => j.die = d
    | none => false))).length

def winnowDefine (d t : Nat) (w : List Byte) (s : State) : Except Nat (List Nat × State) :=
  let at_ := arg w 0
  if at_ % 64 ≠ 0 ∨ tileSize < at_ + 64 ∨ !argsZero w 1 then .error 0x02
  else
    let h := s.readMem d t at_ 64
    let len := 64 + 16 * (h.getD 6 0).toNat + 32 * (h.getD 7 0).toNat
    if tileSize < at_ + len then .error 0x02
    else
      let l := s.readMem d t at_ len
      let p := winnowPlanOf l
      match s.tileSlot d t with
      | none => .error 0x03
      | some slot =>
        let f := (s.tileField d t).getD 0
        if !winnowPlanOk l p || !engineFits s d slot p.deadlineUs then .error 0x02
        else if (s.job f p.job).isSome ∨ s.fld F.WN_GRANT_JOBS [d, slot] ≤ jobsUsed s d f then .error 0x03
        else .ok ([], s.setJob f p.job (some { die := d, tile := t, rank := (s.tileRank d t).getD 0, plan := p }))

def execWinnowDefine (d t : Nat) (s : State) : Result := run (.winnowDefine d t) s (routine d t 0x0020 0 (winnowDefine d t) s)

/-- The job a routine of tile `t` names: one anchored on it. -/
def ownJob (s : State) (d t j : Nat) : Option (Nat × WinnowJob) :=
  let f := (s.tileField d t).getD 0
  ((s.job f j).filter (fun x => x.die = d && x.tile = t)).map (fun x => (f, x))

def winnowUndefine (d t : Nat) (w : List Byte) (s : State) : Except Nat (List Nat × State) :=
  if 256 ≤ arg w 0 ∨ !argsZero w 1 then .error 0x02
  else match ownJob s d t (arg w 0) with
    | none => .error 0x02
    | some (f, x) => if x.openedAt.isSome then .error 0x03 else .ok ([], removeJob f (arg w 0) s)

def execWinnowUndefine (d t : Nat) (s : State) : Result := run (.winnowUndefine d t) s (routine d t 0x0021 0 (winnowUndefine d t) s)

def winnowQuery (d t : Nat) (w : List Byte) (s : State) : Except Nat (List Nat × State) :=
  if 256 ≤ arg w 0 ∨ !argsZero w 1 then .error 0x02
  else match ownJob s d t (arg w 0) with
    | none => .error 0x02
    | some (_, x) => .ok ([x.cur + 16 * b2n x.openedAt.isSome + 32 * b2n x.now_.poisoned, x.recs.length], s)

def execWinnowQuery (d t : Nat) (s : State) : Result := run (.winnowQuery d t) s (routine d t 0x0022 2 (winnowQuery d t) s)

/-! ## Rounds (R304, R305) -/

def modJob (f j : Nat) (g : WinnowJob → WinnowJob) (s : State) : State :=
  match s.job f j with
  | some x => s.setJob f j (some (g x))
  | none => s

/-- The first packet of CUR_ROUND opens the round; what the table holds then is what a program must leave alone (R305, R310). -/
def openJob (f j : Nat) (s : State) : State :=
  match s.job f j with
  | some x =>
    if x.openedAt.isSome then s
    else s.setJob f j (some { x with openedAt := some s.now, table := s.readMem x.die x.tile x.plan.tableOff x.plan.tableBytes })
  | none => s

/-- The bytes of a work-area record. -/
def workBytesOf (r : WinnowRec) : List Byte := leBytes 8 r.pat ++ leBytes 4 r.rank ++ leBytes 4 r.idx

/-- Records `i` on that the work area has room for, from its offset. -/
def workFill (p : WinnowPlan) (l : List WinnowRec) (i : Nat) : List (Nat × WinnowRec) :=
  (((List.range l.length).zip l).map (fun x => (p.workOff + 16 * (i + x.1), x.2))).filter (fun x => decide (x.1 + 16 ≤ p.workOff + p.workBytes))

/-- Stream, NELEM and LAST of a WINNOW_IN, and the elements it carries. -/
def winStream (q : Packet) : Nat := q.offset % 4
def winLast (q : Packet) : Bool := q.offset.testBit 2
def winNelem (q : Packet) : Nat := q.offset / 65536 % 65536

def winRecords (q : Packet) : List WinnowRec :=
  let size := unitBytes q.elemFormat 1
  (List.range (winNelem q)).map (fun i => ⟨winStream q, leNat ((q.data.drop (size * i)).take size), q.h.srcRank, q.elemBase % 2 ^ 28 + i⟩)

/-- A packet of the open round is taken into the work area. -/
def winnowTake (f j pid : Nat) (s : State) : State :=
  match s.job f j, s.pkt pid with
  | some x, some k =>
    let l := winRecords k.p
    let s := s.forAll (workFill x.plan l x.recs.length) (fun e s => s.writeMem x.die x.tile e.1 (workBytesOf e.2))
    letGo pid (s.setJob f j (some { x with recs := x.recs ++ l }))
  | _, _ => s

/-- CUR_ROUND advances, and what has been accepted of the next round is taken up. -/
def advanceJob (f j : Nat) (s : State) : State :=
  match s.job f j with
  | none => s
  | some x =>
    let held := x.next_.held
    let begun := x.next_.recv ≠ [] || x.next_.ends ≠ [] || x.next_.poisoned
    let s := s.forAll x.now_.held letGo
    let s := s.setJob f j (some { x with cur := (x.cur + 1) % 16, now_ := { x.next_ with held := [] }, next_ := {}, openedAt := none, recs := [], table := [] })
    s.forAll held (winnowTake f j) |> fun s => if begun then openJob f j s else s

/-- The first two rows of R303 and R304 that a packet must pass: its input. -/
def winInput (p : WinnowPlan) (q : Packet) : Option Nat :=
  let st := winStream q
  let n := winNelem q
  let e := q.elemBase % 2 ^ 28
  let fmt := if st = 0 then p.fmt0 else p.fmt1
  match p.inputs.findIdx? (fun i => i.rank = q.h.srcRank && i.stream = st) with
  | none => none
  | some i =>
    match p.inputs[i]? with
    | none => none
    | some x =>
      if q.offset / 8 % 8192 = 0 ∧ q.offset / 2 ^ 32 = 0 ∧ q.waybillRef = noRef ∧ q.elemFormat = fmt ∧ e % 64 = 0 ∧ (winLast q ∨ n % 64 = 0)
          ∧ n * unitBytes fmt 1 ≤ q.h.units * 64 ∧ (n = 0 ∨ e + n ≤ x.maxCount) then some i else none

/-- Every input has recorded its end and received every block below it. -/
def inputComplete (x : WinnowJob) : Bool :=
  (List.range x.plan.inputs.length).all (fun i =>
    match tabGet 0 x.now_.ends [i] with
    | 0 => false
    | e + 1 => (List.range ((e + 63) / 64)).all (fun b => tabGet 0 x.now_.recv [i, b] = 1))

/-- A fenced Field's engines take nothing (R404); a packet that names no job of its die, or not its anchor, is MALFORMED
(R298). -/
def atJob (k : Pkt) (j : Nat) (f : WinnowJob → State → State) (s : State) : State :=
  ownedThen k (fun s =>
    if s.fieldFenced k.p.h.field then s.bump F.GK_DROP_FENCED [k.die]
    else match s.job k.p.h.field j with
      | some x => if x.die = k.die ∧ x.tile = k.dstTile then f x s else refuse k.die 2048 k.p 4 0 (.engine k.die) s
      | none => refuse k.die 2048 k.p 4 0 (.engine k.die) s) s

/-- WINNOW_IN: *Winnower contribution outcomes* (R304). -/
def winnowIn (k : Pkt) (pid : Nat) (s : State) : State :=
  let q := k.p
  let d := k.die
  let j := q.window
  let f := q.h.field
  atJob k j (fun x s =>
    let bad (s : State) : State := refuse d 2048 q 4 0 (.engine d) s
    let ack (s : State) : State := sendAck d 2048 q (.engine d) s
    match winInput x.plan q with
    | none => bad s
    | some i =>
      let rd := q.elemBase / 2 ^ 28
      if rd ≠ x.cur ∧ rd ≠ (x.cur + 1) % 16 then ack (s.bump F.WN_STAT_STALE [d])
      else
        let next := decide (rd ≠ x.cur)
        let r := if next then x.next_ else x.now_
        let e := q.elemBase % 2 ^ 28
        let n := winNelem q
        let old := tabGet 0 r.ends [i]
        let bs := (List.range ((n + 63) / 64)).map (fun b => e / 64 + b)
        let has (b : Nat) : Bool := tabGet 0 r.recv [i, b] = 1
        if old ≠ 0 ∧ ((winLast q ∧ e + n + 1 ≠ old) ∨ (n ≠ 0 ∧ old < e + n + 1)) then bad s
        else if bs.all has ∧ !(bs = [] && winLast q && old = 0) then ack (s.bump F.WN_STAT_DUPLICATE [d])
        else if bs.any has then bad s
        else
          let s := noteMark d 2048 q s
          let r' : WinnowRound := { r with recv := bs.foldl (fun t b => tabSet 0 t [i, b] 1) r.recv, ends := if winLast q then tabSet 0 r.ends [i] (e + n + 1) else r.ends, held := if next then r.held ++ [pid] else r.held }
          let s := ack s
          if next then
            let s := modJob f j (fun x => { x with next_ := r' }) s
            match s.pkt pid with
            | some y => s.setPkt pid (some { y with stage := .held })
            | none => s
          else winnowTake f j pid (openJob f j (modJob f j (fun x => { x with now_ := r' }) s))) s

def execWinnowIn (pid : Nat) (s : State) : Result := run (.winnowIn pid) s (receive pid 4 [0x84] (fun k s => winnowIn k pid s) s)

/-! ## The operations (R307) -/

/-- An index, as its format reads it, when it is in range. -/
def tableIndex (fmt len pat : Nat) : Option Nat :=
  match elemOf fmt with
  | some (.int sg b) => let v := intOf sg b pat
                        if 0 ≤ v ∧ v < (len : Int) then some v.toNat else none
  | _ => none

/-- FILTER's predicate. -/
def predHolds (p : WinnowPlan) (pat : Nat) : Bool :=
  let x := orderCode p.fmt0 pat false
  let c := orderCode p.fmt0 p.const false
  match p.pred with
  | 1 => x = c
  | 2 => x ≠ c
  | 3 => decide (x < c)
  | 4 => decide (x ≤ c)
  | 5 => decide (c < x)
  | 6 => decide (c ≤ x)
  | 7 => pat &&& p.const ≠ 0
  | _ => pat &&& p.const = 0

/-- The codes of every MERGE input rise with its index. -/
def mergeOrdered (p : WinnowPlan) (l : List WinnowRec) : Bool :=
  p.inputs.all (fun i =>
    let c := (inInputOrder (l.filter (fun r => r.rank = i.rank))).map (fun r => orderCode p.fmt0 r.pat p.desc)
    (c.zip (c.drop 1)).all (fun x => decide (x.1 ≤ x.2)))

/-- What a round yields: element patterns, the (rank, index) of each, indices out of range, unpaired elements. -/
structure WinnowOut where
  vals : List Nat
  tags : List (Nat × Nat) := []
  outside : Nat := 0
  unpaired : Nat := 0
  deriving DecidableEq, Repr

def tagsOf (l : List WinnowRec) : List (Nat × Nat) := l.map (fun r => (r.rank, r.idx))

/-- The elements of a table's bytes. -/
def tableElems (p : WinnowPlan) (l : List Byte) : List Nat :=
  let z := unitBytes p.tableFmt 1
  (List.range p.tableLen).map (fun i => leNat ((l.drop (z * i)).take z))

/-- SCATTER: pairs of one (rank, index), the last in input order standing. -/
def scatter (p : WinnowPlan) (l : List WinnowRec) (table : List Nat) : WinnowOut :=
  let vals := inInputOrder (l.filter (fun r => r.stream = 0))
  let idxs := l.filter (fun r => r.stream = 1)
  let mate (r : WinnowRec) : Option WinnowRec := idxs.find? (fun i => i.rank = r.rank && i.idx = r.idx)
  let lone := (vals.filter (fun r => (mate r).isNone)).length + (idxs.filter (fun i => !vals.any (fun r => r.rank = i.rank && r.idx = i.idx))).length
  let pairs := vals.filterMap (fun r => (mate r).map (fun i => (tableIndex p.fmt1 p.tableLen i.pat, r.pat)))
  let out := (pairs.filter (fun x => x.1.isNone)).length
  ⟨pairs.foldl (fun t x => match x.1 with
    | some i => t.set i x.2
    | none => t) table, [], out, lone⟩

/-- Outputs as a tensor operation writes them (R202, R203). -/
def WinnowOut.tidy (p : WinnowPlan) (o : WinnowOut) : WinnowOut :=
  match elemOf p.outFmt with
  | some e => { o with vals := o.vals.map e.tidy }
  | none => o

/-- The output elements of a complete input. -/
def winnowResult (p : WinnowPlan) (l : List WinnowRec) (table : List Nat) : WinnowOut :=
  let sorted := inOrderOf p.fmt0 p.desc l
  let of_ (l : List WinnowRec) : WinnowOut := { vals := l.map (·.pat), tags := tagsOf l }
  match p.op with
  | 2 => of_ (sorted.take p.k)
  | 3 => of_ (inInputOrder (l.filter (fun r => predHolds p r.pat)))
  | 4 =>
    let l := inInputOrder l
    let ix := l.map (fun r => tableIndex p.fmt0 p.tableLen r.pat)
    { vals := ix.map (fun i => match i with
        | some n => table.getD n 0
        | none => 0), tags := tagsOf l, outside := (ix.filter (·.isNone)).length }
  | 5 => scatter p l table
  | _ => of_ sorted

/-! ## Outputs and poisoned rounds (R308, R309) -/

/-- First elements of a target's packets; a COUNT target has one, of 32 elements. -/
def winBlocks (p : WinnowPlan) (t : WinnowTarget) : List (Nat × Nat) :=
  if t.kind = 3 then [(0, 32)]
  else (List.range ((t.count + p.per t - 1) / p.per t)).map (fun i => (t.first + i * p.per t, min (p.per t) (t.count - i * p.per t)))

/-- A packet of a job: it takes a tag of its anchor tile (R308). -/
def jobSend (f : Nat) (x : WinnowJob) (t : WinnowTarget) (typ cls units : Nat) (body data : List Byte) (handoff : Bool) (s : State) : State :=
  let h := { reqHdr s x.die x.tile typ cls units f t.rank with roleEpoch := t.epoch }
  submit x.die x.tile { p := { h := h, body := body, data := data }, issuer := .engine 2 x.die x.plan.job t.rank, handoff := handoff, input := .engine x.die } s

/-- The WINNOW_OUT of one block. -/
def sendOut (f : Nat) (x : WinnowJob) (t : WinnowTarget) (o : WinnowOut) (e n : Nat) (s : State) : State :=
  let p := x.plan
  let z := unitBytes (p.fmtOf t) 1
  let val (i : Nat) : Nat :=
    match t.kind with
    | 1 => o.vals.getD i 0
    | 2 => match o.tags[i]? with
      | some (r, k) => r * 2 ^ 32 + k
      | none => 0
    | _ => [o.vals.length, 0, o.outside, o.unpaired].getD i 0
  let l := (List.range n).flatMap (fun i => leBytes z (val (e + i)))
  let pay := padTo (max 256 ((l.length + 63) / 64 * 64)) l
  jobSend f x t 0x85 1 (pay.length / 64) (dataBody t.window (t.offset + (e - t.first) * z) t.ref 0 (p.fmtOf t) (x.cur * 2 ^ 28 + e) 0 0 0) pay false s

/-- The notice in place of each packet due. -/
def sendPoisons (f : Nat) (x : WinnowJob) (s : State) : State :=
  s.forAll x.plan.targets (fun t s => s.forAll (winBlocks x.plan t) (fun b s =>
    jobSend f x t 0x07 0 0 (poisonBody x.cur x.plan.job b.1 b.2 t.ref 1) [] true s))

/-- A round closes poisoned: counted, reported, and told to every target. -/
def poisonJob (f j : Nat) (own : Bool) (s : State) : State :=
  match s.job f j with
  | none => s
  | some x =>
    let s := s.bump F.WN_STAT_POISONED_ROUNDS [x.die]
    let s := if own then s.bump F.WN_STATUS_RESIDUE_FAILS [x.die] else s
    let s := s.report ⟨2, !own, [31, x.die], x.die, x.die, f, none, false, 0x06, 0x04, true, beBytes 2 j⟩
    advanceJob f j (sendPoisons f x s)

/-- The work area and the table read back as the job left them. -/
def workIntact (s : State) (x : WinnowJob) : Bool :=
  (workFill x.plan x.recs 0).all (fun e => s.readMem x.die x.tile e.1 16 = workBytesOf e.2)
    && s.readMem x.die x.tile x.plan.tableOff x.plan.tableBytes = x.table

/-- WINNOW_ROUND_PROCESS: outputs of a complete input, or notices; a round already poisoned closes at once. -/
def winnowProcess (f j : Nat) (fault : Bool) (s : State) : State :=
  match s.job f j with
  | none => s
  | some x =>
    if x.openedAt.isNone ∨ !(inputComplete x || x.now_.poisoned) ∨ s.fieldFenced f then s
    else if fault then poisonJob f j true s
    else if x.now_.poisoned ∨ !workIntact s x ∨ (x.plan.op = 6 ∧ !mergeOrdered x.plan x.recs) then poisonJob f j false s
    else
      let o := (winnowResult x.plan x.recs (tableElems x.plan x.table)).tidy x.plan
      let s := if x.plan.op = 5 then s.writeMem x.die x.tile x.plan.tableOff (o.vals.flatMap (leBytes (unitBytes x.plan.tableFmt 1))) else s
      advanceJob f j (s.forAll x.plan.targets (fun t s => s.forAll (winBlocks x.plan t) (fun b s => sendOut f x t o b.1 b.2 s)))

def execWinnowRoundProcess (f j : Nat) (fault : Bool) (s : State) : Result :=
  run (.winnowRoundProcess f j fault) s (winnowProcess f j fault s)

/-- WINNOW_DEADLINE. -/
def winnowDeadline (f j : Nat) (s : State) : State :=
  match s.job f j with
  | some x =>
    match x.openedAt with
    | some m =>
      if m + usUnits x.plan.deadlineUs ≤ s.now ∧ !inputComplete x then
        poisonJob f j false (s.log 0x0E 0x04 x.die (beBytes 2 j ++ beBytes 3 x.rank) f)
      else s
    | none => s
  | none => s

def execWinnowDeadline (f j : Nat) (s : State) : Result := run (.winnowDeadline f j) s (winnowDeadline f j s)

/-- An open round closes poisoned in a fence's hand-off (R404). -/
def closeJob (f j : Nat) (s : State) : State :=
  match s.job f j with
  | some x => if x.openedAt.isSome then poisonJob f j false s else s
  | none => s

end Sys2Proof.Machine
end

