-- ==== Sys2Proof/Machine/Gleaner.lean ====
section
/-! DEFINITION. The Gleaner (R312 to R329): contexts, Bales, queries, the attention procedure and its tree, results. -/

namespace Sys2Proof.Machine

/-! ## The attention procedure (R321 to R324) -/

/-- rn32() of a value in IEEE mode; rn to another format; a value as its FP32 bits. -/
def rn32 (v : Num) : Num := fp32.decode (fp32.encode true .even false v).1
def rnBf16 (v : Num) : Num := bf16.decode (bf16.encode true .even false v).1
def bits32 (v : Num) : Nat := (fp32.encode true .even false v).1

/-- exp2 of R222 on FP32 values. -/
def exp2Num (v : Num) : Num := fp32.decode (expFn false true v)

/-- dot(): the rule of R211 over the dimensions; group_sum(): the same over positions. -/
def dot (a b : List Num) : Num := dotFlt fp32 false .zero (a.zip b)
def groupSum32 (l : List Num) : Num := dotFlt fp32 false .zero (l.map (fun x => (x, Num.ofInt 1)))

/-- The greater of two values in the order of R204. -/
def maxNum (a b : Num) : Num := if a.lt b then b else a

/-- What a query asks: H, OUT_FORMAT, QFLAGS, window, offset, START, LIMIT, SCALE_L2 (*Query descriptor*). -/
structure GlAsk where
  heads : Nat
  out : Nat
  flags : Nat
  window : Nat
  offset : Nat
  start : Nat
  limit : Nat
  scale : Nat
  deriving DecidableEq, Repr

/-- The descriptor at the start of a payload. -/
def askOf (l : List Byte) : GlAsk :=
  let be (i n : Nat) : Nat := beNat ((l.drop i).take n)
  ⟨be 0 1, be 1 1, be 2 1, be 3 1, be 4 5, be 12 4, be 16 4, be 20 4⟩

/-- R319's ranges, for descriptor or template. -/
def askOk (a : GlAsk) (nBales : Nat) : Bool :=
  decide (1 ≤ a.heads ∧ a.heads ≤ 16) && decide (2 ≤ a.out ∧ a.out ≤ 4) && decide (a.flags < 8) && a.offset % 64 = 0
    && decide (a.start < a.limit ∧ a.limit ≤ 256 * nBales)

/-- R of R319. -/
def GlAsk.units (a : GlAsk) (d : Nat) : Nat := resultUnits a.heads d (unitBytes a.out 1)

/-- Position `p` of Bale `b` is valid. -/
def GlAsk.valid (a : GlAsk) (b p : Nat) : Bool := decide (a.start ≤ 256 * b + p ∧ 256 * b + p < a.limit)

/-- Bales that meet [START, LIMIT). -/
def GlAsk.bales (a : GlAsk) : List Nat := (List.range ((a.limit + 255) / 256 - a.start / 256)).map (fun i => a.start / 256 + i)

/-- The elements of head `h` of a query. -/
def headOf (p : Packet) (d h : Nat) : List Num :=
  match elemOf p.elemFormat with
  | some e => (List.range d).map (fun j => e.read (fun i => p.data.getD (64 + i) 0) (h * d + j))
  | none => []

/-- A byte of a Bale's image. -/
def baleByte (s : State) (c : GlCtx) (b i : Nat) : Byte :=
  match c.baleAt b with
  | some (d, t, o) => s.memByte d t (o + i)
  | none => 0

/-- Row `p` of K (`part` 0) or of V (`part` 1). -/
def baleRow (s : State) (c : GlCtx) (b part p : Nat) : List Num :=
  match elemOf c.kvFmt with
  | some e => (List.range c.d).map (fun j => e.read (fun i => baleByte s c b (part * c.partBytes + i)) (p * c.d + j))
  | none => []

def summaryOf (s : State) (c : GlCtx) (b : Nat) : List Num :=
  (List.range c.d).map (fun j => bf16.decode ((baleByte s c b (2 * c.partBytes + 2 * j)).toNat + 256 * (baleByte s c b (2 * c.partBytes + 2 * j + 1)).toNat))

/-- The partial of one head on one Bale. -/
def balePart (s : State) (c : GlCtx) (a : GlAsk) (q : List Num) (b : Nat) : GlPart :=
  let ps := (List.range 256).filter (a.valid b)
  let ts := ps.map (fun p => rn32 ((dot q (baleRow s c b 0 p)).mul (fp32.decode a.scale)))
  match ts with
  | [] => .empty
  | t0 :: rest =>
    if ts.any (fun t => t.isNan || t.isInf) then .special
    else
      let m := rest.foldl maxNum t0
      let ws := ts.map (fun t => rnBf16 (exp2Num (rn32 (t.add m.minus))))
      let full := (List.range 256).map (fun p => match ps.findIdx? (· = p) with
        | some i => ws.getD i .zero
        | none => .zero)
      let vs := (List.range 256).map (fun p => baleRow s c b 1 p)
      .val (bits32 m) (bits32 (groupSum32 full)) ((List.range c.d).map (fun j => bits32 (dot full (vs.map (fun v => v.getD j .zero)))))

/-- combine() of R323, `a` covering the lower tiles or slots. -/
def combine (a b : GlPart) : GlPart :=
  match a, b with
  | .empty, b => b
  | a, .empty => a
  | .val m1 l1 o1, .val m2 l2 o2 =>
    let x := fp32.decode m1
    let y := fp32.decode m2
    let m := maxNum x y
    let fa := exp2Num (rn32 (x.add m.minus))
    let fb := exp2Num (rn32 (y.add m.minus))
    let mix (u v : Nat) : Nat := bits32 ((rn32 ((fp32.decode u).mul fa)).add (rn32 ((fp32.decode v).mul fb)))
    .val (bits32 m) (mix l1 l2) ((o1.zip o2).map (fun z => mix z.1 z.2))
  | _, _ => .special

/-- One level of the tree. -/
def combinePairs : List GlPart → List GlPart
  | a :: b :: l => combine a b :: combinePairs l
  | l => l

/-- The tree over tile numbers, padded with empty partials to a power of two: an odd partial at a level's end meets an empty
one. -/
def combineTree : Nat → List GlPart → GlPart
  | 0, l => l.headD .empty
  | n + 1, l => combineTree n (combinePairs l)

/-- A tile folds its selected Bales in ascending slot order. -/
def tilePart (s : State) (c : GlCtx) (a : GlAsk) (q : List Num) (bs : List Nat) : GlPart :=
  bs.foldl (fun acc b => combine acc (balePart s c a q b)) .empty

/-! ## Selection (R321) -/

/-- The selection score of a Bale. -/
def scoreOf (s : State) (c : GlCtx) (a : GlAsk) (heads : List (List Num)) (b : Nat) : Num :=
  let us := heads.map (fun q => rn32 ((dot q (summaryOf s c b)).mul (fp32.decode a.scale)))
  us.foldl maxNum (us.headD .zero)

/-- The Bales that a query uses: forced ones first, then the greatest scores, the lower index first among equals. -/
def selectBales (s : State) (c : GlCtx) (a : GlAsk) (heads : List (List Num)) : List Nat :=
  let all := a.bales
  if !a.flags.testBit 0 ∨ all.length ≤ c.selectK then all
  else
    let forced := ((if a.flags.testBit 1 then [a.start / 256] else []) ++ (if a.flags.testBit 2 then [(a.limit - 1) / 256] else [])).dedup
    let forced := forced.take c.selectK
    let scored := (all.filter (fun b => b ∉ forced)).map (fun b => (b, scoreOf s c a heads b))
    let ranked := sortBy (fun (x y : Nat × Num) => y.2.lt x.2) scored
    let picked := forced ++ (ranked.map (·.1)).take (c.selectK - forced.length)
    all.filter (fun b => b ∈ picked)

/-! ## Contexts (R312 to R314) -/

/-- The context that a descriptor's bytes give a tile. -/
def ctxOf (f d t rank : Nat) (l : List Byte) : GlCtx :=
  let b (i : Nat) : Nat := (l.getD i 0).toNat
  let le (i n : Nat) : Nat := leNat ((l.drop i).take n)
  { field := f, die := d, tile := t, rank := rank, kvFmt := b 2, d := 64 * b 3, nBales := le 4 2, base := le 8 4, selectK := le 12 2, deadlineUs := le 16 4, template := (l.drop 20).take 44, extents := (List.range (b 6)).map (fun k => (b (64 + 8 * k), b (65 + 8 * k), b (66 + 8 * k))) }

/-- The template as a descriptor (little-endian, R313). -/
def templateAsk (t : List Byte) : GlAsk :=
  let le (i n : Nat) : Nat := leNat ((t.drop i).take n)
  ⟨le 0 1, le 1 1, le 2 1, le 3 1, le 4 5, le 12 4, le 16 4, le 20 4⟩

/-- R314's refusals with DETAIL 0x02, but for R329's. -/
def ctxOk (s : State) (c : GlCtx) (l : List Byte) : Bool :=
  let a := templateAsk c.template
  decide (leNat (l.take 2) < 4096) && (c.kvFmt = 0x10 || decide (0x12 ≤ c.kvFmt ∧ c.kvFmt ≤ 0x14)) && (c.d = 64 || c.d = 128 || c.d = 256)
    && decide (1 ≤ c.nBales ∧ c.nBales ≤ 32768) && decide (1 ≤ c.extents.length ∧ c.extents.length ≤ 8) && bytesZero l 7 7 && bytesZero l 14 15 && c.base % 64 = 0
    && decide (c.selectK ≤ 4096 ∧ c.selectK ≤ c.nBales) && decide (1 ≤ c.deadlineUs ∧ c.deadlineUs ≤ 1000000)
    && (List.range c.extents.length).all (fun k => bytesZero l (67 + 8 * k) (71 + 8 * k))
    && c.extents.all (fun e => decide (e.1 < 8 ∧ 1 ≤ e.2.2 ∧ e.2.2 ≤ 32 ∧ e.2.1 + e.2.2 ≤ s.rowsPerDie))
    && decide (c.base + (c.nBales + c.nt - 1) / max c.nt 1 * c.baleBytes ≤ 0x1E0000)
    && askOk a c.nBales && bytesZero c.template 9 11 && bytesZero c.template 24 27 && bytesZero c.template 32 43 && decide (a.units c.d ≤ 128)

/-- The rows of a context's extents. -/
def GlCtx.rows (c : GlCtx) : List (Nat × Nat) := c.extents.flatMap (fun e => (List.range e.2.2).map (fun r => (e.1, e.2.1 + r)))

/-- An address of tile memory lies in a Bale of the context. -/
def inBales (c : GlCtx) (a : Nat) : Bool :=
  let tile := a / tileSize
  let off := a % tileSize
  c.holds (tile / 2048) (tile % 2048) &&
    (List.range c.nt).any (fun k => c.tileAt k = some (tile / 2048, tile % 2048) && decide (c.base ≤ off ∧ off < c.base + (c.nBales + c.nt - 1 - k) / max c.nt 1 * c.baleBytes))

/-- All Bales of a context are zero (R312). -/
def zeroBales (c : GlCtx) (s : State) : State := { s with mem := s.mem.filter (fun e => !inBales c e.1) }

/-- Contexts homed on a die. -/
def homedOn (s : State) (d : Nat) : List GlCtx := s.engine.ctxs.filterMap (fun e => e.2.filter (fun c => c.die = d))

def glDefine (d t : Nat) (w : List Byte) (s : State) : Except Nat (List Nat × State) :=
  let at_ := arg w 0
  if at_ % 64 ≠ 0 ∨ tileSize < at_ + 64 ∨ !argsZero w 1 then .error 0x02
  else
    let len := 64 + 8 * ((s.readMem d t at_ 64).getD 6 0).toNat
    if tileSize < at_ + len then .error 0x02
    else
      let l := s.readMem d t at_ len
      match s.tileSlot d t with
      | none => .error 0x03
      | some slot =>
        let c := ctxOf ((s.tileField d t).getD 0) d t ((s.tileRank d t).getD 0) l
        let no := leNat (l.take 2)
        if !ctxOk s c l || !engineFits s d slot c.deadlineUs then .error 0x02
        else if no < s.fld F.GL_GRANT_CTX_BASE [slot] ∨ s.fld F.GL_GRANT_CTX_BASE [slot] + s.fld F.GL_GRANT_CTX_COUNT [slot] ≤ no ∨ (s.ctx no).isSome
            ∨ 512 ≤ (homedOn s d).length ∨ c.rows.any (fun r => s.rowOwner1 r.1 r.2 ≠ some slot) ∨ c.rows.dedup ≠ c.rows
        then .error 0x03
        else .ok ([], (zeroBales c s).setCtx no (some c))

def execGlDefine (d t : Nat) (s : State) : Result := run (.glDefine d t) s (routine d t 0x0030 0 (glDefine d t) s)

def glUndefine (d t : Nat) (w : List Byte) (s : State) : Except Nat (List Nat × State) :=
  if 4096 ≤ arg w 0 ∨ !argsZero w 1 then .error 0x02
  else match (s.ctx (arg w 0)).filter (fun c => c.die = d && c.tile = t) with
    | none => .error 0x02
    | some c => if c.queries ≠ [] then .error 0x03 else .ok ([], s.setCtx (arg w 0) none)

def execGlUndefine (d t : Nat) (s : State) : Result := run (.glUndefine d t) s (routine d t 0x0031 0 (glUndefine d t) s)

def glStatus (d t : Nat) (w : List Byte) (s : State) : Except Nat (List Nat × State) :=
  if 4096 ≤ arg w 0 ∨ !argsZero w 1 then .error 0x02
  else match (s.ctx (arg w 0)).filter (fun c => some c.field = s.tileField d t) with
    | none => .error 0x02
    | some c =>
      let waiting := (c.queries.filter (fun q => !q.started)).length
      .ok ([b2n c.lost + 2 * b2n (c.queries.any (·.started)) + 256 * min waiting 255, c.completed], s)

def execGlStatus (d t : Nat) (s : State) : Result := run (.glStatus d t) s (routine d t 0x0032 2 (glStatus d t) s)

/-! ## Bales (R317, R318) -/

/-- GLEAN_KV: the holding tile NI commits the packet and acknowledges it. -/
def gleanKv (k : Pkt) (s : State) : State :=
  let d := k.die
  let t := k.dstTile
  ownedThen k (fun s =>
    match kvPlace s k.p with
    | some (_, _, off, l) =>
      if s.aged k.p.h then noteMark d t k.p (s.bump F.NI_DROP_A_AGED [d])
      else sendAck d t k.p (.tile d t) (commit d t off l s)
    | none => refuse d t k.p 4 0 (.tile d t) s) s

def execGleanKv (pid : Nat) (s : State) : Result := run (.gleanKv pid) s (receive pid 2 [0x88] gleanKv s)

/-! ## Queries (R319, R320, R327) -/

/-- The home slice's checks of a query. -/
def queryOk (c : GlCtx) (p : Packet) : Bool :=
  let a := askOf p.data
  let sq := unitBytes p.elemFormat 1
  askOk a c.nBales && allZero ((p.data.drop 9).take 3) && allZero ((p.data.drop 24).take 8) && allZero ((p.data.drop 32).take 32) && p.h.roleEpoch = 0
    && decide (3 ≤ p.elemFormat ∧ p.elemFormat ≤ 6) && decide (a.units c.d ≤ 128) && p.h.units = max 4 (1 + (a.heads * c.d * sq + 63) / 64)
    && (!a.flags.testBit 0 || c.selectK ≠ 0)

/-- GLEAN_QUERY: accepted and held, or refused. -/
def gleanQuery (k : Pkt) (pid : Nat) (s : State) : State :=
  let p := k.p
  let d := k.die
  let bad (s : State) : State := refuse d 2048 p 4 0 (.engine d) s
  if s.fieldFenced p.h.field then s.bump F.GK_DROP_FENCED [d]
  else match (s.ctx p.glContext).filter (fun c => c.field = p.h.field && c.die = d && c.tile = k.dstTile) with
    | none => bad s
    | some c =>
      if !queryOk c p then bad s
      else
        let s := noteMark d 2048 p s
        let s := match s.pkt pid with
          | some y => s.setPkt pid (some { y with stage := .held })
          | none => s
        s.setCtx p.glContext (some { c with queries := c.queries ++ [{ id := pid, p := p, acceptedAt := s.now }] })

def execGleanQuery (pid : Nat) (s : State) : Result :=
  run (.gleanQuery pid) s (receive pid 4 [0x86] (fun k s => ownedThen k (gleanQuery k pid) s) s)

/-- The queries of the next batch: in acceptance order, at most 64 heads in all. -/
def batchOf : Nat → List GlQuery → List Nat
  | _, [] => []
  | left, q :: l =>
    let h := (askOf q.p.data).heads
    if h ≤ left then q.id :: batchOf (left - h) l else []

/-- The heads of a query. -/
def headsOf (c : GlCtx) (q : GlQuery) : List (List Num) := (List.range (askOf q.p.data).heads).map (headOf q.p c.d)

/-- GLEAN_BATCH_START: no batch of the context runs. -/
def gleanBatchStart (n : Nat) (s : State) : State :=
  match s.ctx n with
  | none => s
  | some c =>
    if c.lost ∨ c.queries.any (·.started) ∨ s.fieldFenced c.field then s
    else
      let ids := batchOf 64 c.queries
      s.setCtx n (some { c with queries := c.queries.map (fun q => if q.id ∈ ids then { q with started := true, bales := selectBales s c (askOf q.p.data) (headsOf c q) } else q) })

def execGleanBatchStart (n : Nat) (s : State) : Result := run (.gleanBatchStart n) s (gleanBatchStart n s)

/-- The Bales of a query that tile number `t` holds, in slot order. -/
def balesOn (c : GlCtx) (q : GlQuery) (t : Nat) : List Nat := q.bales.filter (fun b => b % max c.nt 1 = t)

/-- A change to one query of a context. -/
def modQuery (n id : Nat) (g : GlQuery → GlQuery) (s : State) : State :=
  match s.ctx n with
  | some c => s.setCtx n (some { c with queries := c.queries.map (fun q => if q.id = id then g q else q) })
  | none => s

/-- A checker failed in a task of a query (R326). -/
def poisonQuery (n id : Nat) (own : Bool) (s : State) : State :=
  match s.ctx n with
  | none => s
  | some c =>
    let s := if own then s.bump F.GL_STATUS_RESIDUE_FAILS [c.die] else s
    let s := s.report ⟨2, !own, [32, c.die], c.die, c.die, c.field, none, false, 0x06, 0x05, true, beBytes 2 n⟩
    modQuery n id (fun q => { q with poisoned := true }) s

/-- The context and query a task belongs to, while its batch runs. -/
def liveQuery (s : State) (n id : Nat) : Option (GlCtx × GlQuery) :=
  match s.ctx n with
  | none => none
  | some c => (c.queries.find? (fun q => q.id = id && q.started)).map (fun q => (c, q))

/-- BALE_TASK_DONE: tile number `t` yields its partial of every head; `fault` where a checker failed in the task. -/
def baleTaskDone (n id t : Nat) (fault : Bool) (s : State) : State :=
  match liveQuery s n id with
  | none => s
  | some (c, q) =>
    if c.lost ∨ balesOn c q t = [] ∨ tabGet [] q.parts [t] ≠ [] then s
    else
      let a := askOf q.p.data
      let parts := (headsOf c q).map (fun h => tilePart s c a h (balesOn c q t))
      let s := modQuery n id (fun q => { q with parts := tabSet [] q.parts [t] parts }) s
      if fault then poisonQuery n id true s else s

def execBaleTaskDone (n id t : Nat) (fault : Bool) (s : State) : Result := run (.baleTaskDone n id t fault) s (baleTaskDone n id t fault s)

/-! ## Results (R324, R326) -/

/-- Every holding tile with a selected Bale has yielded. -/
def allYielded (c : GlCtx) (q : GlQuery) : Bool := q.bales.all (fun b => tabGet [] q.parts [b % max c.nt 1] ≠ [])

/-- The final partial of head `h`. -/
def finalPart (c : GlCtx) (q : GlQuery) (h : Nat) : GlPart :=
  combineTree (c.nt.log2 + 1) ((List.range c.nt).map (fun t => (tabGet [] q.parts [t]).getD h .empty))

/-- Valid positions within the Bales used. -/
def positionsOf (a : GlAsk) (bs : List Nat) : Nat :=
  (bs.map (fun b => min a.limit (256 * b + 256) - max a.start (256 * b))).sum

/-- M, L and the output elements of a head. -/
def headResult (d out : Nat) (x : GlPart) : Nat × Nat × List Nat :=
  let enc (v : Num) : Nat := match elemOf out with
    | some (.flt f) => (f.encode true .even false v).1
    | _ => 0
  match x with
  | .val m l o =>
    let r := fp32.decode (recipFn true (fp32.decode l))
    (m, l, o.map (fun y => enc (rn32 ((fp32.decode y).mul r))))
  | _ => (fp32.canonical, fp32.canonical, List.replicate d (enc .qnan))

/-- The payload of a good result (*Result payload*). -/
def resultPayload (c : GlCtx) (q : GlQuery) (a : GlAsk) : List Byte :=
  let fins := (List.range a.heads).map (finalPart c q)
  let rs := fins.map (headResult c.d a.out)
  let bad := fins.any (fun x => match x with
    | .val _ _ _ => false
    | _ => true)
  let z := unitBytes a.out 1
  padTo 64 ([0, BitVec.ofNat 8 (a.flags % 2 + 2 * b2n bad)] ++ leBytes 2 q.bales.length ++ leBytes 4 (positionsOf a q.bales))
    ++ padTo 64 (rs.flatMap (fun r => leBytes 4 r.1)) ++ padTo 64 (rs.flatMap (fun r => leBytes 4 r.2.1)) ++ rs.flatMap (fun r => r.2.2.flatMap (leBytes z))

/-- The result of a query leaves, and the query is done with. -/
def sendResult (n id st : Nat) (s : State) : State :=
  match s.ctx n with
  | none => s
  | some c =>
    match c.queries.find? (fun q => q.id = id) with
    | none => s
    | some q =>
      let p := q.p
      let a := askOf p.data
      let units := a.units c.d
      let l := if st = 0 then resultPayload c q a else [BitVec.ofNat 8 st, BitVec.ofNat 8 (a.flags % 2)]
      let s := s.bump F.GL_STAT_QUERIES [c.die]
      let s := if st = 1 then s.bump F.GL_STAT_POISONED [c.die] else if st = 3 then s.bump F.GL_STAT_DEADLINES [c.die] else s
      let s := s.setCtx n (some { c with queries := c.queries.filter (fun q => q.id ≠ id), completed := (c.completed + 1) % 2 ^ 64 })
      let k : Packet := { h := { respHdr s p.h 0x87 1 units with tailback := 0 }, body := dataBody a.window a.offset p.waybillRef 0 a.out 0 n 0 0, data := padTo (64 * units) l }
      let handoff := st ≠ 0 && s.fieldFenced c.field
      letGo id (resultOut c.die k handoff s)
where
  /-- A GLEAN_RESULT passes a fence only in its hand-off and with a STATUS other than OK (R404). -/
  resultOut (d : Nat) (p : Packet) (handoff : Bool) (s : State) : State :=
    if handoff then
      match respTranslate s d p.h with
      | none => s.bump F.NI_DROP_B_MALFORMED [d]
      | some h => match launch d { p with h := h } (.engine d) (.engine d 0 4096) true s with
        | .ok s => s
        | .error c => countNak d c s
    else sendResponse d p (.engine d) s

/-- GLEAN_RESULT_FORM: the partials are combined and the result leaves; one that is LOST or POISONED leaves at once. -/
def gleanResultForm (n id : Nat) (s : State) : State :=
  match s.ctx n with
  | none => s
  | some c =>
    match c.queries.find? (fun q => q.id = id) with
    | none => s
    | some q =>
      if c.lost then sendResult n id 2 s
      else if q.poisoned then sendResult n id 1 s
      else if q.started && allYielded c q then sendResult n id 0 s else s

def execGleanResultForm (n id : Nat) (s : State) : Result := run (.gleanResultForm n id) s (gleanResultForm n id s)

/-- GLEAN_DEADLINE. -/
def gleanDeadline (n id : Nat) (s : State) : State :=
  match s.ctx n with
  | none => s
  | some c =>
    match c.queries.find? (fun q => q.id = id) with
    | none => s
    | some q =>
      if q.acceptedAt + usUnits c.deadlineUs ≤ s.now then
        sendResult n id 3 ((s.log 0x0E 0x05 c.die (beBytes 2 n ++ beBytes 3 q.p.h.srcRank) c.field).report
          ⟨2, true, [32, c.die], c.die, c.die, c.field, none, false, 0x06, 0x05, true, beBytes 2 n⟩)
      else s

def execGleanDeadline (n id : Nat) (s : State) : Result := run (.gleanDeadline n id) s (gleanDeadline n id s)

/-- GLEAN_RESULT_RECEIVE (R325). -/
def execGleanResultReceive (pid : Nat) (s : State) : Result := run (.gleanResultReceive pid) s (receive pid 2 [0x87] respond s)

/-- The queries of a context end POISONED in a fence's hand-off (R404). -/
def closeCtx (n : Nat) (s : State) : State :=
  match s.ctx n with
  | none => s
  | some c => s.forAll c.queries (fun q s => sendResult n q.id (if c.lost then 2 else 1) (if c.lost then s else poisonQuery n q.id false s))

end Sys2Proof.Machine
end

