-- ==== Sys2Proof/Machine/Fences.lean ====
section
/-! DEFINITION. Fences and recovery: a Field's fence and its hand-off (R403, R404), a die's fence (R405), fail-silence
(R408, R409), and the sorting of fault reports (R400, R402, R407). -/

namespace Sys2Proof.Machine

/-! ## Rows and Fields -/

/-- The Field number of a slot. -/
def State.slotField (s : State) (n : Nat) : Nat := s.fld F.DV_FIELD_SLOT_FIELD_ID [n]

/-- The logical rows a slot holds, as (die, row). -/
def State.slotRows (s : State) (n : Nat) : List (Nat × Nat) :=
  (s.ni.own1.filter (fun e => e.2 = n + 1)).map (fun e => (e.1.headD 0, e.1.getD 1 0))

/-- The tiles of a row. -/
def rowTiles (x : Nat × Nat) : List (Nat × Nat) := (List.range 64).map (fun c => (x.1, x.2 * 64 + c))

/-- The slots whose state is not free. -/
def State.heldSlots (s : State) : List Nat := (List.range 16).filter (fun n => s.fld F.DV_FIELD_SLOT_STATE [n] ≠ 0)

/-- DETAIL of a RESET event: request kind, target, result, domain fenced. -/
def resetDetail (kind target result fenced : Nat) : List Byte :=
  beBytes 1 kind ++ beBytes 1 target ++ beBytes 1 result ++ beBytes 1 fenced

/-- STATE of SM_STATUS and IN_RECOVERY of every slot follow the faults in recovery (R407). -/
def showRecovery (s : State) : State :=
  let st := s.fld F.SM_STATUS_STATE
  let s := if st = 2 then s else s.setFld F.SM_STATUS_STATE (if s.safe.faults = [] then 0 else 1)
  s.forAll (List.range 16) (fun n s => s.setFld F.SM_FIELD_STATE_IN_RECOVERY (b2n (s.safe.faults.any (fun e => e.1 = [0, n]))) [n])

/-- A domain's recovery ends. -/
def endRecovery (dom : List Nat) (s : State) : State :=
  showRecovery { s with safe := { s.safe with faults := s.safe.faults.filter (fun e => e.1 ≠ dom) } }

/-! ## The hand-off (R404) -/

/-- What the start of a hand-off does on one tile: ready slots finish without running, and a Waybill that the fault named, or that only
waits for its tags, stops at once. -/
def handTile (d t : Nat) (s : State) : State :=
  let s := (s.setReadyQ d t []).setOverQ d t []
  let s := s.forAll [0, 1, 2, 3] (fun u s => s.setIssueQ d t u [])
  s.forAll (s.slotsOf d t) (fun n s =>
    let r := s.slot d t n
    match r.st with
    | .ready =>
      if r.finished = none then s.setSlot d t n { r with finished := some (r.fail.getD (if r.poison then 0x03 else 0x0D), 0) } else s
    | .running => if r.finished = none ∧ (r.status ≠ none ∨ r.allDone) then stopRun d t n s else s
    | _ => s)

/-- The engine objects of a Field close as poisoned. -/
def closeEngines (f : Nat) (s : State) : State :=
  let s := s.forAll s.sheaf.nodes (fun e s => match e.1 with
    | [d, g, id] => if g = f then closePoisoned d f id s else s
    | _ => s)
  let s := s.forAll s.engine.jobs (fun e s => match e.1 with
    | [g, j] => if g = f then closeJob f j s else s
    | _ => s)
  s.forAll s.engine.ctxs (fun e s => match e.1, e.2 with
    | [c], some x => if x.field = f then closeCtx c s else s
    | _, _ => s)

/-- What the engine objects of a fenced Field still hold is dropped: no open round and no query remains (R403). -/
def dropEngines (f : Nat) (s : State) : State :=
  let s := s.forAll s.sheaf.nodes (fun e s => match e.1, e.2 with
    | [d, g, id], some nd =>
      if g = f then
        let s := s.forAll (nd.now_.held ++ nd.next_.held) (fun h s => letGo h.pid s)
        s.setNode d f id (some { nd with openedAt := none, now_ := {}, next_ := {}, chunks := [], sent := [], completed := 0 })
      else s
    | _, _ => s)
  let s := s.forAll s.engine.jobs (fun e s => match e.1, e.2 with
    | [g, j], some x =>
      if g = f then (s.forAll (x.now_.held ++ x.next_.held) letGo).setJob f j (some { x with openedAt := none, now_ := {}, next_ := {}, recs := [], table := [] })
      else s
    | _, _ => s)
  s.forAll s.engine.ctxs (fun e s => match e.1, e.2 with
    | [c], some x => if x.field = f then (s.forAll x.queries (fun q s => letGo q.id s)).setCtx c (some { x with queries := [] }) else s
    | _, _ => s)

/-- The hand-off begins: it lasts at most 20 µs. -/
def startHandoff (n : Nat) (s : State) : State :=
  let s : State := { s with safe := { s.safe with handoffs := s.safe.handoffs ++ [(n, s.now + usUnits 20)] } }
  let s := s.forAll ((s.slotRows n).flatMap rowTiles) (fun x s => if s.slotsOf x.1 x.2 = [] then s else handTile x.1 x.2 s)
  closeEngines (s.slotField n) s

/-- The fence is whole: Waybills left are abandoned as in R261, and the engines hold nothing (R403). -/
def endHandoff (n : Nat) (s : State) : State :=
  let s : State := { s with safe := { s.safe with handoffs := s.safe.handoffs.filter (fun e => e.1 ≠ n) } }
  let s := s.forAll ((s.slotRows n).flatMap rowTiles) (fun x s => if s.slotsOf x.1 x.2 = [] then s else abandonTile x.1 x.2 s)
  dropEngines (s.slotField n) s

/-- Nothing of the Field is READY or RUNNING here, and no engine object has an open round or query. -/
def handoffIdle (s : State) (n : Nat) : Bool :=
  let f := s.slotField n
  let rows := s.slotRows n
  s.tiles.slots.all (fun e => match e.1 with
    | [d, t, _] => !((e.2.st = .ready || e.2.st = .running) && (d, t / 64) ∈ rows)
    | _ => true)
  && s.sheaf.nodes.all (fun e => e.1.getD 1 0 ≠ f || (match e.2 with
    | some nd => nd.openedAt.isNone
    | none => true))
  && s.engine.jobs.all (fun e => e.1.headD 0 ≠ f || (match e.2 with
    | some x => x.openedAt.isNone
    | none => true))
  && s.engine.ctxs.all (fun e => match e.2 with
    | some x => x.field ≠ f || x.queries = []
    | none => true)

/-- HANDOFF_END. -/
def handoffEnd (n : Nat) (s : State) : State :=
  match s.safe.handoffs.find? (fun e => e.1 = n) with
  | some (_, m) => if handoffIdle s n ∨ m ≤ s.now then endHandoff n s else s
  | none => s

def execHandoffEnd (n : Nat) (s : State) : Result := run (.handoffEnd n) s (handoffEnd n s)

/-- A Field slot is fenced: with a hand-off where a detected fault of rows 1 to 5 fences it, else whole at once. -/
def fenceField (n : Nat) (hand : Bool) (s : State) : State :=
  let st := s.fld F.DV_FIELD_SLOT_STATE [n]
  if s.fld F.SM_FIELD_STATE_FENCED [n] = 1 ∨ st = 0 then s
  else
    let s := s.setFld F.SM_FIELD_STATE_FENCED 1 [n]
    let s := if st = 2 then s.setFld F.DV_FIELD_SLOT_STATE 3 [n] else s
    let s := s.log 0x0C 0x01 8 (resetDetail 0 n 0 1) (s.slotField n) 1
    if hand && st = 2 then startHandoff n s else endHandoff n s

/-- CAUSE and FIRST_SEQ of a slot, from its first detected fault. -/
def fieldCause (n cls seq : Nat) (s : State) : State :=
  if s.fld F.SM_FIELD_STATE_CAUSE [n] = 0 then (s.setFld F.SM_FIELD_STATE_CAUSE cls [n]).setFld F.SM_FIELD_STATE_FIRST_SEQ seq [n] else s

def dieCause (d cls seq : Nat) (s : State) : State :=
  if s.fld F.SM_DIE_STATE_CAUSE [d] = 0 then (s.setFld F.SM_DIE_STATE_CAUSE cls [d]).setFld F.SM_DIE_STATE_FIRST_SEQ seq [d] else s

/-- The slots with rows on a die, or with an engine object homed on it (R36, R405). -/
def slotsOnDie (s : State) (d : Nat) : List Nat :=
  s.heldSlots.filter (fun n =>
    let f := s.slotField n
    (s.slotRows n).any (fun x => x.1 = d)
    || s.sheaf.nodes.any (fun e => e.1.headD 0 = d && e.1.getD 1 0 = f)
    || s.engine.jobs.any (fun e => e.1.headD 0 = f && (match e.2 with
      | some x => x.die = d
      | none => false))
    || s.engine.ctxs.any (fun e => match e.2 with
      | some x => x.field = f && x.die = d
      | none => false))

/-- A pending Fallow switch-in of a die is cancelled (R424). -/
def cancelFallow (d : Nat) (s : State) : State :=
  if s.fld F.SM_FALLOW_REQ_PENDING [d] = 1 then
    let l := s.fld F.SM_FALLOW_REQ_LROW [d]
    let p := if s.fld F.SM_FALLOW_REQ_ENTRY [d] = 0 then s.fld F.SM_FALLOW_PHYS0 [d] else s.fld F.SM_FALLOW_PHYS1 [d]
    ((s.setFld F.SM_FALLOW_REQ_PENDING 0 [d]).dropGate (.fallow d)).log 0x0D 0x03 d (beBytes 1 d ++ beBytes 1 p ++ beBytes 1 l)
  else s

/-- Every packet held in a die's slice is discarded unread. -/
def dropSlice (d : Nat) (s : State) : State :=
  s.forAll s.gran.pkts (fun e s => match e.2 with
    | some k => if k.die = d then failPkt (e.1.headD 0) 8 s else s
    | none => s)

/-- A die is fenced (R405), in the order given; every Field it fences is in recovery with it (R407). -/
def fenceDie (d : Nat) (s : State) : State :=
  if s.fld F.SM_DIE_STATE_FENCED [d] = 1 then s
  else
    let s := (s.setFld F.SM_DIE_STATE_FENCED 1 [d]).setBit F.SM_STATUS_DIES_FENCED d true
    let s := dropSlice d s
    let s := goSilent (2 * d + 1) 2 (goSilent (2 * d) 2 s)
    let s := s.log 0x0C 0x03 d (resetDetail 0 d 0 1) 0xFFFF 1
    let s := s.forAll (slotsOnDie s d) (fun n s =>
      let s : State := { s with safe := { s.safe with faults := s.safe.faults ++ [([0, n], [])] } }
      fenceField n false s)
    cancelFallow d s

/-- A half-port falls silent (R406). -/
def silencePort (h : Nat) (s : State) : State :=
  if s.link h = 6 then s
  else (goSilent h 2 s).log 0x0C 0x04 (h / 2) (resetDetail 0 h 0 0)

/-- A Field becomes fail-silent (R408). -/
def silenceField (n : Nat) (s : State) : State :=
  if s.fld F.SM_FIELD_STATE_SILENT [n] = 1 then s
  else
    let s := endHandoff n (fenceField n false (s.setFld F.SM_FIELD_STATE_SILENT 1 [n]))
    s.log 0x0C 0x02 8 (resetDetail 0 n 0 1) (s.slotField n) 4

/-- A Field reset of the slot runs (R427). -/
def resetting (s : State) (n : Nat) : Bool :=
  match s.safe.request with
  | some r => r.kind = 1 && r.target = n
  | none => false

/-- RESULT of SM_RESET is given, and the outcome of the request is logged (R411, R442). -/
def resetOutcome (kind target result : Nat) (s : State) : State :=
  (s.setFld F.SM_RESET_RESULT result).log 0x0C 0x06 8 (resetDetail kind target result 0) (if kind = 1 then s.slotField target else 0xFFFF)

/-- The request that runs ends with a result. -/
def endRequest (result : Nat) (s : State) : State :=
  match s.safe.request with
  | some r => resetOutcome r.kind r.target result { s with safe := { s.safe with request := none } }
  | none => s

/-- A Field reset that runs stops (R409): its rows are no longer being zeroised. -/
def stopFieldReset (s : State) : State :=
  match s.safe.request with
  | some r =>
    if r.kind = 1 then
      let rows := s.slotRows r.target
      { s with safe := { s.safe with request := none }, trust := { s.trust with zeroing := s.trust.zeroing.filter (fun x => x ∉ rows) } }
    else s
  | none => s

/-- The device becomes fail-silent (R409): links silent with REASON 0x01, TIME_PPS_OUT low, every Field fenced. FAULT_N
follows SM_STATUS. -/
def silenceDevice (s : State) : State :=
  if s.fld F.SM_STATUS_STATE = 2 then s
  else
    let s := stopFieldReset (s.setFld F.SM_STATUS_STATE 2)
    let s := s.forAll (List.range 16) (fun h s => goSilent h 1 s)
    let s : State := { s with time := { s.time with ppsOutHigh := false } }
    let s := s.forAll s.heldSlots (fun n s => endHandoff n (fenceField n false s))
    s.log 0x0C 0x05 8 (resetDetail 0 0 0 1) 0xFFFF 4

/-! ## Fault reports (R400, R402, R407) -/

/-- The domains a detected fault lies in, by its row of *Fault domains*. -/
def domainsOf (s : State) (n : FaultNote) : List (List Nat) :=
  let field := match s.slotOf n.field with
    | some k => [[0, k]]
    | none => []
  match n.row with
  | 1 | 2 | 4 | 5 => field
  | 3 => if field = [] then [[1, n.die]] else field
  | 6 | 7 | 8 | 10 => [[1, n.die]]
  | 9 => [[1, n.die], [1, n.die2]]
  | 11 => [[2, n.unit.getD 1 0]]
  | 12 => [[3]]
  | _ => []

/-- The fault lies in a shared domain: rows 6 to 12, and a fault of row 3 charged to a die. -/
def isShared (s : State) (n : FaultNote) : Bool := decide (6 ≤ n.row ∧ n.row ≤ 12) || (n.row = 3 && (s.slotOf n.field).isNone)

/-- The event of a report, unless it has been logged, with its flags; the second part is its SEQ. -/
def faultEvent (n : FaultNote) (fl : Nat) (s : State) : State × Nat :=
  let seq := s.fld F.EV_STATUS_HEAD + s.recorder.fifo.length
  if n.cls = 0 then (s, seq)
  else (s.log n.cls n.code (if n.row = 12 then 8 else n.die) n.detail n.field (fl + (if n.poisoned then 2 else 0)), seq + 1)

/-- A row is suspect: it has no clean mark until a self-test passes it (R402). -/
def markSuspect (d r : Nat) (s : State) : State :=
  (s.setBit F.SM_ROWS_SUSPECT r true [d]).setBit F.SM_ROWS_CLEAN r false [d]

/-- A fault in the row of Fallow entry `e` before it is switched in (R427): the entry is no longer usable, and a switch-in of it that is
pending is cancelled. -/
def fallowFault (d e : Nat) (s : State) : State :=
  let used := if e = 0 then s.fld F.SM_FALLOW_IN_USE0 [d] else s.fld F.SM_FALLOW_IN_USE1 [d]
  if used = 1 then s
  else
    let s := if e = 0 then s.setFld F.SM_FALLOW_USABLE0 0 [d] else s.setFld F.SM_FALLOW_USABLE1 0 [d]
    if s.fld F.SM_FALLOW_REQ_ENTRY [d] = e then cancelFallow d s else s

/-- What a fault marks beside its domain: a suspect row, a lane chunk withheld, a tile named, a Fallow entry ([25, die, entry]) that
cannot be used, a self-checked unit lost (R402). Units of row 12 are [30 + k]
for k 0 Trust Core, 1 Fuse Store, 2 Recorder copy, 3 Power Manager coordinator, 4 the device monitor pair. -/
def faultMarks (n : FaultNote) (s : State) : State :=
  let s := match n.lrow with
    | some r => if (n.row = 1 ∧ (n.stall ∨ (s.slotOf n.field).isNone)) ∨ n.row = 4 then markSuspect n.die r s else s
    | none => s
  let s : State := match n.unit with
    | [20, d, t] => if (d, t) ∈ s.safe.named then s else { s with safe := { s.safe with named := s.safe.named ++ [(d, t)] } }
    | [25, d, e] => fallowFault d e s
    | _ => s
  let s : State := if n.row = 2 ∧ n.code = 3 then
      let wide := match s.node n.die n.field (beNat (n.detail.take 2)) with
        | some nd => b2n nd.plan.wide
        | none => 0
      { s with safe := { s.safe with lanesOut := tabSet 0 s.safe.lanesOut [n.die, wide] (tabGet 0 s.safe.lanesOut [n.die, wide] + 1) } }
    else s
  if n.row = 12 ∧ n.unit = [30] then s.setFld F.TC_STATUS_STATE 2 else s

/-- The first-fault action on one domain. -/
def domainAction (n : FaultNote) (dom : List Nat) (seq : Nat) (s : State) : State :=
  match dom with
  | [0, k] => fenceField k true (fieldCause k n.cls seq s)
  | [1, d] => fenceDie d (dieCause d n.cls seq s)
  | [2, h] => silencePort h s
  | _ => if n.unit = [34] then silenceDevice s else s

/-- A detected fault, of which a second replica failure before a device reset is one that makes the device fail-silent (R47): folded into an earlier one of the same domain and unit; escalated; or the first of its domain. -/
def detectedFault (n : FaultNote) (s : State) : State :=
  let doms := domainsOf s n
  if doms ≠ [] ∧ doms.any (fun x => s.safe.faults.any (fun e => e.1 = x && e.2 = n.unit)) then
    faultMarks n (s.log 0x0C 0x08 n.die (resetDetail 0 ((doms.headD []).getD 1 0) 0 ((doms.headD []).headD 0)) n.field)
  else
    let recovering := s.safe.faults ≠ []
    let quiet := (recovering && isShared s n) || (n.row = 10 && decide (2 ≤ s.time.replicaFailures))
    let again := doms.filter (fun x => x.headD 9 = 0 && (s.safe.faults.any (fun e => e.1 = x) || resetting s (x.getD 1 0)))
    let s := s.bump F.SM_STATUS_DETECTED
    let (s, seq) := faultEvent n (if quiet || again ≠ [] then 5 else if doms = [] || doms = [[3]] then 0 else 1) s
    let s := faultMarks n s
    let s : State := { s with safe := { s.safe with faults := s.safe.faults ++ doms.map (fun x => (x, n.unit)) } }
    let s := if quiet then silenceDevice s
      else if again ≠ [] then s.forAll again (fun x s => silenceField (x.getD 1 0) s)
      else s.forAll doms (fun x s => domainAction n x seq s)
    showRecovery s

/-- FAULT_REPORT: a report reaches the Safety Monitor. -/
def faultReport (n : FaultNote) (s : State) : State :=
  let s : State := { s with safe := { s.safe with reports := s.safe.reports.erase n } }
  if n.consequential then (faultEvent n 8 (s.bump F.SM_STATUS_CONSEQUENTIAL)).1
  else detectedFault n s

def execFaultReport (n : FaultNote) (s : State) : Result := run (.faultReport n) s (faultReport n s)

end Sys2Proof.Machine
end

