-- ==== Sys2Proof/Machine/Time.lean ====
section
/-! DEFINITION. The meanings of the commands of hall time (chapter 2) and of the pace monitors (R40, R188). The step of the
counter and the firing of gates and barriers are in Machine/Launch.lean. -/

namespace Sys2Proof.Machine

/-! ## Pace (R40, R150, R188, R401) -/

/-- The pace field of a region. -/
def paceFld (r : Nat) : Fld := if r < 4 then ⟨.PW_PACE_A, 16 * r, 16, .RO, 0⟩ else ⟨.PW_PACE_B, 16 * (r - 4), 16, .RO, 0⟩

def State.pace (s : State) (d r : Nat) : Nat := s.fld (paceFld r) [d]

/-- The bound B of R401 in ns for a pace. -/
def hangBound (p : Nat) : Nat := 1200000 / max p 60

/-- The row the fused repair map gives a logical row (R25). -/
def State.fusedRow (s : State) (d r : Nat) : Nat := (tabGet none s.boot.rowMap [d, r]).getD r

/-- The physical row a logical row lies in: the fused repair map's, or a Fallow row switched in (R25, R424). -/
def State.physRow (s : State) (d r : Nat) : Nat :=
  let retired (p : Nat) : Bool := s.fbit F.SM_FALLOW_RETIRED p [d]
  if s.fld F.SM_FALLOW_IN_USE0 [d] = 1 ∧ s.fld F.SM_FALLOW_LROW0 [d] = r ∧ !retired (s.fld F.SM_FALLOW_PHYS0 [d]) then s.fld F.SM_FALLOW_PHYS0 [d]
  else if s.fld F.SM_FALLOW_IN_USE1 [d] = 1 ∧ s.fld F.SM_FALLOW_LROW1 [d] = r ∧ !retired (s.fld F.SM_FALLOW_PHYS1 [d]) then s.fld F.SM_FALLOW_PHYS1 [d]
  else s.fusedRow d r

/-- The logical rows of a region 0 to 3. -/
def regionRows (s : State) (d r : Nat) : List Nat :=
  (List.range s.rowsPerDie).filter (fun l => if r < 2 then decide (s.physRow d l < 17) else decide (17 ≤ s.physRow d l))

/-- The Field number that holds a row, or 0xFFFF. -/
def State.rowField (s : State) (d l : Nat) : Nat :=
  match s.rowOwner1 d l with
  | some n => s.fld F.DV_FIELD_SLOT_FIELD_ID [n]
  | none => 0xFFFF

/-- DETAIL of a HANG event: unit, region, pace, B in ns. -/
def hangDetail (unit region pace b : Nat) : List Byte := beBytes 1 unit ++ beBytes 1 region ++ beBytes 2 pace ++ beBytes 4 b

/-- A region has come to read 0: a stall of everything in it (R40, row 8 and row 1 of *Fault domains*). -/
def paceStall (d r : Nat) (s : State) : State :=
  let det := hangDetail 0 r 0 (hangBound 0)
  if r < 4 then
    s.forAll (regionRows s d r) (fun l s =>
      s.report ⟨1, false, [2, d, r], d, d, s.rowField d l, some l, true, 0x07, 0x04, true, det⟩)
  else s.report ⟨8, false, [8, d, r], d, d, 0xFFFF, none, true, 0x07, 0x04, false, det⟩

/-- The reading the Road Book guard takes on a die (R188). -/
def guardPace (s : State) (d : Nat) : Nat :=
  let on (k : Nat) : Bool := s.liveRecords.any (fun r => (r.inKind = k && r.inDie = d) || (r.outKind = k && r.outDie = d))
  let l := [s.pace d 4, s.pace d 7] ++ (if on 1 then [s.pace d 0, s.pace d 1, s.pace d 2, s.pace d 3] else [])
    ++ (if on 2 then [s.pace d 5] else []) ++ (if on 3 then [s.pace d 6] else [])
  l.foldl min (s.pace d 4)

/-- The guard of one die after new readings: four in a row below PACE_FLOOR, or below P_plan. A die without power takes no readings. -/
def paceGuard (d : Nat) (s : State) : State :=
  if s.fld F.SM_DIE_STATE_POWERED [d] = 0 then { s with road := { s.road with lowFloor := tabSet 0 s.road.lowFloor [d] 0, lowPlan := tabSet 0 s.road.lowPlan [d] 0 } }
  else
    let p := guardPace s d
    let lf : Nat := if p < s.floorInForce.pace then tabGet 0 s.road.lowFloor [d] + 1 else 0
    let lp : Nat := if p < s.planInForce then tabGet 0 s.road.lowPlan [d] + 1 else 0
    let s := { s with road := { s.road with lowFloor := tabSet 0 s.road.lowFloor [d] (min lf 4), lowPlan := tabSet 0 s.road.lowPlan [d] (min lp 4) } }
    let s : State := if 4 ≤ lf ∧ s.fld F.RB_ALARM_PACE_LOW [d] = 0 then
        let s := s.setFld F.RB_ALARM_PACE_LOW 1 [d]
        s.log 0x05 0x04 d (roadDetail s d 0 0)
      else s
    if 4 ≤ lp ∧ s.fld F.RB_ALARM_PACE_ALARM [d] = 0 then
      let s := s.setFld F.RB_ALARM_PACE_ALARM 1 [d]
      raiseAlarm d 2 (s.log 0x05 0x05 d (roadDetail s d 0 0))
    else s

/-- One region's new reading; a die whose domain is down reads 0 and stalls nothing. -/
def paceRegion (d r v : Nat) (s : State) : State :=
  let up := s.fld F.SM_DIE_STATE_POWERED [d] = 1
  let v := if up then v else 0
  let s := s.setFld (paceFld r) v [d]
  let key := d * 8 + r
  if up ∧ v = 0 then
    if key ∈ s.safe.paceZero then s
    else paceStall d r { s with safe := { s.safe with paceZero := s.safe.paceZero ++ [key] } }
  else { s with safe := { s.safe with paceZero := s.safe.paceZero.filter (· ≠ key) } }

/-- PACE_UPDATE: the readings of every region, die by die. -/
def paceUpdate (l : List Nat) (s : State) : State :=
  let s := s.forAll (List.range 64) (fun i s => paceRegion (i / 8) (i % 8) (l.getD i 0) s)
  s.forAll dies (fun d s =>
    let p := ([5, 6, 7].map (s.pace d)).foldl min (s.pace d 4)
    paceGuard d (s.setFld F.SM_HANG_BOUND_NS (hangBound p) [d]))

def execPaceUpdate (readings : List Nat) (s : State) : Result := run (.paceUpdate readings) s (paceUpdate readings s)

/-! ## Replicas (R46 to R48) -/

/-- A replica fails: ROLE 0b10, and a fault of its die in a shared domain (row 10). -/
def failReplica (d code : Nat) (s : State) : State :=
  let s := s.setFld F.TK_REPLICA_ROLE 2 [d]
  let s := { s with time := { s.time with replicaFailures := s.time.replicaFailures + 1 } }
  s.report ⟨10, false, [10, d], d, d, 0xFFFF, none, false, 0x01, code, false, timeDetail s d⟩

/-- The counters as seen from counter A of die `n`, which becomes the lead's: every counter keeps its count. -/
def rebasePeers (old n : Nat) (t : TimeState) : TimeState :=
  let p : PeerCounter := tabGet {} t.peers [n, 0]
  let keys := peerKeys n
  let moved := keys.foldl (fun l k =>
    let x : PeerCounter := if k = [old, 0] then ⟨0, t.acc⟩ else tabGet {} t.peers k
    tabSet {} l k { x with off := x.off - p.off }) []
  { t with count := (((t.count : Int) + p.off) % 2 ^ 64).toNat, acc := p.acc, peers := moved }

/-- The lead role passes to die 4 if die 0 held it, and to die 0 otherwise; no counter steps or slews: what follows is read from
another counter (R47). -/
def passLead (s : State) : State :=
  let old := s.leadDie
  let n := if old = 0 then 4 else 0
  let s := (s.setFld F.TK_STATUS_LEAD_DIE n).setFld F.TK_REPLICA_LEAD_DIFF 0 [n]
  let s := if s.fld F.TK_REPLICA_ROLE [n] = 2 then s else s.setFld F.TK_REPLICA_ROLE 1 [n]
  timeEvent 0x06 { s with time := rebasePeers old n s.time }

def satSigned8 (x : Int) : Nat := ofSigned 8 (if 127 < x then 127 else if x < -128 then -128 else x)

/-- Where the comparison finds the counters: each PLL wanders by itself, so the differences read are those the counters now have. -/
def readCounters (l : List ReplicaReading) (s : State) : State :=
  let rd (d : Nat) : ReplicaReading := l.getD d ⟨0, 0⟩
  let put (d c : Nat) (x : Int) (s : State) : State :=
    { s with time := { s.time with peers := tabSet {} s.time.peers [d, c] { s.peer d c with off := x } } }
  s.forAll dies (fun d s =>
    if d = s.leadDie then put d 1 (-(rd d).ab) s else put d 1 ((rd d).lead - (rd d).ab) (put d 0 (rd d).lead s))

/-- Counter A minus counter B of a replica, and its counter A minus that of the lead (R46, R47). -/
def State.abDiff (s : State) (d : Nat) : Int := (s.peer d 0).off - (s.peer d 1).off
def State.leadDiff (s : State) (d : Nat) : Int := (s.peer d 0).off

/-- REPLICA_COMPARE: every replica's counters, die by die. DESIGN CHOICE (log 161): a follower that fails by its own A and B is not
counted among those that disagree with the lead. -/
def replicaCompare (l : List ReplicaReading) (s : State) : State :=
  let s := readCounters l s
  let lead := s.leadDie
  let alive := dies.filter (fun d => s.fld F.TK_REPLICA_ROLE [d] ≠ 2)
  let s := s.forAll dies (fun d s =>
    (s.setFld F.TK_REPLICA_AB_DIFF (satSigned8 (s.abDiff d)) [d]).setFld F.TK_REPLICA_LEAD_DIFF (satSigned8 (s.leadDiff d)) [d])
  let own := alive.filter (fun d => decide (2 < (s.abDiff d).natAbs))
  let off := alive.filter (fun d => d ≠ lead && !(own.contains d) && decide (4 < (s.leadDiff d).natAbs))
  let s := s.forAll own (fun d => failReplica d 0x04)
  let leadBad := decide (3 ≤ off.length) && !(own.contains lead)
  let s := if leadBad then failReplica lead 0x05 s
    else if 3 ≤ off.length then s else s.forAll off (fun d => failReplica d 0x05)
  if s.fld F.TK_REPLICA_ROLE [lead] = 2 then passLead s else s

def execReplicaCompare (readings : List ReplicaReading) (s : State) : Result :=
  run (.replicaCompare readings) s (replicaCompare readings s)

/-- CLOCK_MONITOR_FIRE: the disagreement found, in ppb, is beyond 30 ppm against REFCLK or 1,000 ppm against the ring. -/
def clockMonitorFire (ppb : Nat) (s : State) : State :=
  if (if s.fld F.TK_HOLD_OSC_IN_FITTED = 1 then 30000 else 1000000) < ppb then
    let s := timeEvent 0x07 s
    if s.time.mode.isValid then setMode .invalid s else s
  else s

def execClockMonitorFire (ppb : Nat) (s : State) : Result := run (.clockMonitorFire ppb) s (clockMonitorFire ppb s)

/-! ## Link time exchange (R54 to R58) -/

def State.exch (s : State) (h : Nat) : Exchange := tabGet {} s.time.exch [h]

def State.setExch (s : State) (h : Nat) (x : Exchange) : State :=
  { s with time := { s.time with exch := tabSet {} s.time.exch [h] x } }

/-- FLAGS, HOPS and BOUND_PS of this device, as a message on half-port `h` carries them. -/
def ownTimeMsg (s : State) (h : Nat) (reply : Bool) (seq tA tB tC : Nat) : TimeMsg :=
  { reply := reply, version := 1, valid := s.timeValid, holdover := s.time.mode = .holdover,
    srcIsYou := s.fld F.TK_STATUS_SRC_KIND = 1 && s.srcHalf (s.fld F.TK_STATUS_SRC_INDEX) = h,
    calibrated := s.fld F.TK_PORT_CAL_CALIBRATED (hp h) = 1, seq := seq, hops := s.fld F.TK_STATUS_HOPS,
    bound := min (s.fld F.TK_STATUS_BOUND_PS) 0xFFFFFF, tA := tA, tB := tB, tC := tC }

/-- A SYNC of half-port `h` that left at `t` can still count as a missing sample: its limit has not passed, or a candidate has not
counted it (R51). -/
def syncOpen (s : State) (h t : Nat) : Bool :=
  decide (s.now < t + 64000) || (s.srcsOf 1 h).any (fun n => decide ((s.srcRec n).missFrom ≤ t))

/-- SYNC_SEND: an exchange starts on an Edbor half-port in UP with EXCH_EN, an interval after the latest; t1 is the count at
which it leaves (R55). -/
def syncSend (h : Nat) (s : State) : State :=
  let x := s.exch h
  if s.link h = 4 ∧ !s.isEth h ∧ s.fld F.TK_PORT_CAL_EXCH_EN (hp h) = 1 ∧
      (x.t1 = 0 ∨ x.t1 + usUnits (s.fld F.TK_PORT_CAL_INTERVAL_US (hp h)) ≤ s.now) then
    let q := (x.seq + 1) % 65536
    let open_ := (x.unanswered.filter (syncOpen s h)) ++ [s.now]
    let s := s.setExch h { x with seq := q, t1 := s.now, waiting := true, unanswered := open_ }
    sendOnLink h (timePacket s (ownTimeMsg s h false q s.now 0 0)) s
  else s

def execSyncSend (h : Nat) (s : State) : Result := run (.syncSend h) s (syncSend h s)

/-- The time exchange message of stored packet `pid`, with its half-port and the count at which it crossed the balls (R55): one whose tag
has passed, whole and well formed (R54, R94, R95). -/
def timeMsgAt (s : State) (pid : Nat) (reply : Bool) : Option (Nat × Nat × TimeMsg) :=
  match s.pkt pid with
  | some k =>
    match k.input with
    | .half h =>
      if k.stage = .passed ∧ isTimeMsg reply k.p ∧ s.link h = 4 ∧ !s.isEth h then some (h, k.issuedAt, timeMsgOf k.p) else none
    | _ => none
  | none => none

/-- The Time Keeper has taken the link-local packet. -/
def takeLocal (pid : Nat) (s : State) : State :=
  match s.pkt pid with
  | some k => if k.stage = .passed then s.setPkt pid none else s
  | none => s

/-- SYNC_RECEIVE: a SYNC is answered by a REPLY that leaves now (R54 to R56, R59). A device that is fail-silent sends none (R409). -/
def syncReceive (pid : Nat) (s : State) : State :=
  match timeMsgAt s pid false with
  | some (h, t2, m) =>
    let s := takeLocal pid s
    if s.fld F.SM_STATUS_STATE = 2 then s else sendOnLink h (timePacket s (ownTimeMsg s h true m.seq m.tA t2 s.now)) s
  | none => s

def execSyncReceive (pid : Nat) (s : State) : Result := run (.syncReceive pid) s (syncReceive pid s)

/-- A candidate whose partner disqualifies it gives no sample and is lost at once (R52). -/
def disqualify (n : Nat) (s : State) : State := loseSource n s

/-- An accepted sample of a half-port's exchange goes to the candidates it feeds. -/
def feedSources (ns : List Nat) (θ : Int) (bound hops : Nat) (you : Bool) (s : State) : State :=
  s.forAll ns (fun n s => if you || decide (15 < hops) then disqualify n s else acceptSample n θ bound hops s)

/-- The sample of an exchange from `t1` whose REPLY crossed the balls at `t4`: θ and d of its stamps; before d_ref exists a good sample
only helps to form it (R57, R58). One that came too late has been counted by the candidates whose record says so (R51). -/
def exchangeSample (h t1 t4 : Nat) (m : TimeMsg) (s : State) : State :=
  let x := s.exch h
  let θ := offsetOf t1 m.tB m.tC t4 (toSigned 32 (s.fld F.TK_PORT_CAL_ASYM (hp h)))
  let d := delayOf t1 m.tB m.tC t4
  let ns := s.srcsOf 1 h
  if !m.valid then (s.bump F.TK_EVENTS_SAMPLES_REJECTED).forAll ns disqualify
  else if t1 + 64000 < t4 then
    rejectSample (ns.filter (fun n => decide ((s.srcRec n).missFrom ≤ t1))) s
  else
    match x.dRef with
    | none =>
      let l := x.dSamples ++ [d]
      s.setExch h (if 8 ≤ l.length then { x with dSamples := [], dRef := some (medianOf8 l) } else { x with dSamples := l })
    | some r =>
      if 16 < (d - r).natAbs then rejectSample ns s
      else
        let s := (s.setFld F.TK_PORT_MEAS_DELAY (ofSigned 32 d) (hp h)).setFld F.TK_PORT_MEAS_OFFSET (ofSigned 32 θ) (hp h)
        feedSources ns θ m.bound (m.hops + 1) m.srcIsYou s

/-- REPLY_RECEIVE. A REPLY whose SEQ is not that of the latest SYNC gives no sample (R54); either way the SYNC whose stamp it copies
has been answered (R51). -/
def replyReceive (pid : Nat) (s : State) : State :=
  match timeMsgAt s pid true with
  | some (h, t4, m) =>
    let s := takeLocal pid s
    let x := s.exch h
    let s := s.setExch h { x with unanswered := x.unanswered.filter (fun t => decide (t ≠ m.tA)) }
    if !x.waiting ∨ m.seq ≠ x.seq then s
    else exchangeSample h x.t1 t4 m (s.setExch h { s.exch h with waiting := false })
  | none => s

def execReplyReceive (pid : Nat) (s : State) : Result := run (.replyReceive pid) s (replyReceive pid s)

/-- The oldest SYNC that candidate `n` may count as missing: no REPLY to it came within 4 µs of its stamp (R51). -/
def missingSync (s : State) (n : Nat) : Option Nat :=
  (s.exch (s.srcHalf n)).unanswered.find? (fun t => decide ((s.srcRec n).missFrom ≤ t) && decide (t + 64000 ≤ s.now))

/-- SAMPLE_MISSING of candidate `n`, once its limit has passed (R51). -/
def sampleMissing (n : Nat) (s : State) : State :=
  let r := s.srcRec n
  let seen := s.setSrc n { r with lastAt := s.now }
  match s.srcKind n with
  | 1 =>
    match missingSync s n with
    | some t =>
      let h := s.srcHalf n
      let s := badSample n (s.setSrc n { r with missFrom := t + 1 })
      let x := s.exch h
      s.setExch h { x with unanswered := x.unanswered.filter (syncOpen s h) }
    | none => s
  | 2 => if r.lastAt + 2 * nsUnits (s.sampleInterval n) ≤ s.now then badSample n seen else s
  | 3 => if max r.lastAt (s.time.ppsInAt.getD 0) + nsUnits 1100000000 ≤ s.now then badSample n seen else s
  | _ => s

def execSampleMissing (n : Nat) (s : State) : Result := run (.sampleMissing n) s (sampleMissing n s)

/-- HOLDOVER_UPDATE (R62). -/
def holdoverUpdate (s : State) : State :=
  match s.time.holdAt with
  | none => s
  | some t =>
    if s.time.mode = .holdover ∨ s.time.mode = .invalid then
      let ms := (s.now - t) / 16000000
      let b := s.time.holdB0 + s.fld F.TK_HOLD_STAB_PPT * ms / 1000 + s.fld F.TK_HOLD_AGEING * ms * ms / 2000000000
      let s := setBound b s
      if s.time.mode = .holdover ∧ 2000 < b then setMode .invalid s else s
    else s

def execHoldoverUpdate (s : State) : Result := run .holdoverUpdate s (holdoverUpdate s)

/-! ## PTP (R64, R65) -/

def State.ptpPort (s : State) (h : Nat) : PtpPort := tabGet {} s.time.ptp [h]

def State.setPtp (s : State) (h : Nat) (p : PtpPort) : State :=
  { s with time := { s.time with ptp := tabSet {} s.time.ptp [h] p } }

/-- ROLE of a half-port: 0 disabled, 1 master, 2 slave, 3 passive. -/
def State.ptpRole (s : State) (h : Nat) : Nat := s.fld F.TK_PTP_ROLES_ROLE / 4 ^ h % 4

/-- 2^x seconds in sixteenths, for a signed 4-bit logarithm. -/
def logUnits (x : Nat) : Nat :=
  let i := toSigned 4 x
  if 0 ≤ i then 16000000000 * 2 ^ i.toNat else 16000000000 / 2 ^ (-i).toNat

/-- Whole nanoseconds and correctionField of a stamp. -/
def stampNs (t : Nat) : Nat × Nat := (t / 16, t % 16 * 4096)

/-- The transport of a PTP message (R64): UDP port 319 for an event message and 320 for a general one under TK_PTP.IPV6, and the
EtherType otherwise. -/
def State.ptpTransport (s : State) (event : Bool) : Nat :=
  if s.fld F.TK_PTP_IPV6 = 1 then (if event then 319 else 320) else 0x88F7

/-- A PTP message leaves: its kinds are 0 Sync, 1 Follow_Up, 2 Announce, 3 Pdelay_Req, 4 Pdelay_Resp and 5 its Follow_Up, of which
Sync, Pdelay_Req and Pdelay_Resp are event messages. -/
def sendPtp (h kind seq ns correction steps clockClass : Nat) (utc : Int) (s : State) : State :=
  s.emit (.ptp h (s.ptpTransport (kind = 0 || kind = 3 || kind = 4)) kind seq ns correction steps clockClass utc)

/-- PTP_SYNC_SEND: Sync, then Follow_Up, on a master port while time is valid. -/
def ptpSyncSend (h : Nat) (s : State) : State :=
  let p := s.ptpPort h
  if s.isEth h ∧ s.link h = 4 ∧ s.ptpRole h = 1 ∧ s.timeValid ∧ (p.syncAt = 0 ∨ p.syncAt + logUnits (s.fld F.TK_PTP_LOG_SYNC) ≤ s.now) then
    let s := s.setPtp h { p with syncSeq := (p.syncSeq + 1) % 65536, syncAt := s.now }
    let (ns, c) := stampNs s.now
    sendPtp h 1 p.syncSeq ns c 0 0 0 (sendPtp h 0 p.syncSeq 0 0 0 0 0 s)
  else s

def execPtpSyncSend (h : Nat) (s : State) : Result := run (.ptpSyncSend h) s (ptpSyncSend h s)

/-- ANNOUNCE_SEND. -/
def announceSend (h : Nat) (s : State) : State :=
  let p := s.ptpPort h
  if s.isEth h ∧ s.link h = 4 ∧ s.ptpRole h = 1 ∧ s.timeValid ∧ (p.announceAt = 0 ∨ p.announceAt + logUnits (s.fld F.TK_PTP_LOG_ANNOUNCE) ≤ s.now) then
    let s := s.setPtp h { p with announceSeq := (p.announceSeq + 1) % 65536, announceAt := s.now }
    sendPtp h 2 p.announceSeq 0 0 (s.fld F.TK_STATUS_HOPS) (if s.time.mode = .holdover then 7 else 6) (toSigned 16 (s.fld F.TK_CTRL_TAI_UTC)) s
  else s

def execAnnounceSend (h : Nat) (s : State) : Result := run (.announceSend h) s (announceSend h s)

/-- PDELAY_REQ_SEND. -/
def pdelayReqSend (h : Nat) (s : State) : State :=
  let p := s.ptpPort h
  if s.isEth h ∧ s.link h = 4 ∧ s.ptpRole h ≠ 0 ∧ (p.pdelayAt = 0 ∨ p.pdelayAt + logUnits (s.fld F.TK_PTP_LOG_PDELAY) ≤ s.now) then
    let q := (p.pdelaySeq + 1) % 65536
    let s := s.setPtp h { p with pdelaySeq := q, pdelayAt := s.now, pdelayT2 := none, pdelayT4 := none }
    sendPtp h 3 q 0 0 0 0 0 s
  else s

def execPdelayReqSend (h : Nat) (s : State) : Result := run (.pdelayReqSend h) s (pdelayReqSend h s)

/-- A Follow_Up completes a sample: t1 and t2 of the latest peer delay exchange, t3 the origin stamp, t4 the Sync's
ingress. The exchange limit of R58 bounds the peer delay exchange. -/
def ptpSample (h origin rx : Nat) (s : State) : State :=
  let p := s.ptpPort h
  let ns := s.srcsOf 2 h
  match p.pdelayT2, p.pdelayT4 with
  | some t2, some t4 =>
    let θ := offsetOf p.pdelayAt t2 origin rx (toSigned 32 (s.fld F.TK_PORT_CAL_ASYM (hp h)))
    let d := delayOf p.pdelayAt t2 origin rx
    if p.pdelayAt + 64000 < t4 then rejectSample ns s
    else
      match p.dRef with
      | none =>
        let l := p.dSamples ++ [d]
        s.setPtp h (if 8 ≤ l.length then { p with dSamples := [], dRef := some (medianOf8 l) } else { p with dSamples := l })
      | some r =>
        if 16 < (d - r).natAbs then rejectSample ns s
        else
          let s := (s.setFld F.TK_PORT_MEAS_DELAY (ofSigned 32 d) (hp h)).setFld F.TK_PORT_MEAS_OFFSET (ofSigned 32 θ) (hp h)
          feedSources ns θ (s.fld F.TK_PTP_PARENT_BOUND_PS) (p.steps + 1) false s
  | _, _ => rejectSample ns s

/-- A supported PTP message on a half-port of a role (R64, R65). A Sync, a Pdelay_Req and a Pdelay_Resp cross the balls now, but for the
time a Pdelay_Req waits for its answer. -/
def ptpTake (h : Nat) (b : PtpBody) (s : State) : State :=
  let p := s.ptpPort h
  match b with
  | .sync seq => if s.ptpRole h = 2 then s.setPtp h { p with rxSync := some (seq, s.now) } else s
  | .followUp seq origin =>
    match p.rxSync with
    | some (q, rx) =>
      if s.ptpRole h = 2 ∧ q = seq then
        let s := s.setPtp h { p with rxSync := none }
        let s := s.forAll (s.srcsOf 2 h) (fun n s => s.setSrc n { s.srcRec n with lastAt := s.now })
        ptpSample h origin rx s
      else s
    | none => s
  | .announce steps cc => if s.ptpRole h = 2 then s.setPtp h { p with steps := steps, clockClass := cc } else s
  | .pdelayReq seq wait =>
    let (ns, c) := stampNs (s.now - wait)
    let (ns2, c2) := stampNs s.now
    sendPtp h 5 seq ns2 c2 0 0 0 (sendPtp h 4 seq ns c 0 0 0 s)
  | .pdelayResp seq receipt =>
    if seq = p.pdelaySeq then s.setPtp h { p with pdelayT2 := some receipt, pdelayT4 := some s.now } else s
  | .pdelayRespFollowUp _ _ | .unsupported => s

/-- PTP_MESSAGE_RECEIVE: one of an unsupported type is discarded and counted; any other acts if it came by the transport in use, is of
the device's domain and the half-port has a role. -/
def ptpReceive (h : Nat) (m : PtpMsg) (s : State) : State :=
  if !s.isEth h || s.link h ≠ 4 then s
  else if m.body = .unsupported then s.bump F.TK_EVENTS_SAMPLES_REJECTED
  else if m.ipv6 ≠ decide (s.fld F.TK_PTP_IPV6 = 1) || m.domain ≠ s.fld F.TK_PTP_DOMAIN || s.ptpRole h = 0 then s
  else ptpTake h m.body s

def execPtpMessageReceive (h : Nat) (m : PtpMsg) (s : State) : Result := run (.ptpMessageReceive h m) s (ptpReceive h m s)

/-! ## Time pins (R66, R67) -/

/-- The candidates fed by the pins. -/
def State.pinSrcs (s : State) : List Nat := (List.range 4).filter (fun n => s.srcKind n = 3)

/-- PPS_IN_EDGE: a pins sample with the preceding message. -/
def ppsInEdge (s : State) : State :=
  let prev := s.time.ppsInAt
  let tod := s.time.tod
  let s := { s with time := { s.time with ppsInAt := some s.now, tod := none } }
  if s.pinSrcs = [] then s
  else
    match prev, tod with
    | some p, some t =>
      if p + nsUnits 100000000 ≤ t.arrivedAt ∧ t.arrivedAt ≤ p + nsUnits 900000000 ∧ p + nsUnits 900000000 ≤ s.now then
        let θ : Int := (s.now : Int) - s.fld F.TK_PPS_IN_CABLE_DELAY - (t.seconds * 16000000000 : Nat)
        s.forAll s.pinSrcs (fun n s => acceptSample n θ 0 0 s)
      else rejectSample s.pinSrcs s
    | _, _ => rejectSample s.pinSrcs s

def execPpsInEdge (s : State) : Result := run .ppsInEdge s (ppsInEdge s)

/-- TOD_MESSAGE: the sixteen bytes of *Time-of-day message*. One that is not valid leaves no message for the edge. DESIGN CHOICE (log
162): SECONDS and CRC stand most significant byte first. -/
def todMessage (l : List Byte) (s : State) : State :=
  let ok := byteNat l 0 2 = 0x594B ∧ byteNat l 2 1 = 1 ∧ byteNat l 14 2 = crc16 (l.take 14)
  if ok then
    let s := (s.setFld F.TK_PPS_IN_TOD_CLASS (byteNat l 12 1)).setFld F.TK_PPS_IN_TOD_OK 1
    { s with time := { s.time with tod := if (byteNat l 3 1).testBit 0 then some ⟨byteNat l 4 6, s.now⟩ else none } }
  else { s.setFld F.TK_PPS_IN_TOD_OK 0 with time := { s.time with tod := none } }

def execTodMessage (bytes : List Byte) (s : State) : Result := run (.todMessage bytes) s (todMessage bytes s)

/-- PPS_OUT_RISE: at a multiple of PERIOD_NS, within 150 ps, while time is valid and PPS_OUT_EN is 1. -/
def ppsOutRise (s : State) : State :=
  let p := nsUnits (s.fld F.TK_PPS_OUT_PERIOD_NS)
  let m := if p = 0 then 0 else s.now / p * p
  if s.timeValid ∧ s.fld F.TK_CTRL_PPS_OUT_EN = 1 ∧ s.fld F.SM_STATUS_STATE ≠ 2 ∧ p ≠ 0 ∧ s.now ≤ m + 2 ∧ !s.time.ppsOutHigh ∧
      s.time.ppsOutRiseAt ≠ some m then
    { s with time := { s.time with ppsOutHigh := true, ppsOutRiseAt := some m, ppsOutWidth := s.fld F.TK_PPS_OUT_WIDTH_NS } }
  else s

def execPpsOutRise (s : State) : Result := run .ppsOutRise s (ppsOutRise s)

/-- PPS_OUT_FALL: a pulse that has begun completes its width. -/
def ppsOutFall (s : State) : State :=
  if s.time.ppsOutHigh ∧ (s.time.ppsOutRiseAt.getD 0) + nsUnits s.time.ppsOutWidth ≤ s.now then
    { s with time := { s.time with ppsOutHigh := false } }
  else s

def execPpsOutFall (s : State) : Result := run .ppsOutFall s (ppsOutFall s)

/-! ## Barriers (R69, R71) -/


def State.setBarrier (s : State) (b : Option BarrierRec) : State := { s with time := { s.time with barrier := b } }

/-- A barrier packet leaves for a device (R71). KIND 1 ARRIVE, 2 RELEASE, 3 LATE, 4 ABORT. -/
def barrierSend (kind : Nat) (b : BarrierRec) (dst count : Nat) (s : State) : State :=
  let body := beBytes 1 kind ++ [0] ++ beBytes 2 b.id ++ beBytes 2 b.field ++ beBytes 2 b.index ++ beBytes 8 count ++ List.replicate 16 0
  let h : Hdr := { typ := 0x11, tv := s.fld F.SG_CTRL_CURRENT, dstDevice := dst, srcDevice := s.device, depart := departOf s.now }
  sendResponse s.leadDie { h := h, body := body } .mgmt s

/-- The armed actions of SM_ADMIT wait for the barrier. -/
def admitArmedFor (s : State) (b : BarrierRec) : Bool :=
  b.kind = 2 && s.fld F.SM_ADMIT_ARMED = 1 && s.fld F.SM_ADMIT_BARRIER_ID = b.id

/-- The armed actions come to an end with a result. -/
def admitOver (b : BarrierRec) (result : Nat) (s : State) : State :=
  if admitArmedFor s b then (s.setFld F.SM_ADMIT_ARMED 0).setFld F.SM_ADMIT_RESULT result else s

/-- Every armed action can be taken at `m` (R426, against R185, R120 and R192). -/
def admitCan (s : State) (m : Nat) : Bool :=
  let bank := s.fld F.SM_ADMIT_BANK = 1
  (!bank || (s.bankState s.swapBank = 3 && s.fld F.RB_BANKS_PENDING = 0 && s.boundaryOk m))
    && (s.fld F.SM_ADMIT_SWITCH = 0 || (s.verState s.otherVer = 2 && s.fld F.SG_CTRL_PENDING = 0))
    && (s.fld F.SM_ADMIT_RESUME = 0 || bank || (s.activeBankNo.isSome && s.isBoundary m))

/-- The root reports the outcome to the fabric manager (R69): aborted, late with the late participants, or released. -/
def barrierOutcome (b : BarrierRec) (s : State) : State :=
  s.emit (.barrierOutcome b.id (if b.phase = .aborted then 2 else if b.lateOnes = [] then 1 else 3) b.lateOnes)

/-- A participant does not release: it answers LATE, or, at the root, is among the late ones (R69). -/
def barrierGoLate (b : BarrierRec) (result : Nat) (s : State) : State :=
  let s := admitOver b result s
  if b.root = s.device then
    let b := { b with phase := .late, lateOnes := b.lateOnes ++ [b.index] }
    barrierOutcome b (s.setBarrier (some b))
  else barrierSend 3 b b.root b.relAt (s.setBarrier (some { b with phase := .late }))

/-- A participant receives RELEASE with `m`; for an admission it checks its armed actions (R426). -/
def releaseHere (m : Nat) (b : BarrierRec) (s : State) : State :=
  let b := { b with relAt := s.now }
  if m ≤ s.now ∨ (b.kind = 2 ∧ s.fld F.SM_STATUS_STATE ≠ 0) then barrierGoLate b 3 s
  else if admitArmedFor s b ∧ !admitCan s m then barrierGoLate b 4 s
  else (s.setBarrier (some { b with phase := .released, m := m })).armGate .barrier m

/-- The root has the N-th distinct arrival: RELEASE goes to every participant (R69, R426). -/
def gatherDone (b : BarrierRec) (s : State) : State :=
  let t := s.now + nsUnits b.leadNs
  let m := if b.kind = 2 ∧ s.activeBankNo.isSome then s.nextBoundary t else t
  let s := s.setBarrier (some { b with gathered := true })
  let s := s.forAll (b.arrivals.filter (fun a => a.2 ≠ s.device)) (fun a s => barrierSend 2 { b with index := a.1 } a.2 m s)
  if b.arrivals.any (fun a => a.2 = s.device) then releaseHere m { b with gathered := true } s else s

/-- The root takes an arrival. -/
def arriveHere (index src : Nat) (b : BarrierRec) (s : State) : State :=
  if b.gathered ∨ b.arrivals.any (fun a => a.1 = index) then s
  else
    let b := { b with arrivals := b.arrivals ++ [(index, src)] }
    let s := s.setBarrier (some b)
    if b.n ≤ b.arrivals.length then gatherDone b s else s

/-- The device is ready for the start a barrier releases (R69). -/
def barrierReady (s : State) (b : BarrierRec) : Bool :=
  if b.kind = 1 then
    match s.slotOf b.field with
    | some n => s.fld F.DV_FIELD_SLOT_STATE [n] = 2 && s.fld F.SM_FIELD_STATE_FENCED [n] = 0
    | none => false
  else s.fld F.SM_ADMIT_ARMED = 1

/-- BARRIER_ARRIVE_SEND. -/
def barrierArriveSend (s : State) : State :=
  match s.time.barrier with
  | some b =>
    if b.phase = .opened ∧ s.timeValid ∧ s.fld F.TK_STATUS_BOUND_PS ≤ 1500 ∧ barrierReady s b then
      let b := { b with phase := .arrived }
      let s := s.setBarrier (some b)
      if b.root = s.device then arriveHere b.index s.device b s else barrierSend 1 b b.root s.now s
    else s
  | none => s

def execBarrierArriveSend (s : State) : Result := run .barrierArriveSend s (barrierArriveSend s)

/-- What a barrier packet says (*Barrier payload*), and the device that sent it. -/
structure BarrierMsg where
  id : Nat
  field : Nat
  index : Nat
  count : Nat
  src : Nat
  deriving DecidableEq, Repr

def barrierMsgOf (p : Packet) : BarrierMsg := ⟨p.pay 2 2, p.pay 4 2, p.pay 6 2, p.pay 8 8, p.h.srcDevice⟩

/-- A barrier is open until it has released, been aborted or answered LATE (R71). -/
def BarrierRec.open_ (b : BarrierRec) : Bool := b.phase = .opened || b.phase = .arrived || b.phase = .released

/-- A root that has sent RELEASE still collects the late participants (R69). -/
def BarrierRec.collects (s : State) (b : BarrierRec) : Bool := b.root = s.device && b.gathered && b.phase ≠ .aborted

/-- The barrier packet of one kind stored under `pid` for the Time Keeper of this device. -/
def barrierPkt (s : State) (pid kind : Nat) : Option Pkt :=
  match s.pkt pid with
  | some k => if k.out = 5 ∧ k.stage = .queued ∧ k.p.h.typ = 0x11 ∧ k.p.pay 0 1 = kind then some k else none
  | none => none

/-- A barrier packet is taken and its cells freed. It acts on the barrier it names while `live` says so; one that matches none is
discarded and logged (R71), and one whose CHECK fails is discarded whole (R129). -/
def onBarrier (pid kind : Nat) (live : State → BarrierRec → Bool) (f : BarrierMsg → BarrierRec → State → State) (s : State) : State :=
  match barrierPkt s pid kind with
  | none => s
  | some k =>
    let s := freePkt pid 8 s
    let m := barrierMsgOf k.p
    if !checkOk k.p then checkFailure k s
    else
      match s.time.barrier with
      | some b => if b.id = m.id ∧ b.field = m.field ∧ live s b then f m b s else timeEvent 0x09 s
      | none => timeEvent 0x09 s

/-- BARRIER_ARRIVE at the root. -/
def barrierArrive (pid : Nat) (s : State) : State :=
  onBarrier pid 1 (fun _ b => b.open_) (fun m b s =>
    if b.root = s.device ∧ m.index < b.n then arriveHere m.index m.src b s else timeEvent 0x09 s) s

def execBarrierArrive (pid : Nat) (s : State) : Result := run (.barrierArrive pid) s (barrierArrive pid s)

/-- BARRIER_RELEASE at a participant. -/
def barrierRelease (pid : Nat) (s : State) : State :=
  onBarrier pid 2 (fun _ b => b.open_) (fun m b s =>
    if m.index ≠ b.index then timeEvent 0x09 s
    else if b.phase = .arrived then releaseHere m.count b s else s) s

def execBarrierRelease (pid : Nat) (s : State) : Result := run (.barrierRelease pid) s (barrierRelease pid s)

/-- BARRIER_TIMEOUT at the root: ABORT goes to every participant that arrived, and the outcome to the fabric manager. -/
def barrierTimeout (s : State) : State :=
  match s.time.barrier with
  | some b =>
    if b.root = s.device ∧ !b.gathered ∧ b.phase ≠ .aborted ∧ b.openedAt + usUnits b.timeoutUs ≤ s.now then
      let s := s.forAll (b.arrivals.filter (fun a => a.2 ≠ s.device)) (fun a s => barrierSend 4 { b with index := a.1 } a.2 0 s)
      barrierOutcome { b with phase := .aborted } (admitOver b 2 (s.setBarrier (some { b with phase := .aborted, gathered := true })))
    else s
  | none => s

def execBarrierTimeout (s : State) : Result := run .barrierTimeout s (barrierTimeout s)

/-- BARRIER_ABORT at a participant. -/
def barrierAbort (pid : Nat) (s : State) : State :=
  onBarrier pid 4 (fun _ b => b.open_) (fun m b s =>
    if m.index ≠ b.index then timeEvent 0x09 s
    else if b.phase = .released then s
    else admitOver b 2 (s.setBarrier (some { b with phase := .aborted }))) s

def execBarrierAbort (pid : Nat) (s : State) : Result := run (.barrierAbort pid) s (barrierAbort pid s)

/-- BARRIER_LATE at the root: the outcome is late, with the late participant. -/
def barrierLate (pid : Nat) (s : State) : State :=
  onBarrier pid 3 (fun s b => b.collects s) (fun m b s =>
    if m.index < b.n then
      let b := { b with lateOnes := (b.lateOnes.filter (· ≠ m.index)) ++ [m.index] }
      barrierOutcome b (s.setBarrier (some b))
    else timeEvent 0x09 s) s

def execBarrierLate (pid : Nat) (s : State) : Result := run (.barrierLate pid) s (barrierLate pid s)

end Sys2Proof.Machine
end

