-- ==== Sys2Proof/Machine/Monitor.lean ====
section
/-! DEFINITION. Hang watch (R401), transmit permits and heartbeats (R406), the device monitor pair (R410), and the event
log (R420 to R423). -/

namespace Sys2Proof.Machine

/-! ## Hang watch (R401) -/

/-- The pace region of a tile (R40). -/
def tileRegion (s : State) (d t : Nat) : Nat := (if s.physRow d (t / 64) < 17 then 0 else 2) + (if t % 64 < 32 then 0 else 1)

/-- The index of the crossing between two dies (R24). -/
def crossingIndex (d e : Nat) : Nat :=
  let a := min d e
  a * (15 - a) / 2 + (max d e - a - 1)

/-- A unit of a tile holds work: a Waybill runs on it, or waits for it in its issue queue. -/
def unitWorks (s : State) (d t unit : Nat) : Bool := (s.running d t unit).isSome || s.issueQ d t unit ≠ []

/-- HANG_STALL: a unit of a powered die that holds work misses the bound. A tile unit's running Waybill is poisoned (row 1). -/
def hangStall (u : Stalled) (s : State) : State :=
  match u with
  | .tile d t unit =>
    if !s.tileExists d t || s.fld F.SM_DIE_STATE_POWERED [d] = 0 || !unitWorks s d t unit then s
    else
      let r := tileRegion s d t
      let p := s.pace d r
      let s := s.bump F.SM_HANG_TILE_STALLS [d]
      let s := match s.running d t unit with
        | some n => if (s.slot d t n).status = none then failRun d t n 0x05 0 (poisonStream d t n s) else s
        | none => s
      s.report ⟨1, false, [20, d, t], d, d, (s.tileField d t).getD 0xFFFF, some (t / 64), true, 0x07, 0x01, true, hangDetail unit r p (hangBound p)⟩
  | .shared d unit region =>
    if s.fld F.SM_DIE_STATE_POWERED [d] = 0 then s
    else
      let p := s.pace d region
      (s.bump F.SM_HANG_SHARED_STALLS [d]).report ⟨7, false, [7, d, unit], d, d, 0xFFFF, none, true, 0x07, 0x02, false, hangDetail unit region p (hangBound p)⟩
  | .crossing d e =>
    if s.fld F.SM_DIE_STATE_POWERED [d] = 0 then s
    else
      let p := s.pace d 4
      (s.bump F.SM_HANG_SHARED_STALLS [d]).report ⟨9, false, [9, crossingIndex d e], d, e, 0xFFFF, none, true, 0x07, 0x03, false, hangDetail (crossingIndex d e) 4 p (hangBound p)⟩

def execHangStall (u : Stalled) (s : State) : Result := run (.hangStall u) s (hangStall u s)

/-! ## Permits and heartbeats (R406) -/

/-- PORT_PERMIT: unless it withholds them, the die monitor sends a permit; `beat` where the port returns its heartbeat. -/
def portPermit (h : Nat) (beat : Bool) (s : State) : State :=
  let r := s.half h
  if !s.halfExists h || r.withheld || s.fld F.SM_STATUS_STATE = 2 || s.fld F.SM_DIE_STATE_POWERED [h / 2] = 0 then s
  else s.setHalf h { r with permitAt := s.now, heartbeatAt := if beat then s.now else r.heartbeatAt }

def execPortPermit (h : Nat) (beat : Bool) (s : State) : Result := run (.portPermit h beat) s (portPermit h beat s)

/-- PERMIT_LOSS: no permit for 4 µs. -/
def permitLoss (h : Nat) (s : State) : State :=
  if s.halfExists h ∧ s.fld F.SM_DIE_STATE_POWERED [h / 2] = 1 ∧ (s.half h).permitAt + usUnits 4 ≤ s.now then silencePort h s else s

def execPermitLoss (h : Nat) (s : State) : Result := run (.permitLoss h) s (permitLoss h s)

/-- HEARTBEAT_LOSS: no heartbeat for 4 µs: permits are withheld from now on, the half-port is silent, and the fault of row 11 is
reported. -/
def heartbeatLoss (h : Nat) (s : State) : State :=
  let r := s.half h
  if s.halfExists h ∧ s.fld F.SM_DIE_STATE_POWERED [h / 2] = 1 ∧ !r.withheld ∧ r.heartbeatAt + usUnits 4 ≤ s.now then
    let s := goSilent h 2 (s.setHalf h { r with withheld := true })
    s.report ⟨11, false, [11, h], h / 2, h / 2, 0xFFFF, none, false, 0x0C, 0x04, false, resetDetail 0 h 0 0⟩
  else s

def execHeartbeatLoss (h : Nat) (s : State) : Result := run (.heartbeatLoss h) s (heartbeatLoss h s)

/-- MONITOR_COMPARE: the second comparison in a row that differs makes the device fail-silent (R410). -/
def monitorCompare (agree : Bool) (s : State) : State :=
  if agree then { s with safe := { s.safe with differ := 0 } }
  else if s.safe.differ = 0 then { s with safe := { s.safe with differ := 1 } }
  else silenceDevice (s.setFld F.SM_STATUS_MON_DISAGREE 1)

def execMonitorCompare (agree : Bool) (s : State) : Result := run (.monitorCompare agree) s (monitorCompare agree s)

/-! ## The event log (R420 to R423) -/

/-- The 64 bytes of a record (*Event record*). -/
def eventBytes (e : Event) : List Byte :=
  let l := beBytes 1 e.cls ++ beBytes 1 e.code ++ beBytes 1 e.source ++ beBytes 1 e.flags ++ beBytes 4 e.seq ++ beBytes 8 e.time
    ++ beBytes 2 e.field ++ beBytes 1 e.slot ++ [0] ++ bytesOfLen 40 e.detail
  l ++ beBytes 4 (crc32 l)

/-- Publish one record in both copies. -/
def publish (e : Event) (s : State) : State :=
  let ring := s.recorder.ring ++ [e]
  let ring := if 65536 < ring.length then ring.drop 1 else ring
  let s : State := { s with recorder := { s.recorder with ring := ring } }
  (s.setFld F.EV_STATUS_HEAD e.seq).setFld F.EV_STATUS_HELD ring.length

/-- The LOST record of a class. -/
def lostRecord (c : Nat) (s : State) : State :=
  let d := beBytes 1 c ++ beBytes 4 (s.fld F.EV_LOST_COUNT [c]) ++ beBytes 8 (s.fld F.EV_LOST_FIRST_COUNT [c]) ++ beBytes 8 (s.fld F.EV_LOST_LAST_COUNT [c])
  publish ⟨0x10, 0x00, 8, if s.fld F.SM_STATUS_STATE ≠ 0 then 16 else 0, (s.fld F.EV_STATUS_HEAD + 1) % 2 ^ 32, s.now, 0xFFFF, 0xFF, d⟩ s

/-- EVENT_WRITE: the oldest entry of the FIFO is written; when that empties it, the classes that lost events are told. -/
def eventWrite (s : State) : State :=
  match s.recorder.fifo with
  | [] => s
  | e :: l =>
    let s : State := { s with recorder := { s.recorder with fifo := l } }
    let s := publish e (s.setFld F.EV_STATUS_FIFO_DEPTH l.length)
    if l = [] then
      let s := s.forAll ((List.range 16).filter (fun c => s.recorder.lostSince.testBit c)) lostRecord
      { s with recorder := { s.recorder with lostSince := 0 } }
    else s

def execEventWrite (s : State) : Result := run .eventWrite s (eventWrite s)

end Sys2Proof.Machine
end

