-- ==== Sys2Proof/Machine/Sheaf.lean ====
section
/-! DEFINITION. The meanings of the Sheaf commands (chapter 9): the routines, contributions and their outcomes, counts and
notices, results, the deadline, and the small-collective path. -/

namespace Sys2Proof.Machine

/-! ## Plans (R271, R272) -/

/-- Input entry `k` of a plan's bytes. -/
def sheafInputAt (l : List Byte) (k : Nat) : SheafInput :=
  let b (i : Nat) : Nat := (l.getD (64 + 16 * k + i) 0).toNat
  let le (i n : Nat) : Nat := leNat ((l.drop (64 + 16 * k + i)).take n)
  ⟨le 0 3, b 3 % 4 = 2, (b 3).testBit 2, le 4 4, le 8 4⟩

/-- Target entry `k` of a plan's bytes with `ni` inputs. -/
def sheafTargetAt (l : List Byte) (ni k : Nat) : SheafTarget :=
  let a := 64 + 16 * ni + 32 * k
  let b (i : Nat) : Nat := (l.getD (a + i) 0).toNat
  let le (i n : Nat) : Nat := leNat ((l.drop (a + i)).take n)
  ⟨le 0 3, b 3 = 2, b 4, b 5, le 8 4, le 12 4, le 16 5, le 24 4⟩

/-- The plan that starts a byte string; entries follow the 64-byte header. -/
def sheafPlanOf (l : List Byte) : SheafPlan :=
  let b (i : Nat) : Nat := (l.getD i 0).toNat
  let le (i n : Nat) : Nat := leNat ((l.drop i).take n)
  { id := le 0 2, op := b 2, inFmt := b 3, outFmt := b 4, mode := b 5, n := le 8 4, parent := le 12 3, laneChunks := b 16, deadlineUs := le 20 4, inputs := (List.range (b 6)).map (sheafInputAt l), targets := (List.range (b 7)).map (sheafTargetAt l (b 6)) }

/-- Bytes a plan takes. -/
def planBytes (l : List Byte) : Nat := 64 + 16 * (l.getD 6 0).toNat + 32 * (l.getD 7 0).toNat

/-- Bytes `a` to `b` of a plan are zero. -/
def planZero (l : List Byte) (a b : Nat) : Bool := allZero ((l.drop a).take (b + 1 - a))

/-- An input entry is in range (*Input entry*). -/
def sheafInputOk (p : SheafPlan) (l : List Byte) (k : Nat) : Bool :=
  let a := 64 + 16 * k
  let kind := (l.getD (a + 3) 0).toNat
  match p.inputs[k]? with
  | none => false
  | some x =>
    decide (x.rank < 2 ^ 20) && kind < 8 && (kind % 4 = 1 || kind % 4 = 2) && planZero l (a + 12) (a + 15) && x.first % p.chunk = 0 &&
      (if x.var then x.count = 0 && decide (x.first ≤ p.n)
       else decide (x.first + x.count ≤ p.n) && ((x.first + x.count) % p.chunk = 0 || x.first + x.count = p.n))

/-- A target entry is in range (*Target entry*). -/
def sheafTargetOk (p : SheafPlan) (l : List Byte) (k : Nat) : Bool :=
  let a := 64 + 16 * p.inputs.length + 32 * k
  let kind := (l.getD (a + 3) 0).toNat
  match p.targets[k]? with
  | none => false
  | some x =>
    decide (x.rank < 2 ^ 20) && (kind = 1 || kind = 2) && planZero l (a + 6) (a + 7) && planZero l (a + 21) (a + 23) && planZero l (a + 28) (a + 31)
      && x.first % max p.per 1 = 0 && decide (x.first + x.count ≤ p.n) && ((x.first + x.count) % max p.per 1 = 0 || x.first + x.count = p.n)
      && x.offset % 64 = 0 && (!x.child || (x.window = 0 && x.epoch = 0 && x.offset = 0 && x.ref = noRef))

/-- R272's refusals with DETAIL 0x02, but for R296's. -/
def sheafPlanOk (l : List Byte) (p : SheafPlan) : Bool :=
  opRow p.op p.inFmt p.outFmt && p.mode < 64 && decide (1 ≤ p.inputs.length ∧ p.inputs.length ≤ 64) && decide (p.targets.length ≤ 64)
    && decide (1 ≤ p.n ∧ p.n ≤ 2 ^ 28) && decide (p.parent < 2 ^ 20) && planZero l 15 15 && planZero l 17 19 && planZero l 24 63
    && decide (1 ≤ p.laneChunks ∧ p.laneChunks ≤ (if p.wide then 16 else 32)) && (!p.small || p.laneChunks = 1)
    && decide (1 ≤ p.deadlineUs ∧ p.deadlineUs ≤ 1000000)
    && (List.range p.inputs.length).all (sheafInputOk p l) && (List.range p.targets.length).all (sheafTargetOk p l)
    && (p.inputs.map (·.rank)).dedup = p.inputs.map (·.rank) && !(opOrder p.op && p.inputs.any (·.var))
    && (p.root = decide (p.parent = 0)) && (!p.sched || p.small)
    && (!p.small || (decide (p.n * unitBytes p.inFmt 1 ≤ 16 ∧ p.n * p.outSize ≤ 16) && !p.inputs.any (·.var) && !p.outMx && !decide (0x10 ≤ p.inFmt ∧ p.inFmt ≤ 0x14)))

/-- The nodes a Field has on a die. -/
def nodesOf (s : State) (d f : Nat) : List SheafNode :=
  s.sheaf.nodes.filterMap (fun e => match e.1 with
    | [nd, nf, _] => if nd = d ∧ nf = f then e.2 else none
    | _ => none)

/-- Chunks of narrow or wide lanes that a Field's nodes hold on a die. -/
def chunksHeld (s : State) (d f : Nat) (wide : Bool) : Nat :=
  ((nodesOf s d f).map (fun n => if n.plan.wide = wide then n.plan.laneChunks else 0)).sum

/-- DEADLINE_US keeps to R296. -/
def deadlineFits (s : State) (d slot us : Nat) : Bool :=
  let a := s.fld F.GK_OWNER_TALLY_AGE_US [d, 16 + slot]
  a = 0 || decide (2 * us + 2 * s.fld F.NI_AGE_LIMIT_US ≤ a)

def sheafDefine (d t : Nat) (w : List Byte) (s : State) : Except Nat (List Nat × State) :=
  let at_ := arg w 0
  if at_ % 64 ≠ 0 ∨ tileSize < at_ + 64 ∨ !argsZero w 1 then .error 0x02
  else
    let len := planBytes (s.readMem d t at_ 64)
    if tileSize < at_ + len then .error 0x02
    else
      let l := s.readMem d t at_ len
      let p := sheafPlanOf l
      match s.tileSlot d t with
      | none => .error 0x03
      | some slot =>
        let f := (s.tileField d t).getD 0
        let k := [d, slot]
        if !sheafPlanOk l p || !deadlineFits s d slot p.deadlineUs then .error 0x02
        else if p.id < s.fld F.SH_GRANT_ID_BASE k ∨ s.fld F.SH_GRANT_ID_BASE k + s.fld F.SH_GRANT_ID_COUNT k ≤ p.id ∨ (s.node d f p.id).isSome
            ∨ s.fld F.SH_GRANT_NODES k ≤ (nodesOf s d f).length
            ∨ (if p.wide then s.fld F.SH_GRANT_WIDE_CHUNKS k else s.fld F.SH_GRANT_NARROW_CHUNKS k) < chunksHeld s d f p.wide + p.laneChunks
        then .error 0x03
        else .ok ([], s.setNode d f p.id (some { field := f, tile := t, rank := (s.tileRank d t).getD 0, plan := p }))

def execSheafDefine (d t : Nat) (s : State) : Result := run (.sheafDefine d t) s (routine d t 0x0010 0 (sheafDefine d t) s)

/-- The node a routine of tile `t` names: one anchored on it. -/
def ownNode (s : State) (d t id : Nat) : Option (Nat × SheafNode) :=
  let f := (s.tileField d t).getD 0
  ((s.node d f id).filter (fun n => n.tile = t)).map (fun n => (f, n))

def sheafUndefine (d t : Nat) (w : List Byte) (s : State) : Except Nat (List Nat × State) :=
  if 2 ^ 16 ≤ arg w 0 ∨ !argsZero w 1 then .error 0x02
  else match ownNode s d t (arg w 0) with
    | none => .error 0x02
    | some (f, n) => if n.openedAt.isSome then .error 0x03 else .ok ([], removeNode d f (arg w 0) s)

def execSheafUndefine (d t : Nat) (s : State) : Result := run (.sheafUndefine d t) s (routine d t 0x0011 0 (sheafUndefine d t) s)

/-- Chunks of a node that hold lanes: those of its window that have been given something. -/
def chunksOpen (n : SheafNode) : Nat := (n.chunks.filter (fun e => !e.2.done)).length

def sheafQuery (d t : Nat) (w : List Byte) (s : State) : Except Nat (List Nat × State) :=
  if 2 ^ 16 ≤ arg w 0 ∨ !argsZero w 1 then .error 0x02
  else match ownNode s d t (arg w 0) with
    | none => .error 0x02
    | some (_, n) => .ok ([n.cur + 16 * b2n n.openedAt.isSome + 256 * chunksOpen n, n.completed, n.poisonedEver], s)

def execSheafQuery (d t : Nat) (s : State) : Result := run (.sheafQuery d t) s (routine d t 0x0012 3 (sheafQuery d t) s)

/-! ## Packets at output 3 (R266) -/

/-- The node that a Sheaf packet names, and whether its round is the open one or the next; anything else is refused as
MALFORMED. A fenced Field's engines take nothing (R404). -/
def atNode (k : Pkt) (id : Nat) (f : SheafNode → State → State) (s : State) : State :=
  ownedThen k (fun s =>
    if s.fieldFenced k.p.h.field then s.bump F.GK_DROP_FENCED [k.die]
    else match s.node k.die k.p.h.field id with
      | some n => if n.tile = k.dstTile then f n s else refuse k.die 2048 k.p 4 0 (.sheaf k.die) s
      | none => refuse k.die 2048 k.p 4 0 (.sheaf k.die) s) s

/-- A packet acknowledged by its slice. -/
def nodeAck (k : Pkt) (s : State) : State := sendAck k.die 2048 k.p (.sheaf k.die) s

/-- The input of a plan that a rank names. -/
def inputOf (p : SheafPlan) (rank : Nat) : Option Nat := p.inputs.findIdx? (fun i => i.rank = rank)

/-- Round `r` as the node sees it: the open one, the next, or neither. -/
def roundOf (n : SheafNode) (r : Nat) : Option Bool := if r = n.cur then some false else if r = (n.cur + 1) % 16 then some true else none

/-- Change one round of a node, open the round, and settle the node. -/
def touchRound (d f id : Nat) (next : Bool) (g : SheafRound → SheafRound) (s : State) : State :=
  settleNode d f id (openRound d f id next (modNode d f id (fun n => n.setRound next (g (n.round next))) s))

/-- The first chunk and the number of chunks of a contribution, or nothing where it breaks R278. -/
def contribChunks (p : SheafPlan) (x : SheafInput) (q : Packet) : Option (Nat × Nat) :=
  let e := q.elemBase % 2 ^ 28
  if e % p.chunk ≠ 0 ∨ p.n ≤ e ∨ p.small then none
  else if x.child then
    let units := if p.wide then 71 else 1 + 16 * p.words.1
    if q.elemFormat = 0 ∧ q.h.units = units ∧ (x.var ∨ (x.first ≤ e ∧ e < x.first + x.count)) then some (e / p.chunk, 1) else none
  else
    let mx := decide (0x10 ≤ p.inFmt ∧ p.inFmt ≤ 0x14)
    let bytes := q.h.units * 64
    let seg := match elemOf p.inFmt with
      | some (.mx f) => segBytes f
      | _ => 0
    let size := unitBytes p.inFmt 1
    let cnt := if mx then bytes / max seg 1 * 2048 else bytes / max size 1
    let whole := if mx then bytes % max seg 1 = 0 ∧ e % 2048 = 0 else bytes % (p.chunk * size) = 0
    let last := min (e + cnt) p.n
    if q.elemFormat = p.inFmt ∧ whole ∧ q.waybillRef = noRef ∧ (x.var ∨ (x.first ≤ e ∧ last ≤ x.first + x.count)) then
      some (e / p.chunk, (last - e + p.chunk - 1) / p.chunk) else none

/-- SHEAF_CONTRIB_RECEIVE: *Contribution outcomes* (R279). -/
def contribReceive (k : Pkt) (pid : Nat) (s : State) : State :=
  let q := k.p
  let d := k.die
  atNode k q.sheafId (fun n s =>
    let p := n.plan
    let bad (s : State) : State := refuse d 2048 q 4 0 (.sheaf d) s
    let busy (s : State) : State := refuse d 2048 q 3 0 (.sheaf d) (s.bump F.SH_STAT_B_HORIZON_BUSY [d])
    match (inputOf p q.h.srcRank).bind (fun i => (p.inputs[i]?).bind (fun x => (contribChunks p x q).map (fun c => (i, x, c)))) with
    | none => bad s
    | some (i, x, c0, cn) =>
      match roundOf n (q.elemBase / 2 ^ 28) with
      | none => nodeAck k (s.bump F.SH_STAT_STALE [d])
      | some next =>
        let r := n.round next
        let cs := (List.range cn).map (fun j => c0 + j)
        let declared := cs.all (fun c => covers p r i c)
        if x.var ∧ !declared then (if i ∈ r.finals then bad s else busy s)
        else if cs.any (fun c => decide (n.low next + 256 ≤ c)) then busy s
        else
          let has (c : Nat) : Bool := tabGet 0 r.recv [i, c] ≠ 0 || (!next && (n.chunkRec c).done)
          if cs.all has then nodeAck k (s.bump F.SH_STAT_DUPLICATE [d])
          else if cs.any has then bad s
          else
            let s := noteMark d 2048 q s
            let s := match s.pkt pid with
              | some y => s.setPkt pid (some { y with stage := .held })
              | none => s
            touchRound d q.h.field q.sheafId next (fun r =>
              { r with recv := cs.foldl (fun t c => tabSet 0 t [i, c] 1) r.recv, held := r.held ++ [⟨pid, i, c0, cn, 0⟩] }) (nodeAck k s)) s

def execSheafContribReceive (pid : Nat) (s : State) : Result :=
  run (.sheafContribReceive pid) s (receive pid 3 [0x82] (fun k s => contribReceive k pid s) s)

/-- CHUNK_ACCUMULATE: the next chunk of a held contribution, when it is in the window (R280). -/
def chunkAccumulate (d f id pid chunk : Nat) (fault : Bool) (s : State) : State :=
  match s.node d f id with
  | none => s
  | some n =>
    match n.now_.held.find? (fun h => h.pid = pid) with
    | some h =>
      if n.openedAt.isSome ∧ h.first + h.taken = chunk ∧ chunk ∈ n.window then settleNode d f id (takeChunk d f id h fault s) else s
    | none => s

def execChunkAccumulate (d f id pid chunk : Nat) (fault : Bool) (s : State) : Result :=
  run (.chunkAccumulate d f id pid chunk fault) s (chunkAccumulate d f id pid chunk fault s)

/-! ## Counts and notices (R283, R289, R291) -/

/-- The ranges of a COVER, as (first chunk, chunks). -/
def coverRanges (q : Packet) : List (Nat × Nat) :=
  ((List.range 3).map (fun i => (q.pay (8 + 8 * i) 4, q.pay (12 + 8 * i) 4))).filter (fun r => r.2 ≠ 0)

/-- No two ranges of a list share a chunk. -/
def apart : List (Nat × Nat) → Bool
  | [] => true
  | r :: l => l.all (fun x => decide (r.1 + r.2 ≤ x.1 ∨ x.1 + x.2 ≤ r.1)) && apart l

def coverReceive (k : Pkt) (s : State) : State :=
  let q := k.p
  let d := k.die
  let id := q.pay 2 2
  let final := (q.pay 1 1).testBit 4
  atNode k id (fun n s =>
    let bad (s : State) : State := refuse d 2048 q 4 0 (.sheaf d) s
    match (inputOf n.plan q.h.srcRank).bind (fun i => (n.plan.inputs[i]?).bind (fun x => if x.var then some i else none)) with
    | none => bad s
    | some i =>
      match roundOf n (q.pay 1 1 % 16) with
      | none => nodeAck k (s.bump F.SH_STAT_STALE [d])
      | some next =>
        let r := n.round next
        let old := tabGet [] r.covers [i]
        let new := (coverRanges q).filter (fun x => x ∉ old)
        if new = [] ∧ (!final ∨ i ∈ r.finals) then touchRound d q.h.field id next (fun r => r) (nodeAck k s)
        else if !apart (old ++ new) || new.any (fun x => decide (n.plan.chunks < x.1 + x.2)) || i ∈ r.finals then bad s
        else
          touchRound d q.h.field id next (fun r =>
            { r with covers := tabSet [] r.covers [i] (old ++ new), finals := if final then r.finals ++ [i] else r.finals }) (nodeAck k s)) s

def execSheafCountCover (pid : Nat) (s : State) : Result :=
  run (.sheafCountCover pid) s (receive pid 3 [0x07] (fun k s => if k.p.pay 0 1 = 1 then coverReceive k s else letGo pid s) s)

/-- A notice from a parent: the node's targets are told of the range (R289). -/
def parentNotice (d f id e n : Nat) (nd : SheafNode) (s : State) : State :=
  let p := nd.plan
  settleNode d f id (s.forAll ((List.range p.targets.length).zip p.targets) (fun x s =>
    s.forAll (blocksOf p x.2) (fun b s => if b < e + n ∧ e < b + blockLen p x.2 b then sendOnce d f id x.1 b x.2 none s else s)))

/-- A notice at a node: from its parent, or from an input, whose chunks it poisons and marks received (R288, R297). -/
def noticeAtNode (k : Pkt) (s : State) : State :=
  let q := k.p
  let d := k.die
  let f := q.h.field
  let id := q.pay 2 2
  let e := q.pay 8 4
  let cnt := q.pay 12 4
  atNode k id (fun n s =>
    let p := n.plan
    match roundOf n (q.pay 1 1 % 16) with
    | none => nodeAck k (s.bump F.SH_STAT_STALE [d])
    | some next =>
      if !p.root ∧ q.h.srcRank = p.parent then
        (if next then nodeAck k (s.bump F.SH_STAT_STALE [d]) else parentNotice d f id e cnt n (nodeAck k s))
      else match inputOf p q.h.srcRank with
        | none => refuse d 2048 q 4 0 (.sheaf d) s
        | some i =>
          let cs := (chunksIn p e cnt).filter (fun c => decide (c < p.chunks) && !(!next && (n.chunkRec c).done))
          let s := nodeAck k s
          let s := openRound d f id next s
          let s := s.forAll cs (fun c s => poisonIn next d f id c false s)
          touchRound d f id next (fun r => { r with recv := cs.foldl (fun t c => if tabGet 0 t [i, c] = 0 then tabSet 0 t [i, c] 2 else t) r.recv }) s) s

/-- A notice at a window target: poisoned credits for the slot it names (R289). -/
def noticeAtTile (k : Pkt) (s : State) : State :=
  let q := k.p
  let d := k.die
  let t := k.dstTile
  ownedThen k (fun s =>
    if q.h.roleEpoch ≠ s.roleEpoch d t then refuse d t q 2 (s.roleEpoch d t) (.tile d t) s
    else
      let s := countRef d t (q.pay 16 4) s
      match refSlot s d t (q.pay 16 4) with
      | some n =>
        if s.aged q.h then s.bump F.NI_DROP_A_AGED [d]
        else sendAck d t q (.tile d t) (s.forAll (List.range (q.pay 20 2)) (fun _ s => creditRef d t n true s))
      | none => refuse d t q 4 0 (.tile d t) s) s

/-- A POISON notice reaches a Winnower job in the way a Sheaf's does (R303, R309): nothing of its Sheaf is known here, so the
slice of jobs takes it where JOB names one. -/
def noticeForJob (s : State) (k : Pkt) : Option (Nat × WinnowJob) :=
  let j := k.p.pay 2 2
  if (s.node k.die k.p.h.field j).isSome then none
  else ((s.job k.p.h.field j).filter (fun x => x.die = k.die && x.tile = k.dstTile)).map (fun x => (j, x))

/-- The input of a job fed by a rank, poisoned for the round a notice names. -/
def noticeAtJob (k : Pkt) (j : Nat) (x : WinnowJob) (s : State) : State :=
  let f := k.p.h.field
  let rd := k.p.pay 1 1 % 16
  let s := nodeAck k s
  if x.plan.inputs.any (fun i => i.rank = k.p.h.srcRank) then
    if rd = x.cur then openJob f j (s.setJob f j (some { x with now_ := { x.now_ with poisoned := true } }))
    else if rd = (x.cur + 1) % 16 then s.setJob f j (some { x with next_ := { x.next_ with poisoned := true } })
    else s.bump F.WN_STAT_STALE [x.die]
  else s

/-- SHEAF_COUNT_POISON. -/
def sheafCountPoison (pid : Nat) (s : State) : State :=
  match s.pkt pid with
  | some k =>
    if k.p.pay 0 1 ≠ 2 then s
    else if k.out = 2 then receive pid 2 [0x07] noticeAtTile s
    else receive pid 3 [0x07] (fun k s => match noticeForJob s k with
      | some (j, x) => noticeAtJob k j x s
      | none => noticeAtNode k s) s
  | none => s

def execSheafCountPoison (pid : Nat) (s : State) : Result := run (.sheafCountPoison pid) s (sheafCountPoison pid s)

/-! ## Results and deadlines (R286, R290) -/

/-- SHEAF_RESULT_RECEIVE: a CHILD node passes its parent's packets on. -/
def resultReceive (k : Pkt) (s : State) : State :=
  let q := k.p
  let d := k.die
  let f := q.h.field
  let id := q.sheafId
  atNode k id (fun n s =>
    let p := n.plan
    let e := q.elemBase % 2 ^ 28
    if p.root ∨ q.h.srcRank ≠ p.parent ∨ !mxWhole q then refuse d 2048 q 4 0 (.sheaf d) s
    else if q.elemBase / 2 ^ 28 ≠ n.cur then nodeAck k (s.bump F.SH_STAT_STALE [d])
    else
      let s := openRound d f id false (nodeAck k s)
      settleNode d f id (s.forAll ((List.range p.targets.length).zip p.targets) (fun x s =>
        if e ∈ blocksOf p x.2 then
          let len := match elemOf p.outFmt with
            | some (.mx m) => segBytes m
            | _ => blockLen p x.2 e * p.outSize
          sendOnce d f id x.1 e x.2 (some (q.data.take len)) s
        else s))) s

def execSheafResultReceive (pid : Nat) (s : State) : Result :=
  run (.sheafResultReceive pid) s (receive pid 3 [0x83] resultReceive s)

/-- DETAIL of an ENGINE event: the Sheaf ID, job or context, and the target rank. -/
def engineDetail (id rank : Nat) : List Byte := beBytes 2 id ++ beBytes 3 rank

/-- SHEAF_DEADLINE: the round's incomplete chunks close as poisoned. -/
def sheafDeadline (d f id : Nat) (s : State) : State :=
  match s.node d f id with
  | some n =>
    match n.openedAt with
    | some m =>
      if m + usUnits n.plan.deadlineUs ≤ s.now then
        settleNode d f id (closePoisoned d f id ((s.bump F.SH_STAT_B_DEADLINES [d]).log 0x0E 0x02 d (engineDetail id n.rank) f))
      else s
    | none => s
  | none => s

def execSheafDeadline (d f id : Nat) (s : State) : Result := run (.sheafDeadline d f id) s (sheafDeadline d f id s)

/-! ## The small-collective path (R292) -/

/-- A SHEAF_SMALL packet at a SMALL node, in its open round or the next. -/
def atSmall (k : Pkt) (f : SheafNode → Bool → State → State) (s : State) : State :=
  atNode k (k.p.pay 2 2) (fun n s =>
    if !n.plan.small then refuse k.die 2048 k.p 4 0 (.sheaf k.die) s
    else match roundOf n (k.p.pay 1 1 % 16) with
      | some next => f n next s
      | none => s.bump F.SH_STAT_STALE [k.die]) s

/-- A round of a small node with the input's fault noted, where adding it fails a residue check (R220, R288). -/
def SheafRound.faulty (r : SheafRound) (i : Nat) (fault : Bool) : SheafRound := if fault then { r with faults := r.faults ++ [i] } else r

/-- SMALL_CONTRIB: one contribution of each LEAF a round; `fault` where adding it fails a residue check. -/
def smallContrib (k : Pkt) (pid : Nat) (fault : Bool) (s : State) : State :=
  let q := k.p
  let d := k.die
  atSmall k (fun n next s =>
    match (inputOf n.plan q.h.srcRank).filter (fun i => ((n.plan.inputs[i]?).map (fun x => !x.child)).getD false) with
    | none => refuse d 2048 q 4 0 (.sheaf d) s
    | some i =>
      if tabGet 0 (n.round next).recv [i, 0] ≠ 0 then s.bump F.SH_STAT_DUPLICATE [d]
      else
        let s := match s.pkt pid with
          | some y => s.setPkt pid (some { y with stage := .held })
          | none => s
        touchRound d q.h.field (q.pay 2 2) next (fun r => { r.faulty i fault with recv := tabSet 0 r.recv [i, 0] 1, held := r.held ++ [⟨pid, i, 0, 1, 0⟩] }) s) s

def execSmallContrib (pid : Nat) (fault : Bool) (s : State) : Result :=
  run (.smallContrib pid fault) s (receive pid 3 [0x06] (fun k s => if k.p.pay 0 1 = 1 then smallContrib k pid fault s else s) s)

/-- SMALL_PIECE: a piece of a CHILD's partial record; `fault` where adding the record fails a residue check. -/
def smallPiece (k : Pkt) (fault : Bool) (s : State) : State :=
  let q := k.p
  let d := k.die
  atSmall k (fun n next s =>
    let p := n.plan
    match (inputOf p q.h.srcRank).filter (fun i => ((p.inputs[i]?).map (·.child)).getD false) with
    | none => refuse d 2048 q 4 0 (.sheaf d) s
    | some i =>
      let parts := (16 + 8 * p.words.1 * p.n + 23) / 24
      let part := q.pay 4 1
      if q.pay 5 1 ≠ parts ∨ parts ≤ part then refuse d 2048 q 4 0 (.sheaf d) s
      else if tabGet none (n.round next).pieces [i, part] ≠ none then s.bump F.SH_STAT_DUPLICATE [d]
      else
        touchRound d q.h.field (q.pay 2 2) next (fun r =>
          let r := { r.faulty i fault with pieces := tabSet none r.pieces [i, part] (some (parts, q.body.drop 8)) }
          if (wholeRecord p r i).isSome then { r with recv := tabSet 0 r.recv [i, 0] 1 } else r) s) s

def execSmallPiece (pid : Nat) (fault : Bool) (s : State) : Result :=
  run (.smallPiece pid fault) s (receive pid 3 [0x06] (fun k s => if k.p.pay 0 1 = 2 then smallPiece k fault s else s) s)

/-- The result length of a Sheaf, 1 to 16 bytes: as the plan of a node here says, else as Config says. -/
def smallLen (s : State) (f id : Nat) : Nat :=
  match (List.range 8).findSome? (fun d => s.node d f id) with
  | some n => n.plan.n * n.plan.outSize
  | none => Config.smallLength f id % 16 + 1

/-- SMALL_RESULT: written at a window target as a PUT_SHORT of the result length, whose 16 bytes lie in one block, or, with POISONED
set, one poisoned credit. -/
def smallResult (k : Pkt) (s : State) : State :=
  let q := k.p
  let d := k.die
  let t := k.dstTile
  ownedThen k (fun s =>
    if q.h.roleEpoch ≠ s.roleEpoch d t then refuse d t q 2 (s.roleEpoch d t) (.tile d t) s
    else
      let s := countRef d t (q.pay 10 4) s
      let len := smallLen s q.h.field (q.pay 2 2)
      match (if oneBlock (q.pay 5 5) 16 then windowAt s d t (q.pay 4 1) (q.pay 5 5) len true else none), refSlot s d t (q.pay 10 4) with
      | some at_, some n =>
        if s.aged q.h then s.bump F.NI_DROP_A_AGED [d]
        else if (q.pay 1 1).testBit 4 then creditRef d t n true s
        else creditRef d t n false (commit d t at_ ((q.body.drop 16).take len) s)
      | _, _ => refuse d t q 4 0 (.tile d t) s) s

def execSmallResult (pid : Nat) (s : State) : Result :=
  run (.smallResult pid) s (receive pid 2 [0x06] smallResult s)

/-- SMALL_DOWN: the root's result reaches a CHILD, which sends its own RESULTs and DOWNs. -/
def smallDown (k : Pkt) (s : State) : State :=
  let q := k.p
  let d := k.die
  let f := q.h.field
  let id := q.pay 2 2
  atSmall k (fun n next s =>
    let p := n.plan
    if p.root ∨ q.h.srcRank ≠ p.parent then refuse d 2048 q 4 0 (.sheaf d) s
    else if next then s.bump F.SH_STAT_STALE [d]
    else
      let data := if (q.pay 1 1).testBit 4 then none else some (q.body.drop 16)
      let s := openRound d f id false s
      settleNode d f id (s.forAll ((List.range p.targets.length).zip p.targets) (fun x s => s.forAll (blocksOf p x.2) (fun e s => sendOnce d f id x.1 e x.2 data s)))) s

def execSmallDown (pid : Nat) (s : State) : Result :=
  run (.smallDown pid) s (receive pid 3 [0x06] (fun k s => if k.p.pay 0 1 = 4 then smallDown k s else s) s)

end Sys2Proof.Machine
end

