-- ==== Sys2Proof/Machine/Regview.lean ====
section
/-! DEFINITION. The registers as both paths see them (R14 to R18, R428 to R430): decoding an address, what a register
reads, and what a write changes. -/

namespace Sys2Proof.Machine

/-! ## Status codes (R430) -/

abbrev stOk : Nat := 0x00
abbrev stAddress : Nat := 0x01
abbrev stPower : Nat := 0x02
abbrev stSnap : Nat := 0x03
abbrev stFormat : Nat := 0x04
abbrev stAccess : Nat := 0x05
abbrev stRange : Nat := 0x06
abbrev stLate : Nat := 0x07
abbrev stState : Nat := 0x08
abbrev stSeq : Nat := 0x09
abbrev stGap : Nat := 0x0A
abbrev stTarget : Nat := 0x0B

/-! ## Addresses (R14, R428) -/

/-- The indices that reach `rest` bytes past a register's base. -/
def indicesAt : List Dim → Nat → Option (List Nat)
  | [], rest => if rest = 0 then some [] else none
  | d :: ds, rest =>
    let i := rest / d.stride
    if d.first ≤ i ∧ i < d.first + d.count then (indicesAt ds (rest % d.stride)).map (fun l => i :: l) else none

/-- The location prefix of a level: nothing, [die] or [die, tile]. -/
def levelKey (level die tile : Nat) : List Nat := if level = 0 then [] else if level = 1 then [die] else [die, tile]

/-- A register and where it lies. -/
def regAt (level die tile off : Nat) : Option (RegSpec × List Nat) :=
  regTable.findSome? (fun x =>
    if x.level = level ∧ x.base ≤ off then (indicesAt x.dims (off - x.base)).map (fun l => (x, levelKey level die tile ++ l)) else none)

/-- What an address names: nothing well formed, an unused offset, a tile missing on the grade, or a register. -/
inductive Place where
  | malformed
  | unused
  | missing
  | reg (x : RegSpec) (k : List Nat)

/-- An address is malformed (R428). -/
def malformedAddr (a : Nat) : Bool :=
  let level := a / 2 ^ 37
  decide (3 ≤ level) || a % 8 ≠ 0 || (level = 0 && (a / 2 ^ 34 % 8 ≠ 0 || a / 2 ^ 23 % 2048 ≠ 0)) || (level = 1 && a / 2 ^ 23 % 2048 ≠ 0)

def State.place (s : State) (a : Nat) : Place :=
  let level := a / 2 ^ 37
  let die := a / 2 ^ 34 % 8
  let tile := a / 2 ^ 23 % 2048
  if malformedAddr a then .malformed
  else if level = 2 && decide (s.tilesPerDie ≤ tile) then .missing
  else match regAt level die tile (a % 2 ^ 23) with
    | some (x, k) => .reg x k
    | none => .unused

/-- The registers of the VAUX domain (R27, R429). -/
def vauxReg : Reg → Bool
  | .DV_PART | .DV_ALERT | .TK_NOW | .TK_STATUS | .TK_CTRL | .TK_SRC | .TK_HOLD | .TK_PPS_OUT | .TK_PPS_IN | .TK_PTP | .TK_PTP_ROLES | .TK_EVENTS
  | .TK_REPLICA | .TK_PORT_CAL | .TK_PORT_MEAS | .FS_SEASONS | .FS_ORDER | .FS_OWNER_HASH | .FS_HEDGE_HASH | .EV_STATUS | .EV_LOST
  | .EV_LOST_FIRST | .EV_LOST_LAST | .DM_STATUS | .DM_ACK | .SL_STATUS | .SL_TIMES | .SL_NVM | .PW_CAP => true
  | _ => false

/-- Whether an address can be reached now: a status other than OK where it cannot (R428, R429). -/
def State.reach (s : State) (a : Nat) : Nat :=
  match s.place a with
  | .malformed => stAddress
  | p =>
    let vaux := match p with
      | .reg x _ => vauxReg x.reg
      | _ => false
    if vaux then stOk
    else if !s.boot.pwrGood ∨ (a / 2 ^ 37 ≠ 0 ∧ s.fld F.SM_DIE_STATE_POWERED [a / 2 ^ 34 % 8] = 0) then stPower
    else stOk

/-! ## Fields that are computed -/

/-- A count as a field of `w` bits shows it. -/
def sat (w n : Nat) : Nat := min n (2 ^ w - 1)

/-- Tags of a tile in a state, among the 4,096 (NI_TAG_STAT). -/
def tagsIn (s : State) (d t : Nat) (st : TagSt) : Nat :=
  let l := s.ni.tags.filter (fun e => e.1.take 2 = [d, t])
  let n := (l.filter (fun e => ((e.2.map (·.st)).getD .quarantine) = st)).length
  if st = .quarantine then n + (4096 - l.length) else n

/-- Chunks of lanes with an open chunk on a slice (SH_STATUS). -/
def lanesBusy (s : State) (d : Nat) (wide : Bool) : Nat :=
  (s.sheaf.nodes.map (fun e => match e.2 with
    | some n => if e.1.headD 0 = d ∧ n.plan.wide = wide then chunksOpen n else 0
    | none => 0)).sum

/-- Winnower jobs on a slice, and those with an open round. -/
def jobsOn (s : State) (d : Nat) (opened : Bool) : Nat :=
  (s.engine.jobs.filter (fun e => match e.2 with
    | some x => x.die = d && (!opened || x.openedAt.isSome)
    | none => false)).length

/-- The session of a manager key. -/
def State.session (s : State) (k : Nat) : Option Session := tabGet none s.trust.sess [k]

def State.setSession (s : State) (k : Nat) (x : Option Session) : State :=
  { s with trust := { s.trust with sess := tabSet none s.trust.sess [k] x } }

/-- A field as a read shows it: most are stored; the rest follow from the state. -/
def State.view (s : State) (f : Fld) (k : List Nat) : Nat :=
  let d := k.headD 0
  let t := k.getD 1 0
  let h := 2 * d + t
  let keys := (tabGet {} s.halves [h]).keys
  match f.reg, f.lo with
  | .DV_AIC, 0 => s.aic
  | .TK_NOW, _ => s.now
  | .NI_TAG_STAT, 0 => tagsIn s d t .opened
  | .NI_TAG_STAT, 16 => tagsIn s d t .quarantine
  | .TL_OWNER, 0 => (s.tileSlot d t).getD 0
  | .TL_OWNER, 4 => b2n (s.tileSlot d t).isSome
  | .GK_OWNER, 0 => s.minCells d t
  | .GK_OWNER, 32 => ownerSlot t
  | .GK_OWNER, 36 => ownerKind t
  | .GK_STATUS, 32 => ofSigned 15 (s.sharedFree d)
  | .GK_STATUS, 48 => sat 15 (s.reserveFree d)
  | .LC_STATUS, 0 => sat 32 keys.txCount
  | .LC_STATUS, 32 => if keys.txValid then sat 16 ((s.now - keys.txAt) / 16000000000) else 0
  | .RB_FLOOR, 0 => s.floorInForce.vmin
  | .RB_FLOOR, 16 => s.floorInForce.tj
  | .RB_FLOOR, 24 => s.floorInForce.margin
  | .RB_FLOOR, 32 => s.floorInForce.pace
  | .RB_FLOOR, _ => s.planInForce
  | .PW_DIE_STATE, 28 => b2n (s.fld F.SM_DIE_STATE_POWERED [d] = 1 && s.atFloor d)
  | .PW_DIE_STATE, 29 => b2n (s.schedLive d)
  | .TL_WB_STATE, 0 => ((s.slotsOf d t).filter (fun n => (s.slot d t n).st ≠ .idle)).length
  | .TL_WB_STATE, 11 => (s.readyQ d t).length
  | .TL_WB_STATE, 18 => ((s.slotsOf d t).filter (fun n => (s.slot d t n).st = .held || (s.gateAt (.wbStart d t n)).isSome)).length
  | .TL_WB_STATE, _ => ([0, 1, 2, 3].filter (fun u => (s.running d t u).isSome)).length
  | .TL_STALL, 32 => sat 16 (tabGet 0 s.tiles.stalls [d, t, 0])
  | .TL_STALL, 48 => sat 16 (tabGet 0 s.tiles.stalls [d, t, 1])
  | .SH_STATUS, 0 => (s.sheaf.nodes.filter (fun e => e.1.headD 0 = d && e.2.isSome)).length
  | .SH_STATUS, 16 => lanesBusy s d false
  | .SH_STATUS, 24 => lanesBusy s d true
  | .SH_USED, 0 => (nodesOf s d (s.slotField t)).length
  | .SH_USED, 16 => chunksHeld s d (s.slotField t) false
  | .SH_USED, _ => chunksHeld s d (s.slotField t) true
  | .WN_STATUS, 0 => jobsOn s d false
  | .WN_STATUS, 8 => jobsOn s d true
  | .WN_GRANT, 8 => jobsUsed s d (s.slotField t)
  | .GL_STATUS, 0 => (homedOn s d).length
  | .GL_STATUS, 16 => ((homedOn s d).filter (·.lost)).length
  | .TC_STATUS, 6 => min 8 s.hsList.length
  | .TC_STATUS, 10 => ([0, 1, 2, 3].map (fun i => if (s.session i).isSome then 2 ^ i else 0)).sum
  | .DM_STATUS, 0 => s.recorder.dumps.length
  | .DM_STATUS, 4 => b2n s.recorder.sample.isSome
  | .DM_STATUS, 8 => (s.recorder.dumps.map (fun x => (x.bytes.length + 1023) / 1024)).sum
  | .DM_STATUS, _ => (s.recorder.dumps.getLast?.map (·.seq)).getD 0
  | .DM_ACK, 32 => (s.recorder.dumps.head?.map (·.seq)).getD 0
  | .SM_HANG, 32 => if s.fld F.SM_DIE_STATE_POWERED [d] = 1 then hangBound (min (min (s.pace d 4) (s.pace d 5)) (min (s.pace d 6) (s.pace d 7))) else 0
  | .SM_DIE_STATE, 4 => b2n (match s.safe.request with
      | some r => r.kind = 2 && r.target = d
      | none => false)
  | .SM_RESET, 10 => b2n s.safe.request.isSome
  | _, _ => s.fld f k

/-- A register as a read shows it. -/
def State.regWord (s : State) (x : RegSpec) (k : List Nat) : Nat := (x.fields.map (fun f => s.view f k * 2 ^ f.lo)).sum

/-- READ of either path: a status, and the value, which is zero unless the status is OK (R16, R18, R428, R429). -/
def State.readReg (s : State) (a : Nat) : Nat × Nat :=
  let st := s.reach a
  if st ≠ stOk then (st, 0)
  else match s.place a with
    | .reg x k => (stOk, s.regWord x k)
    | _ => (stOk, 0)

/-! ## Writes (R15, R16) -/

/-- The bits of a field in a 64-bit value. -/
def Fld.of (f : Fld) (v : Nat) : Nat := v / 2 ^ f.lo % 2 ^ f.width

/-- A manager may change the field. Owner 0's MIN_CELLS is read only (R160). -/
def writable (f : Fld) (k : List Nat) : Bool :=
  (f.acc = .RM || f.acc = .RMC) && !(f.reg = .GK_OWNER && f.lo = 0 && k.drop 1 = [0])

/-- R15 and R16 accept the value: no reserved bit is 1, and a field that is not writable carries what it reads. -/
def State.accessOk (s : State) (x : RegSpec) (k : List Nat) (v : Nat) : Bool :=
  (x.fields.map (fun f => f.of v * 2 ^ f.lo)).sum = v && x.fields.all (fun f => writable f k || f.of v = s.view f k)

/-- The RM fields take the value, and an RMC bit written 1 clears. -/
def writeFields (x : RegSpec) (k : List Nat) (v : Nat) (s : State) : State :=
  s.forAll (x.fields.filter (fun f => writable f k)) (fun f s =>
    if f.acc = .RMC then s.setFld f (s.fld f k &&& (2 ^ f.width - 1 - f.of v)) k else s.setFld f (f.of v) k)

/-- The longest deadline of a Field's nodes on a die, and of its jobs and homed contexts (R296, R329). -/
def longestDeadline (s : State) (d o : Nat) : Nat :=
  let f := s.slotField (ownerSlot o)
  if ownerKind o = 4 then ((nodesOf s d f).map (·.plan.deadlineUs)).foldl max 0
  else ((s.engine.jobs.filterMap (fun e => match e.2 with
      | some x => if e.1.headD 0 = f ∧ x.die = d then some x.plan.deadlineUs else none
      | none => none)) ++ ((homedOn s d).filter (fun c => c.field = f)).map (·.deadlineUs)).foldl max 0

/-- TALLY_AGE_US keeps to R164, R296 and R329. -/
def tallyAgeOk (s : State) (d o age : Nat) : Bool :=
  age = 0 || decide (2 * s.fld F.NI_AGE_LIMIT_US + (if ownerKind o = 4 ∨ ownerKind o = 5 then 2 * longestDeadline s d o else 0) ≤ age)

/-- The cells of a slice keep to R160. -/
def budgetOk (s : State) (d : Nat) : Bool :=
  decide (max (s.fld F.GK_REGIONS_SCHED_CELLS [d]) (s.fld F.GK_REGIONS_PENDING_SCHED [d])
      + ((List.range 255).map (fun i => s.fld F.GK_OWNER_MIN_CELLS [d, i + 1])).sum ≤ 24576 - 2048)
    && decide (256 ≤ s.fld F.GK_OWNER_MIN_CELLS [d, 1])

/-- The rules of a register on a value for it, given as every field will read after the write `s'`: the limits of each field's
table. The image's values are held to the same (R377). -/
def valueOk (s' : State) (r : Reg) (k : List Nat) (v : Nat) : Bool :=
  let d := k.headD 0
  match r with
  | .TK_PORT_CAL => let u := F.TK_PORT_CAL_INTERVAL_US.of v
                    decide (1 ≤ u ∧ u ≤ 1000)
  | .TK_PTP => let a := toSigned 4 (F.TK_PTP_LOG_SYNC.of v)
               let b := toSigned 4 (F.TK_PTP_LOG_PDELAY.of v)
               decide (-7 ≤ a ∧ a ≤ 0 ∧ -3 ≤ b ∧ b ≤ 3) && decide (F.TK_PTP_LOG_ANNOUNCE.of v ≤ 3)
  | .TK_PTP_ROLES => (List.range 16).all (fun h => v / 4 ^ h % 4 ≠ 2 ||
      (List.range 4).any (fun n => s'.fld F.TK_SRC_KIND [n] = 2 && s'.fld F.TK_SRC_HALF_PORT [n] = h))
  | .TK_PPS_OUT =>
    let p := F.TK_PPS_OUT_PERIOD_NS.of v
    let w := F.TK_PPS_OUT_WIDTH_NS.of v
    decide (1000 ≤ p ∧ p ≤ 1000000000 ∧ 16 ≤ w ∧ 2 * w ≤ p) && 1000000000 % p = 0
  | .LK_ETH_CFG => decide (10 ≤ F.LK_ETH_CFG_MAC_AGE_S.of v) && !(F.LK_ETH_CFG_ENCAP_EN.of v = 1 && F.LK_ETH_CFG_UDP_PORT.of v = 0)
  | .SG_MARK => let c := F.SG_MARK_MARK_CELLS.of v
                decide (16 ≤ c ∧ c ≤ 24576)
  | .NI_AGE | .NI_E2E =>
    let n := s'.fld F.NI_AGE_NEXT_US
    let t := s'.fld F.NI_E2E_TIMEOUT_US
    decide (1 ≤ n ∧ n ≤ 1000 ∧ s'.fld F.NI_AGE_LIMIT_US + 10 ≤ t ∧ n + 10 ≤ t ∧ t ≤ 10000 ∧ 1 ≤ s'.fld F.NI_E2E_BUSY_BACKOFF_US)
  | .XM_SHARE => decide (((List.range 16).map (fun i => v / 16 ^ i % 16)).sum ≤ 16)
  | .GK_FMAP => (List.range 8).all (fun i => v / 256 ^ i % 256 = 2 || decide (64 ≤ v / 256 ^ i % 256))
  | .GK_OWNER => budgetOk s' d && tallyAgeOk s' d (k.getD 1 0) (F.GK_OWNER_TALLY_AGE_US.of v)
  | .GK_OUT_CFG =>
    let c := F.GK_OUT_CFG_OUT_CAP.of v
    let x := F.GK_OUT_CFG_CTRL_SHARE.of v
    decide (256 ≤ c ∧ c ≤ 24576 ∧ 1 ≤ x ∧ x ≤ 32)
  | .PW_CAP => let c := F.PW_CAP_CAP_W.of v
               c = 0 || decide (1000 ≤ c ∧ c ≤ 7500)
  | .RB_SEAL => F.RB_SEAL_OP.of v = 1 || F.RB_SEAL_OP.of v = 2
  | .SM_RESET => decide (1 ≤ F.SM_RESET_KIND.of v ∧ F.SM_RESET_KIND.of v ≤ 5)
  | .SG_SEAL => v % 4 ≠ 3
  | _ => true

/-- Whether a register's own chapter refuses a write here: a status. An owner that no one may configure, the owner of a free
slot, the relay while one runs, and the Field-map bits of an endpoint half-port (R160, R350, R356). -/
def writeBar (s : State) (r : Reg) (k : List Nat) (v : Nat) : Nat :=
  match r with
  | .GK_OWNER =>
    let o := k.getD 1 0
    if o = 0 ∨ ownerKind o = 15 then stAccess
    else if (ownerKind o = 4 ∨ ownerKind o = 5) ∧ s.fld F.DV_FIELD_SLOT_STATE [ownerSlot o] = 0 then stState
    else stOk
  | .TC_RELAY => if s.fld F.TC_RELAY_STATE = 1 then stState else stOk
  | .NI_FIELD_MAP => if s.isEndpoint (2 * k.headD 0 + k.getD 1 0) ∧ v ≠ s.fld F.NI_FIELD_MAP_MAP k then stAccess else stOk
  | _ => stOk

/-- What else a plain write does: an owner's HIGH_WATER starts again (R163); the second checker's copy of a Field map is written beside the first (R118); a relink entry
that names another partner loses its settings and keys (R104); a TK_SRC entry that names another source begins to qualify anew (R51, R52). -/
def afterWrite (old : State) (r : Reg) (k : List Nat) (v : Nat) (s : State) : State :=
  match r with
  | .NI_FIELD_MAP => { s with ni := { s.ni with map2 := tabSet 0 s.ni.map2 [2 * k.headD 0 + k.getD 1 0, k.getD 2 0] v } }
  | .TK_SRC =>
    let n := k.headD 0
    if old.srcKind n = F.TK_SRC_KIND.of v ∧ old.srcHalf n = F.TK_SRC_HALF_PORT.of v then s
    else (loseSource n s).setSrc n { missFrom := s.now, lastAt := s.now }
  | .GK_OWNER => s.setFld F.GK_TALLY_HIGH_WATER (s.held (k.headD 0) (k.getD 1 0)) k
  | .PH_RELINK =>
    if old.fld F.PH_RELINK_PARTNER_DEVICE k = F.PH_RELINK_PARTNER_DEVICE.of v ∧ old.fld F.PH_RELINK_PARTNER_HALF k = F.PH_RELINK_PARTNER_HALF.of v then s
    else
      let h := 2 * k.headD 0 + k.getD 1 0
      let e := k.getD 2 0
      let s := (s.setFld F.PH_RELINK_EQ_CACHED 0 k).setFld F.PH_RELINK_KEY_READY 0 k
      { s with trust := { s.trust with relinkKeys := tabSet none (tabSet none s.trust.relinkKeys [h, e, 0] none) [h, e, 1] none } }
  | _ => s

/-- A plain write of a register: its status, or the state after it. -/
def plainWrite (x : RegSpec) (k : List Nat) (v : Nat) (s : State) : Except Nat State :=
  let bar := writeBar s x.reg k v
  let t := writeFields x k v s
  if bar ≠ stOk then .error bar
  else if !valueOk t x.reg k v then .error stRange
  else .ok (afterWrite s x.reg k v t)

/-- R68 on a count named in a message: LATE or RANGE where it is refused. -/
def launchBar (s : State) (m : Nat) : Nat :=
  if !s.launchLead m then stLate else if !s.launchRange m then stRange else stOk

/-- A write that arms a launch at `m`: `f` gives nothing where a precondition fails. -/
def armWrite (m : Nat) (f : State → Option State) (s : State) : Except Nat State :=
  let bar := launchBar s m
  if bar ≠ stOk then .error bar
  else match f s with
    | some t => .ok t
    | none => .error stState

end Sys2Proof.Machine
end

