-- ==== Sys2Proof/Machine/Attest.lean ====
section
/-! DEFINITION. Attestation (R359, R360), and the Hedge plan in force (R341). -/

namespace Sys2Proof.Machine

/-- The plan in force: the image's, or the default plan (R341). -/
def hedgePlan (s : State) : List Byte := if s.trust.image.plan = [] then padTo 64 [1, 0, 0, 0x10, 0] else s.trust.image.plan

def planDieExclusive (s : State) : Bool := (hedgePlan s).getD 1 0 = 1
def planMaxFields (s : State) : Nat := ((hedgePlan s).getD 3 0).toNat
def planDebugPermit (s : State) : Bool := (hedgePlan s).getD 4 0 = 1

/-- A Season as a report gives it: 0xFF for none, which its register shows as `none_`. -/
def seasonByte (none_ n : Nat) : List Byte := beBytes 1 (if n = none_ then 0xFF else n)

/-- The admission record of a slot (R353). -/
def State.admitRecord (s : State) (n : Nat) : List Byte := tabGet [] s.trust.admits [n]

/-- Bytes 256 to 383 of a report: the Field section of KIND 0x02. -/
def fieldSection (s : State) (n : Nat) : List Byte :=
  let a := s.admitRecord n
  let f := s.slotField n
  let bound := s.bridge.vlans.any (fun v => v.field = f && v.field ≠ 0)
  beBytes 2 f ++ beBytes 1 n ++ beBytes 1 (s.fld F.DV_FIELD_SLOT_STATE [n]) ++ bytesOfLen 2 (a.drop 48) ++ beBytes 1 (b2n bound) ++ [0]
    ++ (hashOf (tabGet [] s.trust.ownerKeys [n])).take 16 ++ bytesOfLen 32 (a.drop 16) ++ hashOf ((a.drop 64).take 256) ++ List.replicate 24 0

/-- Bytes 0 to 383 of a report (*Attestation report*). -/
def reportBody (s : State) (kind n : Nat) (nonce : List Byte) : List Byte :=
  let active := ((List.range 16).map (fun i => if s.fld F.DV_FIELD_SLOT_STATE [i] = 2 then 2 ^ i else 0)).sum
  [0x59, 0x41, 1] ++ beBytes 1 kind ++ nonce ++ beBytes 8 s.now ++ beBytes 1 (s.fld F.TK_STATUS_STATE) ++ [0] ++ beBytes 2 s.device
    ++ beBytes 4 s.aic ++ beBytes 1 (s.fld F.DV_PART_STEPPING) ++ beBytes 1 (s.fld F.DV_PART_GRADE) ++ [0, 0]
    ++ bytesOfLen 48 s.trust.image.hash ++ bytesOfLen 48 s.trust.image.almanac ++ ownId ++ keyId s.trust.image.signer
    ++ seasonByte 7 (s.fld F.FS_SEASONS_OWNER) ++ seasonByte 7 (s.fld F.FS_SEASONS_HEDGE) ++ seasonByte 15 (s.fld F.FS_SEASONS_TRIM)
    ++ beBytes 1 (s.fld F.FS_SEASONS_ROLLBACK) ++ beBytes 1 (s.fld F.FS_SEASONS_DEBUG_LOCK + 2 * s.fld F.TC_STATUS_DEBUG_OPENED) ++ [0]
    ++ beBytes 2 active ++ hashOf (hedgePlan s) ++ List.replicate 16 0
    ++ (if kind = 2 then fieldSection s n else List.replicate 128 0)

/-- The Trust Core signs now: it is ready, its identity matched, and the Almanac is valid (R6, R334, R359). -/
def canSign (s : State) : Bool := s.fld F.TC_STATUS_STATE = 1 && s.fld F.TC_STATUS_IDENTITY_OK = 1 && s.fld F.DV_AIC_VALID = 1

/-- A signed report of 3,789 bytes, or nothing where it is refused: of a Field, only while its slot is held (R364). -/
def signReport (kind n : Nat) (nonce : List Byte) (s : State) : Option (List Byte × State) :=
  if canSign s && (kind = 1 || (kind = 2 && s.fld F.DV_FIELD_SLOT_STATE [n] ≠ 0)) then
    let body := reportBody s kind n nonce
    let (sig, s) := signWith "YFK ATTESTATION" body s
    some (body ++ sig, s.bump F.TC_STATUS_ATTESTATIONS)
  else none

/-- The Almanac's ATTEST routine (R360). -/
def attestCall (d t : Nat) (w : List Byte) (s : State) : Except Nat (List Nat × State) :=
  let certs := arg w 2 % 2 = 1
  let size := if certs then 14825 else 3789
  if arg w 0 % 8 ≠ 0 ∨ tileSize < arg w 0 + 32 ∨ arg w 1 % 64 ≠ 0 ∨ tileSize < arg w 1 + size ∨ 2 ≤ arg w 2 ∨ !argsZero w 3 then .error 0x02
  else match s.tileSlot d t with
    | none => .error 0x03
    | some n =>
      match signReport 2 n (s.readMem d t (arg w 0) 32) s, (if certs then s.trust.image.certs else some ([], [])) with
      | some (r, s), some (a, b) =>
        let bytes := r ++ a ++ b
        .ok ([size], stewardWrite d t (arg w 1) bytes s)
      | _, _ => .error 0x03

def execAttest (d t : Nat) (s : State) : Result := run (.attest d t) s (routine d t 0x0040 1 (attestCall d t) s)

end Sys2Proof.Machine
end

