-- ==== Sys2Proof/Machine/Manager.lean ====
section
/-! DEFINITION. Requests of manager sessions (R432, R433): the envelope every manager command shares, and reading and writing
registers. -/

namespace Sys2Proof.Machine

/-! ## Packets for the management logic -/

/-- The stored packet of a type that awaits the management logic; none reaches that of a device that is fail-silent (R409). -/
def mgrPkt (s : State) (pid typ : Nat) : Option Pkt :=
  match s.pkt pid with
  | some k => if k.out = 5 ∧ k.stage = .queued ∧ k.p.h.typ = typ ∧ s.fld F.SM_STATUS_STATE ≠ 2 then some k else none
  | none => none

/-- A request (*MGR_REQ and MGR_RESP payload*). -/
structure MgrReq where
  op : Nat
  key : Nat
  seq : Nat
  addr : Nat
  bank : Nat
  value : Nat
  deriving DecidableEq, Repr

def reqOf (p : Packet) : MgrReq := ⟨p.pay 0 1, p.pay 1 1 % 4, p.pay 2 6, p.pay 8 5, p.pay 13 1, p.pay 16 8⟩

/-- A reserved byte of a request is not zero (R430, FORMAT). -/
def reqMalformed (p : Packet) : Bool :=
  p.pay 1 1 / 4 ≠ 0 || p.pay 14 2 ≠ 0 || (p.pay 13 1 ≠ 0 && p.pay 0 1 ≠ 3 && p.pay 0 1 ≠ 4)

/-- The header bytes a MAC covers: byte 2 and bytes 7 to 10. -/
def macHdr (h : Hdr) : List Byte := ((hdrBytes h).drop 2).take 1 ++ ((hdrBytes h).drop 7).take 4

/-- The MAC of a request or response (dir 1 or 2). -/
def shortMac (key : List Byte) (dir : Nat) (h : Hdr) (pay : List Byte) : List Byte :=
  bytesOfLen 8 (Config.cmac key (beBytes 1 dir ++ macHdr h ++ pay))

/-- The MAC of MGR_DATA: `front` is header bytes 24 to 47. -/
def dataMac (key : List Byte) (dir : Nat) (h : Hdr) (front data : List Byte) : List Byte :=
  bytesOfLen 16 (Config.cmac key (beBytes 1 dir ++ macHdr h ++ front ++ data))

/-- The header of what the device sends to the manager that sent `p` (R432). -/
def mgrHdr (s : State) (p : Packet) (typ cls units : Nat) : Hdr :=
  { respHdr s p.h typ cls units with tailback := 0, ord := 1, field := 0 }

/-- MGR_RESP to a request. -/
def mgrResp (s : State) (p : Packet) (key : List Byte) (status value : Nat) : Packet :=
  let h := mgrHdr s p 0x21 0 0
  let pay := p.body.take 1 ++ beBytes 1 status ++ (p.body.drop 2).take 12 ++ [0, 0] ++ beBytes 8 value
  { h := h, body := pay ++ shortMac key 2 h pay }

/-- VALUE where a request is refused and nothing gives its value: a free value. -/
def noValue (s : State) : Nat := (Config.refusedValue s.fresh).toNat

/-- Something leaves for a manager, from die `d`. -/
def mgrSend (d : Nat) (p : Packet) (s : State) : State := sendResponse d p .mgmt s

/-- Answer a request: the response is kept while its SEQ is the highest accepted (R433). -/
def answerReq (d : Nat) (key : Nat) (p : Packet) (status value : Nat) (s : State) : State :=
  match s.session key with
  | none => s
  | some x =>
    let q := mgrResp s p x.txKey status value
    let s := if (reqOf p).seq = x.high then s.setSession key (some { x with kept := some q }) else s
    mgrSend d q s

/-- What a request's action answers: a status and a VALUE, or no answer yet. -/
abbrev ReqAct := MgrReq → Packet → State → Option (Nat × Nat) × State

/-- A refusal with a status. -/
def refusal (st : Nat) (s : State) : Option (Nat × Nat) × State := (some (st, noValue s), s.tick)

/-- An authentic request runs by its SEQ (R433). -/
def runReq (d : Nat) (k : Pkt) (x : Session) (act : ReqAct) (s : State) : State :=
  let r := reqOf k.p
  if r.seq < x.high then mgrSend d (mgrResp s k.p x.txKey stSeq (noValue s)) (s.tick.bump F.DV_MGR_STAT_SEQ_REJECTS)
  else if r.seq = x.high then
    match x.kept with
    | some q => mgrSend d q s
    | none => s
  else
    let s := s.setSession r.key (some { x with high := r.seq, kept := none })
    let (ans, s) := if reqMalformed k.p then refusal stFormat s else act r k.p s
    match ans with
    | some (st, v) => answerReq d r.key k.p st v s
    | none => s

/-- The management logic takes MGR_REQ number `pid`, where it is one of `mine`: without a session or with a wrong MAC it is
discarded. -/
def mgrRequest (pid : Nat) (mine : MgrReq → Bool) (act : ReqAct) (s : State) : State :=
  match mgrPkt s pid 0x20 with
  | none => s
  | some k =>
    let r := reqOf k.p
    if !mine r then s
    else
      let s := freePkt pid 8 s
      if !checkOk k.p then checkFailure k s
      else match s.session r.key with
      | none => s.bump F.DV_MGR_STAT_MAC_FAILS
      | some x =>
        if shortMac x.rxKey 1 k.p.h (k.p.body.take 24) ≠ k.p.body.drop 24 then s.bump F.DV_MGR_STAT_MAC_FAILS
        else runReq k.die k x act s

/-! ## READ and WRITE -/

/-- READ; a request whose OP or transfer target is not listed is answered here too. -/
def readReq (r : MgrReq) (_ : Packet) (s : State) : Option (Nat × Nat) × State :=
  if r.op = 1 then
    let (st, v) := s.readReg r.addr
    if st = stOk then (some (st, v), s) else refusal st s
  else refusal stFormat s

def isRead (r : MgrReq) : Bool :=
  r.op = 1 || r.op = 0 || decide (7 < r.op) || ((r.op = 5 || r.op = 6) && (r.addr % 256 ≤ 1 || decide (13 < r.addr % 256)))

def execRead (pid : Nat) (s : State) : Result := run (.read pid) s (mgrRequest pid isRead readReq s)

/-- The commands that a write of a register is: each of these registers' actions has a row of its own. -/
inductive WriteRow where
  | plain | retrain | bankSeal | bankDiscard | swapAt | resumeAt | switchAt | ageAt | tileReset | relayStart | stepArm
  | fieldReset | dieReset | deviceReset | powerDown | powerUp | fallowAt | admitArm | dumpAck | postSeal | postDiscard
  deriving DecidableEq, Repr

/-- The row of a write of `v` to a register. -/
def writeRowOf (r : Reg) (v : Nat) : WriteRow :=
  match r with
  | .PH_CTRL => if v % 4 ≠ 0 then .retrain else .plain
  | .RB_SEAL => if v / 2 % 4 = 1 then .bankSeal else if v / 2 % 4 = 2 then .bankDiscard else .plain
  | .RB_SWAP_AT => .swapAt
  | .RB_RESUME_AT => .resumeAt
  | .SG_SWITCH_AT => .switchAt
  | .NI_AGE_AT => .ageAt
  | .TL_CTRL => if v % 2 = 1 then .tileReset else .plain
  | .TC_RELAY => if v / 128 % 2 = 1 then .relayStart else .plain
  | .TK_CTRL => if v % 2 = 1 then .stepArm else .plain
  | .SM_RESET =>
    match v % 8 with
    | 1 => .fieldReset
    | 2 => .dieReset
    | 3 => .deviceReset
    | 4 => .powerDown
    | 5 => .powerUp
    | _ => .plain
  | .SM_FALLOW_AT => .fallowAt
  | .SM_ADMIT => .admitArm
  | .DM_ACK => .dumpAck
  | .SG_SEAL => if v % 2 = 1 then .postSeal else if v / 2 % 2 = 1 then .postDiscard else .plain
  | _ => .plain

/-- A write belongs to row `w`. -/
def isWrite (s : State) (w : WriteRow) (r : MgrReq) : Bool :=
  r.op = 2 && (match s.place r.addr with
    | .reg x _ => writeRowOf x.reg r.value = w
    | _ => w = .plain)

/-- What a row makes of a write of `v` to register `x` at `k`: a status, or the state after it. -/
abbrev WriteAct := RegSpec → List Nat → Nat → State → Except Nat State

/-- A write (R15, R16, R428, R429): its refusals, then the row's own; VALUE is the register once the write has taken effect. -/
def writeReq (act : WriteAct) (r : MgrReq) (_ : Packet) (s : State) : Option (Nat × Nat) × State :=
  let st := s.reach r.addr
  if st ≠ stOk then refusal st s
  else match s.place r.addr with
    | .missing => refusal stAddress s
    | .reg x k =>
      if !s.accessOk x k r.value then refusal stAccess s
      else match act x k r.value s with
        | .ok t => (some (stOk, t.regWord x k), t)
        | .error e => refusal e s
    | _ => if r.value = 0 then (some (stOk, 0), s) else refusal stAccess s

/-- A write that is the command of row `w`. -/
def writeCmd (w : WriteRow) (act : WriteAct) (pid : Nat) (s : State) : State := mgrRequest pid (isWrite s w) (writeReq act) s

def execWrite (pid : Nat) (s : State) : Result := run (.write pid) s (writeCmd .plain plainWrite pid s)

/-! ## Writes of links and tiles -/

/-- PH_CTRL (R74): a half that is not written 1 stays as it is. -/
def retrainWrite (_ : RegSpec) (k : List Nat) (v : Nat) (s : State) : Except Nat State :=
  let d := k.headD 0
  .ok (s.forAll ([0, 1].filter (fun i => v.testBit i)) (fun i s => if s.halfExists (2 * d + i) then retrain (2 * d + i) s else s))

def execRetrain (pid : Nat) (s : State) : Result := run (.retrain pid) s (writeCmd .retrain retrainWrite pid s)

/-- TL_CTRL.RESET (R261): refused while a reset of the tile runs. -/
def tileResetWrite (_ : RegSpec) (k : List Nat) (_ : Nat) (s : State) : Except Nat State :=
  let d := k.headD 0
  let t := k.getD 1 0
  if s.fld F.TL_CTRL_RESET_BUSY [d, t] = 1 then .error stState else .ok (startTileReset d t none s)

def execTlCtrlReset (pid : Nat) (s : State) : Result := run (.tlCtrlReset pid) s (writeCmd .tileReset tileResetWrite pid s)

/-! ## Writes of the Road Book (R184, R185, R192) -/

def sealBank (_ : RegSpec) (_ : List Nat) (v : Nat) (s : State) : Except Nat State :=
  match sealBankWrite (v % 2) s with
  | some t => .ok t
  | none => .error stState

def execBankSeal (pid : Nat) (s : State) : Result := run (.bankSeal pid) s (writeCmd .bankSeal sealBank pid s)

def discardBank (_ : RegSpec) (_ : List Nat) (v : Nat) (s : State) : Except Nat State :=
  match discardBankWrite (v % 2) s with
  | some t => .ok t
  | none => .error stState

def execBankDiscard (pid : Nat) (s : State) : Result := run (.bankDiscard pid) s (writeCmd .bankDiscard discardBank pid s)

/-- RB_SWAP_AT: M lies at least 1 ms ahead, on a step boundary of the active bank. -/
def swapAt (_ : RegSpec) (_ : List Nat) (m : Nat) (s : State) : Except Nat State :=
  if launchBar s m = stOk ∧ (m < s.now + usUnits 1000 ∨ !s.boundaryOk m) then .error stRange else armWrite m (swapWrite m) s

def execRbSwapAt (pid : Nat) (s : State) : Result := run (.rbSwapAt pid) s (writeCmd .swapAt swapAt pid s)

def resumeAt (_ : RegSpec) (_ : List Nat) (m : Nat) (s : State) : Except Nat State :=
  if launchBar s m = stOk ∧ s.activeBankNo.isSome ∧ !s.isBoundary m then .error stRange else armWrite m (resumeWrite m) s

def execRbResumeAt (pid : Nat) (s : State) : Result := run (.rbResumeAt pid) s (writeCmd .resumeAt resumeAt pid s)

/-! ## Writes of tables, ages and time -/

/-- SG_SWITCH_AT (R120). -/
def switchWrite (m : Nat) (s : State) : Option State :=
  if s.verState s.otherVer = 2 ∧ s.fld F.SG_CTRL_PENDING = 0 then
    some (((s.armGate .sgSwitch m).setFld F.SG_CTRL_PENDING 1).setFld F.SG_SWITCH_AT_COUNT m)
  else none

def switchAt (_ : RegSpec) (_ : List Nat) (m : Nat) (s : State) : Except Nat State := armWrite m (switchWrite m) s

def execSgSwitchAt (pid : Nat) (s : State) : Result := run (.sgSwitchAt pid) s (writeCmd .switchAt switchAt pid s)

/-- NI_AGE_AT (R130): a new write replaces a change that is armed. -/
def ageAt (_ : RegSpec) (_ : List Nat) (m : Nat) (s : State) : Except Nat State :=
  armWrite m (fun s => some (((s.armGate .niAge m).setFld F.NI_AGE_PENDING 1).setFld F.NI_AGE_AT_COUNT m)) s

def execNiAgeAt (pid : Nat) (s : State) : Result := run (.niAgeAt pid) s (writeCmd .ageAt ageAt pid s)

/-- TK_CTRL with STEP_ARM: the register is written as any other. -/
def stepArmWrite (x : RegSpec) (k : List Nat) (v : Nat) (s : State) : Except Nat State := plainWrite x k v s

def execStepArm (pid : Nat) (s : State) : Result := run (.stepArm pid) s (writeCmd .stepArm stepArmWrite pid s)

/-- DM_ACK (R419): the named dump is released; a new dump may take its space. -/
def dumpAck (_ : RegSpec) (_ : List Nat) (v : Nat) (s : State) : Except Nat State :=
  let n := F.DM_ACK_DUMP_SEQ.of v
  if s.recorder.dumps.any (fun x => x.seq = n) then
    let release (x : Dump) : Dump := if x.seq = n then { x with released := true } else x
    let t : State := { s with recorder := { s.recorder with dumps := s.recorder.dumps.map release } }
    .ok (t.setFld F.DM_ACK_DUMP_SEQ n)
  else .error stRange

def execDmAck (pid : Nat) (s : State) : Result := run (.dmAck pid) s (writeCmd .dumpAck dumpAck pid s)

/-- SG_SEAL with SEAL (R435): with DISCARD too it is rejected with RANGE. -/
def postSeal (_ : RegSpec) (_ : List Nat) (v : Nat) (s : State) : Except Nat State :=
  if v / 2 % 2 = 1 then .error stRange
  else if s.verState s.otherVer = 1 ∧ s.fld F.SG_SEAL_BUSY = 0 then .ok (s.setFld F.SG_SEAL_BUSY 1)
  else .error stState

def execSignpostSeal (pid : Nat) (s : State) : Result := run (.signpostSeal pid) s (writeCmd .postSeal postSeal pid s)

/-- SG_SEAL with DISCARD: a LOADING or SEALED version becomes EMPTY unless a switch to it is pending or its seal runs. -/
def postDiscard (_ : RegSpec) (_ : List Nat) (_ : Nat) (s : State) : Except Nat State :=
  let v := s.otherVer
  if (s.verState v = 1 ∨ s.verState v = 2) ∧ s.fld F.SG_CTRL_PENDING = 0 ∧ s.fld F.SG_SEAL_BUSY = 0 then .ok ((clearVer v s).setVerState v 0)
  else .error stState

def execSignpostDiscard (pid : Nat) (s : State) : Result := run (.signpostDiscard pid) s (writeCmd .postDiscard postDiscard pid s)

end Sys2Proof.Machine
end

