-- ==== Sys2Proof/Machine/Transfers.lean ====
section
/-! DEFINITION. Transfers of manager sessions (R434, R435): objects moved in and out, the tables and banks they load, and the
seal of a table version. -/

namespace Sys2Proof.Machine

/-! ## Objects moved in (R434) -/

/-- A MGR_DATA header (*MGR_DATA header*). -/
structure DataHdr where
  target : Nat
  dir : Nat
  key : Nat
  seq : Nat
  off : Nat
  len : Nat
  deriving DecidableEq, Repr

def dataHdrOf (p : Packet) : DataHdr := ⟨p.byte 24, p.byte 25, p.byte 26 % 4, p.be 28 6, p.be 34 4, p.be 38 4⟩

/-- A reserved bit of the header is not zero. -/
def dataMalformed (p : Packet) : Bool := p.byte 26 / 4 ≠ 0 || p.byte 27 / 2 ≠ 0 || p.be 42 6 ≠ 0

/-- The session of MGR_DATA whose MAC verifies. -/
def dataSession (s : State) (p : Packet) : Option Session :=
  match s.session (dataHdrOf p).key with
  | some x => if dataMac x.rxKey 1 p.h (p.body.take 24) p.data = p.body.drop 24 then some x else none
  | none => none

/-- MGR_DATA fits an open transfer. -/
def dataFits (x : Xfer) (p : Packet) : Bool :=
  let h := dataHdrOf p
  !dataMalformed p && h.dir = 1 && h.target = x.target && h.seq = x.seq && decide (h.len ≤ p.data.length ∧ h.off + h.len ≤ x.len)

/-- How far from byte `at_` the pieces reach without a gap. -/
def coverFrom (l : List (Nat × List Byte)) : Nat → Nat → Nat
  | 0, at_ => at_
  | n + 1, at_ =>
    let e := (l.filter (fun x => decide (x.1 ≤ at_))).foldl (fun m x => max m (x.1 + x.2.length)) at_
    if e = at_ then at_ else coverFrom l n e

/-- The pieces cover [0, len). -/
def piecesCover (l : List (Nat × List Byte)) (len : Nat) : Bool := decide (len ≤ coverFrom l l.length 0)

/-- Byte `i` of an object: the later piece wins. -/
def pieceByte (l : List (Nat × List Byte)) (i : Nat) : Byte :=
  l.foldl (fun b x => if x.1 ≤ i ∧ i < x.1 + x.2.length then x.2.getD (i - x.1) 0 else b) 0

/-- The object. -/
def objectOf (x : Xfer) : List Byte := (List.range x.len).map (pieceByte x.got)

/-- The transfer with one more piece. -/
def addPiece (x : Xfer) (p : Packet) (now : Nat) : Xfer :=
  let h := dataHdrOf p
  { x with got := x.got ++ [(h.off, p.data.take h.len)], at_ := now }

/-- The rows that take MGR_DATA: a handshake message of a session, or what completes a fuse order, an admission, an eviction or
a relayed message; every other packet is MGR_DATA_RECEIVE. -/
inductive DataRow where
  | plain | session | fuse | admission | evict | relay
  deriving DecidableEq, Repr

def dataRowOf (s : State) (p : Packet) : DataRow :=
  if (dataHdrOf p).target = 1 then .session
  else match (dataSession s p).bind (·.xfer) with
    | none => .plain
    | some x =>
      if !dataFits x p then .plain
      else
        let y := addPiece x p s.now
        if !piecesCover y.got y.len then .plain
        else match x.target with
          | 5 => .fuse
          | 6 => if pieceByte y.got 3 = 1 then .admission else if pieceByte y.got 3 = 2 then .evict else .plain
          | 7 => .relay
          | _ => .plain

/-- What a target makes of a whole object: a status and a VALUE. -/
abbrev ObjAct := Xfer → List Byte → State → (Nat × Nat) × State

/-- A target refuses, with its own code. -/
def targetCode (code : Nat) (s : State) : (Nat × Nat) × State := ((stTarget, code), s)

/-- A target refuses, and no code of its own is given. -/
def targetNo (s : State) : (Nat × Nat) × State := ((stTarget, noValue s), s.tick)

/-- The transfer of a session ends with an answer. -/
def endXfer (d key : Nat) (x : Xfer) (st v : Nat) (s : State) : State :=
  match s.session key with
  | some y => answerReq d key x.req st v (s.setSession key (some { y with xfer := none }))
  | none => s

/-- MGR_DATA that belongs to row `row`: `early` is what is written as the bytes arrive, `act` acts on the whole object. -/
def mgrData (pid : Nat) (row : DataRow) (early : Xfer → Nat → List Byte → State → Option State) (act : ObjAct) (s : State) : State :=
  match mgrPkt s pid 0x8F with
  | none => s
  | some k =>
    if dataRowOf s k.p ≠ row then s
    else
      let h := dataHdrOf k.p
      let s := freePkt pid 8 s
      if !checkOk k.p then checkFailure k s
      else match dataSession s k.p with
      | none => s.bump F.DV_MGR_STAT_MAC_FAILS
      | some y =>
        match y.xfer with
        | none => s
        | some x =>
          if !dataFits x k.p then s
          else match early x h.off (k.p.data.take h.len) s with
            | none => endXfer k.die h.key x stState (noValue s) s.tick
            | some s =>
              let x := addPiece x k.p s.now
              let s := s.setSession h.key (some { y with xfer := some x })
              if piecesCover x.got x.len then
                let ((st, v), s) := act x (objectOf x) s
                endXfer k.die h.key x st v s
              else s

/-- A session's unfinished transfer is abandoned (R434). -/
def abandonXfer (key : Nat) (s : State) : State :=
  match s.session key with
  | some y => match y.xfer with
    | some _ => (s.setSession key (some { y with xfer := none })).bump F.DV_MGR_STAT_ABANDONED
    | none => s
  | none => s

/-- XFER_IN to a target that takes objects: an object of no bytes is complete at once. -/
def openIn (act : ObjAct) (r : MgrReq) (p : Packet) (s : State) : Option (Nat × Nat) × State :=
  let s := abandonXfer r.key s
  match s.session r.key with
  | none => (none, s)
  | some y =>
    let x : Xfer := { seq := r.seq, target := r.addr % 256, arg := r.addr / 256, len := r.value % 2 ^ 32, req := p, at_ := s.now }
    if x.len = 0 then
      let (ans, s) := act x [] s
      (some ans, s)
    else (none, s.setSession r.key (some { y with xfer := some x }))

/-- A transfer in a direction the target does not have. -/
def wrongWay (r : MgrReq) (_ : Packet) (s : State) : Option (Nat × Nat) × State :=
  let (ans, s) := targetNo (abandonXfer r.key s)
  (some ans, s)

/-- A transfer request names target `t`. -/
def isXfer (t : Nat) (r : MgrReq) : Bool := (r.op = 5 || r.op = 6) && r.addr % 256 = t

/-- A target that only takes objects. -/
def inOnly (act : ObjAct) (r : MgrReq) (p : Packet) (s : State) : Option (Nat × Nat) × State :=
  if r.op = 5 then openIn act r p s else wrongWay r p s

/-! ## Objects moved out -/

/-- One MGR_DATA of an object from `off`. -/
def dataOut (s : State) (p : Packet) (key : Nat) (tx : List Byte) (target seq off : Nat) (last : Bool) (bytes : List Byte) : Packet :=
  let units := max 4 ((bytes.length + 63) / 64)
  let data := padTo (64 * units) bytes
  let h := mgrHdr s p 0x8F 1 units
  let front := beBytes 1 target ++ [2] ++ beBytes 1 key ++ beBytes 1 (b2n last) ++ beBytes 6 seq ++ beBytes 4 off ++ beBytes 4 bytes.length ++ List.replicate 6 0
  { h := h, body := front ++ dataMac tx 2 h front data, data := data }

/-- The range of an object leaves in packets of 4,096 bytes, in ascending OFFSET. -/
def sendRange (d : Nat) (p : Packet) (key : Nat) (tx : List Byte) (target seq first : Nat) (bytes : List Byte) (s : State) : State :=
  let n := (bytes.length + 4095) / 4096
  s.forAll (List.range n) (fun i s =>
    mgrSend d (dataOut s p key tx target seq (first + 4096 * i) (i + 1 = n) ((bytes.drop (4096 * i)).take 4096)) s)

/-- XFER_OUT of an object: `obj first len` gives the bytes of the range that exist. -/
def sendObject (obj : MgrReq → Nat → Nat → State → Option (List Byte)) (r : MgrReq) (p : Packet) (s : State) : Option (Nat × Nat) × State :=
  let s := abandonXfer r.key s
  let first := r.value % 2 ^ 32
  match obj r first (r.value / 2 ^ 32) s, s.session r.key with
  | some bytes, some y => (some (stOk, bytes.length), sendRange s.leadDie p r.key y.txKey (r.addr % 256) r.seq first bytes s)
  | _, _ => let (ans, s) := targetNo s
            (some ans, s)

/-- A target that only gives objects. -/
def outOnly (obj : MgrReq → Nat → Nat → State → Option (List Byte)) (r : MgrReq) (p : Packet) (s : State) : Option (Nat × Nat) × State :=
  if r.op = 6 then sendObject obj r p s else wrongWay r p s

/-- The range of an object that is held whole. -/
def rangeOf (l : List Byte) (first len : Nat) : List Byte := (l.drop first).take len

/-- REGISTERS: consecutive registers from the address whose bits [39:8] the argument gives; one that cannot be read gives
zeros. -/
def registersObj (r : MgrReq) (first len : Nat) (s : State) : Option (List Byte) :=
  let base := r.addr / 256 * 256
  let n := if 2 ^ 40 ≤ base + first then 0 else min len (2 ^ 40 - base - first)
  some ((List.range n).map (fun i =>
    let a := first + i
    (beBytes 8 (s.readReg (base + a / 8 * 8)).2).getD (a % 8) 0))

def execRegisters (pid : Nat) (s : State) : Result := run (.registers pid) s (mgrRequest pid (isXfer 9) (outOnly registersObj) s)

/-- EVENTS: the records from a SEQ up to HEAD. -/
def eventsObj (r : MgrReq) (first len : Nat) (s : State) : Option (List Byte) :=
  some (rangeOf ((s.recorder.ring.filter (fun e => decide (r.addr / 256 ≤ e.seq))).flatMap eventBytes) first len)

def execEvents (pid : Nat) (s : State) : Result := run (.events pid) s (mgrRequest pid (isXfer 10) (outOnly eventsObj) s)

/-- DUMP: a dump that is held (R419, R427). -/
def dumpObj (r : MgrReq) (first len : Nat) (s : State) : Option (List Byte) :=
  (s.recorder.dumps.find? (fun x => x.seq = r.addr / 256)).map (fun x => rangeOf x.bytes first len)

def execDump (pid : Nat) (s : State) : Result := run (.dump pid) s (mgrRequest pid (isXfer 8) (outOnly dumpObj) s)

/-- BRIDGE: the ETH_BRIDGE body in force (R376). -/
def bridgeObj (_ : MgrReq) (first len : Nat) (s : State) : Option (List Byte) := some (rangeOf s.bridge.body first len)

def execBridge (pid : Nat) (s : State) : Result := run (.bridge pid) s (mgrRequest pid (isXfer 12) (outOnly bridgeObj) s)

/-- ATTEST, out: the report signed for the latest in-object. -/
def reportObj (_ : MgrReq) (first len : Nat) (s : State) : Option (List Byte) :=
  if s.trust.report = [] then none else some (rangeOf s.trust.report first len)

/-- ATTEST, in: KIND, SLOT, two zero bytes and the nonce. -/
def attestAct (_ : Xfer) (l : List Byte) (s : State) : (Nat × Nat) × State :=
  let kind := (l.getD 0 0).toNat
  let n := (l.getD 1 0).toNat
  if l.length = 36 ∧ allZero ((l.drop 2).take 2) ∧ n < 16 then
    match signReport kind n (l.drop 4) s with
    | some (r, s) => ((stOk, 0), { s with trust := { s.trust with report := r } })
    | none => targetNo s
  else targetNo s

def attestReq (r : MgrReq) (p : Packet) (s : State) : Option (Nat × Nat) × State :=
  if r.op = 5 then openIn attestAct r p s else sendObject reportObj r p s

def execAttestTransfer (pid : Nat) (s : State) : Result := run (.attestTransfer pid) s (mgrRequest pid (isXfer 11) attestReq s)

/-! ## BARRIER (R69, R71) -/

/-- The open record, where its fields keep to *Barrier open record*. -/
def barrierOf (l : List Byte) (now : Nat) : Option BarrierRec :=
  let kind := byteNat l 0 1
  let slot := byteNat l 14 2
  let lead := byteNat l 16 4
  let wait := byteNat l 20 4
  let b : BarrierRec := ⟨kind, byteNat l 2 2, byteNat l 4 2, byteNat l 6 2, byteNat l 8 4, byteNat l 12 2, slot, if lead = 0 then 20000 else lead, if wait = 0 then 1000 else wait, now, .opened, 0, 0, false, [], []⟩
  if l.length = 32 ∧ (kind = 1 ∨ (kind = 2 ∧ b.field = 0 ∧ slot = 0)) ∧ byteNat l 1 1 = 0 ∧ b.field < 4096 ∧ slot < 1024 ∧ 1 ≤ b.n ∧ b.n ≤ 65536
      ∧ b.index < b.n ∧ 5000 ≤ b.leadNs ∧ b.leadNs ≤ 1000000 ∧ b.leadNs % 16 = 0 ∧ 100 ≤ b.timeoutUs ∧ b.timeoutUs ≤ 100000 ∧ allZero (l.drop 24) then some b
  else none

/-- A barrier is still open. -/
def barrierOpen (s : State) : Bool :=
  match s.time.barrier with
  | some b => b.phase = .opened || b.phase = .arrived || b.phase = .released
  | none => false

def barrierAct (_ : Xfer) (l : List Byte) (s : State) : (Nat × Nat) × State :=
  match barrierOf l s.now with
  | none => targetNo s
  | some b => if barrierOpen s then ((stState, noValue s), s.tick) else ((stOk, 0), s.setBarrier (some b))

def execBarrier (pid : Nat) (s : State) : Result := run (.barrier pid) s (mgrRequest pid (isXfer 13) (inOnly barrierAct) s)

/-! ## SIGNPOST, RANK and ROAD_BOOK: written as they arrive -/

/-- Objects of known size; a longer one has bytes that lie nowhere. -/
def tableSize (target : Nat) : Nat := if target = 2 then 2 ^ 20 else 2 ^ 24

/-- One byte of a big-endian number of `n` bytes is replaced. -/
def putByte (n old i : Nat) (b : Byte) : Nat :=
  let w := 256 ^ (n - 1 - i)
  old - old / w % 256 * w + b.toNat * w

/-- Byte `at_` of the SIGNPOST object of version `v`. -/
def postByte (v at_ : Nat) (b : Byte) (s : State) : State :=
  let k := [v, at_ / 131072, at_ % 131072 / 2]
  { s with ni := { s.ni with posts := tabSet 0 s.ni.posts k (putByte 2 (tabGet 0 s.ni.posts k) (at_ % 2) b) } }

/-- Byte `at_` of the RANK object of version `v`. -/
def rankByte (v at_ : Nat) (b : Byte) (s : State) : State :=
  let e := at_ / 8
  let k := [v, e / 16384 / 16, e / 16384 % 16, e % 16384]
  { s with ni := { s.ni with ranks := tabSet 0 s.ni.ranks k (putByte 8 (tabGet 0 s.ni.ranks k) (at_ % 8) b) } }

/-- Bytes of a table object arrive: the version leaves EMPTY, and one that is neither EMPTY nor LOADING refuses them; so does one whose
seal runs (R440). -/
def tableBytes (write : Nat → Nat → Byte → State → State) (off : Nat) (l : List Byte) (s : State) : Option State :=
  let v := s.otherVer
  let st := s.verState v
  if st ≤ 1 ∧ s.fld F.SG_SEAL_BUSY = 0 then
    some ((s.setVerState v 1).forAll (List.range l.length) (fun i s => write v (off + i) (l.getD i 0) s))
  else none

/-- Bytes of a bank image arrive (R184). -/
def bankBytesIn (b off : Nat) (l : List Byte) (s : State) : Option State :=
  if s.bankState b ≤ 1 then
    let old := s.bankBytes b
    some (bankLoad b (padTo off (old.take off) ++ l ++ old.drop (off + l.length)) s)
  else none

/-- What is written as the bytes of a transfer arrive. -/
def earlyBytes (x : Xfer) (off : Nat) (l : List Byte) (s : State) : Option State :=
  match x.target with
  | 2 => tableBytes postByte off l s
  | 3 => tableBytes rankByte off l s
  | 4 => bankBytesIn (x.arg % 2) off l s
  | _ => some s

/-- A table or bank has all its bytes. -/
def loadedAct (_ : Xfer) (_ : List Byte) (s : State) : (Nat × Nat) × State := ((stOk, 0), s)

/-- XFER_IN to a table: its length lies within the object. -/
def tableReq (r : MgrReq) (p : Packet) (s : State) : Option (Nat × Nat) × State :=
  if r.op = 5 ∧ r.value % 2 ^ 32 ≤ tableSize (r.addr % 256) then openIn loadedAct r p s else wrongWay r p s

def execSignpost (pid : Nat) (s : State) : Result := run (.signpost pid) s (mgrRequest pid (isXfer 2) tableReq s)

def execRank (pid : Nat) (s : State) : Result := run (.rank pid) s (mgrRequest pid (isXfer 3) tableReq s)

def execRoadBook (pid : Nat) (s : State) : Result := run (.roadBook pid) s (mgrRequest pid (isXfer 4) (inOnly loadedAct) s)

/-! ## MGR_DATA_RECEIVE, gaps and CLOSE -/

/-- An admission object that is neither an ADMIT nor an EVICT: its format is wrong (check 1 of R354). -/
def strayAdmission (_ : Xfer) (_ : List Byte) (s : State) : (Nat × Nat) × State := targetCode 1 s

/-- What the targets without a row of their own for it make of a whole object. -/
def wholeAct (x : Xfer) (l : List Byte) (s : State) : (Nat × Nat) × State :=
  match x.target with
  | 6 => strayAdmission x l s
  | 11 => attestAct x l s
  | 13 => barrierAct x l s
  | _ => loadedAct x l s

def execMgrDataReceive (pid : Nat) (s : State) : Result := run (.mgrDataReceive pid) s (mgrData pid .plain earlyBytes wholeAct s)

/-- ADMISSION, XFER_IN. -/
def execAdmission (pid : Nat) (s : State) : Result := run (.admission pid) s (mgrRequest pid (isXfer 6) (inOnly strayAdmission) s)

/-- XFER_GAP_TIMEOUT: 10 ms without the bytes covering the length. -/
def xferGap (key : Nat) (s : State) : State :=
  match (s.session key).bind (·.xfer) with
  | some x => if x.at_ + usUnits 10000 ≤ s.now then endXfer s.leadDie key x stGap (noValue s) (s.tick.bump F.DV_MGR_STAT_ABANDONED) else s
  | none => s

def execXferGapTimeout (key : Nat) (s : State) : Result := run (.xferGapTimeout key) s (xferGap key s)

/-- A session ends: it is logged, and an unfinished transfer is abandoned (R352, R364). -/
def endSession (key : Nat) (s : State) : State :=
  if (s.session key).isSome then ((abandonXfer key s).log 0x0B 0x04 8 (trustDetail s key 0)).setSession key none else s

/-- CLOSE: the session ends after the response. -/
def closeSession (pid : Nat) (s : State) : State :=
  match mgrPkt s pid 0x20 with
  | none => s
  | some k =>
    let r := reqOf k.p
    let fresh_ : Bool := match s.session r.key with
      | some x => checkOk k.p && decide (x.high < r.seq) && shortMac x.rxKey 1 k.p.h (k.p.body.take 24) = k.p.body.drop 24 && !reqMalformed k.p
      | none => false
    let t := mgrRequest pid (fun r => r.op = 7) (fun _ _ s => (some (stOk, 0), s)) s
    if r.op = 7 ∧ fresh_ then endSession r.key t else t

def execClose (pid : Nat) (s : State) : Result := run (.close pid) s (closeSession pid s)

/-! ## The seal of a table version (R113, R435) -/

/-- A rank block of slot `n` is refused (R113). -/
def blockBad (s : State) (n w : Nat) : Bool :=
  let b := rankBlockOf w
  let f := s.slotField n
  let held := s.fld F.DV_FIELD_SLOT_STATE [n] ≠ 0
  decide (2 ^ 30 ≤ w) || b.kind = 3
    || (b.kind = 1 && (b.half ≠ 0 || (b.device = s.device &&
        (decide (s.rowsPerDie ≤ b.lrow) || s.rowOwner1 b.die b.lrow ≠ some n || !(s.fld F.DV_FIELD_SLOT_DIE_MASK [n]).testBit b.die))))
    || (b.kind = 2 && (b.die ≠ 0 || b.lrow ≠ 0 || (b.device = s.device &&
        !(held && s.fbit F.NI_FIELD_MAP_MAP (f % 64) [b.half / 2, b.half % 2, f / 64]))))

/-- SIGNPOST_SEAL_DONE: the version is sealed, or the first refused block is named and the version is EMPTY. -/
def postSealDone (s : State) : State :=
  let v := s.otherVer
  if s.fld F.SG_SEAL_BUSY = 1 ∧ s.verState v = 1 then
    let s := s.setFld F.SG_SEAL_BUSY 0
    match s.ni.ranks.find? (fun e => e.1.headD 2 = v && blockBad s (e.1.getD 2 0) e.2) with
    | none => (s.setVerState v 2).setFld F.SG_SEAL_RESULT 1
    | some e =>
      let s := (clearVer v s).setVerState v 0
      (((s.setFld F.SG_SEAL_RESULT 2).setFld F.SG_SEAL_ERR_DIE (e.1.getD 1 0)).setFld F.SG_SEAL_ERR_SLOT (e.1.getD 2 0)).setFld F.SG_SEAL_ERR_BLOCK (e.1.getD 3 0)
  else s

def execSignpostSealDone (s : State) : Result := run .signpostSealDone s (postSealDone s)

end Sys2Proof.Machine
end

