-- ==== Sys2Proof/Machine/Snap.lean ====
section
/-! DEFINITION. Snapshot banks (R436, R437), the SMBus target (R431), and the settling of a die's supply (R42, R394). -/

namespace Sys2Proof.Machine

/-! ## Snapshot groups (R436) -/

/-- The group a register belongs to (*Snapshot groups*): 0 where it belongs to none. -/
def snapGroup : Reg → Nat
  | .GK_STATUS | .GK_REGIONS | .GK_OUT_CFG | .GK_DROP | .GK_FAULT | .GK_OWNER | .GK_TALLY => 1
  | .PH_LINK | .LK_FEC | .LK_DROP | .LC_STATUS | .NI_DROP_A | .NI_DROP_B => 2
  | .TK_NOW | .TK_STATUS | .TK_EVENTS | .TK_REPLICA | .TK_PORT_MEAS => 3
  | .RB_BANKS | .RB_EPOCH | .RB_PERIOD | .RB_FLOOR | .RB_SUSPEND | .RB_ALARM | .RB_SUSPEND_AT | .RB_LATE | .PW_DIE_STATE => 4
  | .SM_STATUS | .SM_FIELD_STATE | .DV_FIELD_SLOT | .SM_DIE_STATE | .SM_ROWS | .SM_HANG => 5
  | .EV_STATUS | .EV_LOST | .EV_LOST_FIRST | .EV_LOST_LAST => 6
  | .SH_STATUS | .SH_STAT | .SH_STAT_B | .SH_USED | .WN_STATUS | .WN_STAT | .GL_STATUS | .GL_STAT => 7
  | .TL_RESIDUE | .TL_WB_STATE | .TL_WB_STAT | .TL_STALL | .TM_STAT | .NI_TAG_STAT => 8
  | _ => 0

/-- The level of a group's scope: 0 the device, 1 a die, 2 a tile. -/
def groupLevel (g : Nat) : Nat := if g = 1 ∨ g = 2 ∨ g = 7 then 1 else if g = 8 then 2 else 0

/-- Every location of a register within its level: its indices and the bytes past its base. -/
def locations : List Dim → List (List Nat × Nat)
  | [] => [([], 0)]
  | d :: ds => (List.range d.count).flatMap (fun i => (locations ds).map (fun x => ((d.first + i) :: x.1, (d.first + i) * d.stride + x.2)))

/-- The (die, tile) of the places of a register's level within the scope. -/
def scopePlaces (level g die tile : Nat) : List (Nat × Nat) :=
  if level = 0 then [(0, 0)]
  else if level = 1 then (if groupLevel g = 0 then dies else [die]).map (fun d => (d, 0))
  else [(die, tile)]

/-- The registers of a group in its scope that can be reached, with what they read now. -/
def latchGroup (s : State) (g die tile : Nat) : List (Nat × Nat) :=
  (regTable.filter (fun x => snapGroup x.reg = g)).flatMap (fun x =>
    (scopePlaces x.level g die tile).flatMap (fun p => (locations x.dims).filterMap (fun l =>
      let a := x.level * 2 ^ 37 + p.1 * 2 ^ 34 + p.2 * 2 ^ 23 + x.base + l.2
      if s.reach a = stOk then some (a, s.regWord x (levelKey x.level p.1 p.2 ++ l.1)) else none)))

/-! ## Arming, latching and reading (R437) -/

def State.bank (s : State) (b : Nat) : List (Nat × Nat) := tabGet [] s.snaps.banks [b]

def State.setBank (s : State) (b : Nat) (l : List (Nat × Nat)) : State := { s with snaps := { banks := tabSet [] s.snaps.banks [b] l } }

/-- SNAP_ARM: bank `b` is armed at `m` for the group and scope of the register. -/
def armSnap (b m g die tile : Nat) (s : State) : State :=
  let s := (s.setBank b []).armGate (.snap b) m
  let s := ((s.setFld F.DV_SNAP_STATE 1 [b]).setFld F.DV_SNAP_GROUP g [b]).setFld F.DV_SNAP_DIE (if groupLevel g = 0 then 0 else die) [b]
  (s.setFld F.DV_SNAP_TILE (if groupLevel g = 2 then tile else 0) [b]).setFld F.DV_SNAP_AT_COUNT m [b]

def snapArmReq (r : MgrReq) (_ : Packet) (s : State) : Option (Nat × Nat) × State :=
  let st := s.reach r.addr
  let g := match s.place r.addr with
    | .reg x _ => snapGroup x.reg
    | _ => 0
  let bar := launchBar s r.value
  if st ≠ stOk then refusal st s
  else if g = 0 ∨ 3 < r.bank then refusal stRange s
  else if s.fld F.DV_SNAP_STATE [r.bank] = 1 then refusal stState s
  else if bar ≠ stOk then refusal bar s
  else (some (stOk, r.value), armSnap r.bank r.value g (r.addr / 2 ^ 34 % 8) (r.addr / 2 ^ 23 % 2048) s)

def execSnapArm (pid : Nat) (s : State) : Result := run (.snapArm pid) s (mgrRequest pid (fun r => r.op = 3) snapArmReq s)

/-- A gate that a latch at `m` waits for: every other release gated at that count goes first. -/
def goesFirst (s : State) (m : Nat) (g : Gate) : Bool :=
  g.at_ = m && (match g.id with
    | .snap _ => false
    | .fallow d | .wbStart d _ _ | .wbRelease d _ _ => s.gateTime d
    | _ => true)

/-- SNAP_LATCH: held while time is invalid. -/
def snapLatch (b : Nat) (s : State) : State :=
  match s.gateAt (.snap b) with
  | some m =>
    if s.launchDue (.snap b) ∧ !s.gates.any (goesFirst s m) then
      let l := latchGroup s (s.fld F.DV_SNAP_GROUP [b]) (s.fld F.DV_SNAP_DIE [b]) (s.fld F.DV_SNAP_TILE [b])
      (((s.dropGate (.snap b)).setBank b l).setFld F.DV_SNAP_STATE 2 [b]).setFld F.DV_SNAP_AT_COUNT s.now [b]
    else s
  | none => s

def execSnapLatch (bank : Nat) (s : State) : Result := run (.snapLatch bank) s (snapLatch bank s)

/-- The latches armed on a die's scope, or all of them, are cancelled (R437, R61). -/
def cancelSnaps (die : Option Nat) (s : State) : State :=
  s.forAll ([0, 1, 2, 3].filter (fun b => s.fld F.DV_SNAP_STATE [b] = 1 && (match die with
    | some d => groupLevel (s.fld F.DV_SNAP_GROUP [b]) ≠ 0 && s.fld F.DV_SNAP_DIE [b] = d
    | none => true))) (fun b s => (s.dropGate (.snap b)).setFld F.DV_SNAP_STATE 3 [b])

/-- What a read of a bank answers on either path. -/
def State.readSnap (s : State) (b a : Nat) : Nat × Nat :=
  if !s.boot.pwrGood then (stPower, 0)
  else if malformedAddr a then (stAddress, 0)
  else if 3 < b ∨ s.fld F.DV_SNAP_STATE [b] ≠ 2 then (stSnap, 0)
  else match (s.bank b).find? (fun e => e.1 = a) with
    | some e => (stOk, e.2)
    | none => (stSnap, 0)

def snapReadReq (r : MgrReq) (_ : Packet) (s : State) : Option (Nat × Nat) × State :=
  let (st, v) := s.readSnap r.bank r.addr
  if st = stOk then (some (st, v), s) else refusal st s

def execSnapRead (pid : Nat) (s : State) : Result := run (.snapRead pid) s (mgrRequest pid (fun r => r.op = 4) snapReadReq s)

/-! ## The SMBus target (R431) -/

/-- The 7-bit address of the target. -/
def State.smbusAddr (s : State) : Nat := 0x58 + s.fld F.SL_STATUS_POS

/-- The read part of a call: a byte count of 9, a status byte, and the value, most significant byte first (R11). -/
def smbusReply (a : Nat × Nat) : List Byte := [9] ++ beBytes 1 a.1 ++ beBytes 8 a.2

/-- A call to the target: `n` bytes of write data, then the command's answer. -/
def smbusCall (target n : Nat) (data : List Byte) (pecOk : Bool) (ans : State → Nat × Nat) (s : State) : State :=
  if target ≠ s.smbusAddr ∨ !s.boot.vaux then s
  else s.emit (.smbus (smbusReply (if !pecOk ∨ data.length ≠ n then (stFormat, 0) else ans s)))

def execSmbusRead (target : Nat) (data : List Byte) (pecOk : Bool) (s : State) : Result :=
  run (.smbusRead target data pecOk) s (smbusCall target 5 data pecOk (fun s => s.readReg (beNat data)) s)

def execSmbusSnapRead (target : Nat) (data : List Byte) (pecOk : Bool) (s : State) : Result :=
  run (.smbusSnapRead target data pecOk) s (smbusCall target 6 data pecOk (fun s => s.readSnap (byteNat data 0 1) (byteNat data 1 5)) s)

/-- ALERT_RESPONSE: the target answers with its own address, and nothing else changes (R18). -/
def alertResponse (s : State) : State := if s.boot.vaux then s.emit (.smbusAlert s.smbusAddr) else s

def execAlertResponse (s : State) : Result := run .alertResponse s (alertResponse s)

/-! ## Die supplies (R42, R394) -/

/-- The voltage the Power Manager sets where it would choose `mv`: between 0.65 V and 0.85 V (R41), no higher than now while Tj exceeds
95 °C (log 164) or the package's power exceeds its cap (R395, log 190), and, on a die with live scheduled traffic, never below the floor
in force (R42). -/
def vcoreTarget (s : State) (d mv : Nat) : Nat :=
  let cur := s.fld F.PW_DIE_STATE_VCORE_MV [d]
  let v := min 850 (max 650 mv)
  let v := if 760 < toSigned 12 (s.fld F.PW_DIE_STATE_TJ [d]) ∨ s.overCap then max 650 (min v cur) else v
  if s.schedLive d then max v s.floorInForce.vmin else v

/-- VCORE_SETTLE: the core voltage of a powered die has come to rest at what the Power Manager set; AT_FLOOR follows it
(`State.atFloor`), and the package's power over the last 1 ms is `watts` (R395). A die with a region that reads pace 0 keeps its setting
(R28). -/
def vcoreSettle (d mv watts : Nat) (s : State) : State :=
  let s := s.setFld F.PW_CAP_PACKAGE_W watts
  if s.fld F.SM_DIE_STATE_POWERED [d] = 1 ∧ !s.safe.paceZero.any (fun x => x / 8 = d) then
    s.setFld F.PW_DIE_STATE_VCORE_MV (vcoreTarget s d mv) [d]
  else s

def execVcoreSettle (d mv watts : Nat) (s : State) : Result := run (.vcoreSettle d mv watts) s (vcoreSettle d mv watts s)

end Sys2Proof.Machine
end

