-- ==== Sys2Proof/Machine/Launch.lean ====
section
/-! DEFINITION. The step of the counter (R61), a barrier's release at M (R69, R71, R426), Fallow rows (R424), and the write of
SM_ADMIT. -/

namespace Sys2Proof.Machine

/-! ## COUNTER_STEP (R61) -/

/-- A step may be made now: the first setting always; any other only under STEP_ARM with nothing scheduled. -/
def stepAllowed (s : State) : Bool :=
  s.time.mode = .unset || (s.fld F.TK_CTRL_STEP_ARM = 1 && !dies.any (fun d => s.schedLive d))

/-- A participant that waits for M is cancelled. -/
def cancelBarrier (s : State) : State :=
  match s.time.barrier with
  | some b => if b.phase = .released then barrierGoLate b 3 (s.dropGate .barrier) else s.dropGate .barrier
  | none => s.dropGate .barrier

/-- One pending launch is cancelled: its register shows that nothing is pending. -/
def cancelLaunch (g : GateId) (s : State) : State :=
  match g with
  | .sgSwitch => (s.dropGate g).setFld F.SG_CTRL_PENDING 0
  | .niAge => (s.dropGate g).setFld F.NI_AGE_PENDING 0
  | .rbSwap => (s.dropGate g).setFld F.RB_BANKS_PENDING 0
  | .rbResume | .admitAt _ => s.dropGate g
  | .fallow d => cancelFallow d s
  | .snap b => (s.dropGate g).setFld F.DV_SNAP_STATE 3 [b]
  | .barrier => cancelBarrier s
  | .wbStart _ _ _ | .wbRelease _ _ _ => s

/-- Every counter takes the source's time; what waited for a count beyond the old or the new one is cancelled, a pending swap whatever its
count (R185), and every active
Field is fenced. The state becomes ACQUIRING. -/
def counterStep (s : State) : State :=
  match s.time.stepTheta with
  | none => s
  | some θ =>
    if !stepAllowed s then s
    else
      let new := (((s.now : Int) - θ) % (2 ^ 64 : Int)).toNat
      let least := min s.now new
      let s := s.forAll (s.gates.filter (fun g => decide (least < g.at_) || g.id = .rbSwap)) (fun g s => cancelLaunch g.id s)
      let s : State := { s with time := { s.time with count := new, stepTheta := none, peers := (s.time.peers.map (fun e => (e.1, { e.2 with off := 0 }))).filter (fun e => e.2 ≠ {}) } }
      let s := ((s.setFld F.TK_CTRL_STEP_ARM 0).setFld F.TK_STATUS_STEP_WAIT 0).bump F.TK_EVENTS_STEPS
      let s := s.forAll ((List.range 16).filter (fun n => s.fld F.DV_FIELD_SLOT_STATE [n] = 2)) (fun n s => fenceField n false s)
      showBound (setMode .acquiring (timeEvent 0x02 s))

def execCounterStep (s : State) : Result := run .counterStep s (counterStep s)

/-! ## BARRIER_FIRE (R69, R71, R426) -/

/-- The participant may release now: time is valid, its bound holds at M and not later, and what starts is still ready. DEDUCED (log
163): a participant without valid time at M answers LATE, since its release could not fall within R70. -/
def mayRelease (s : State) (b : BarrierRec) : Bool :=
  s.timeValid && decide (s.fld F.TK_STATUS_BOUND_PS ≤ 1500) && !s.gateLate s.leadDie b.m && (if b.kind = 1 then barrierReady s b else s.fld F.SM_STATUS_STATE = 0)

/-- Field launch: one credit to LAUNCH_SLOT on every tile of the Field here, but for a die whose gates treat time as invalid (R47). -/
def launchField (b : BarrierRec) (s : State) : State :=
  match s.slotOf b.field with
  | some n => s.forAll (((s.slotRows n).filter (fun r => s.gateTime r.1)).flatMap rowTiles) (fun x s => creditSlot x.1 x.2 b.launchSlot false s)
  | none => s

/-- The table version that is SEALED becomes CURRENT at M (R120). -/
def switchNow (m : Nat) (s : State) : State :=
  let v := s.otherVer
  if s.verState v = 2 then
    let s : State := { s with ni := { s.ni with switchedAt := m } }
    let s := (((s.setVerState (1 - v) 4).setVerState v 3).setFld F.SG_CTRL_CURRENT v)
    s.setFld F.SG_HOLD_END_COUNT (holdEnd s)
  else s

/-- The armed actions, in their order: bank, version, resume. A bank whose cells are not ceded cannot be taken (R185). -/
def admitActions (b : BarrierRec) (s : State) : State :=
  if !admitArmedFor s b then s
  else
    let ceding := s.fld F.SM_ADMIT_BANK = 1 ∧ dies.any (fun d => s.fld F.GK_REGIONS_CEDE_PENDING [d] = 1)
    let sw := s.fld F.SM_ADMIT_SWITCH = 1
    let re := s.fld F.SM_ADMIT_RESUME = 1
    let s := if s.fld F.SM_ADMIT_BANK = 1 then swapNow ((s.armGate .rbSwap b.m).setFld F.RB_BANKS_PENDING 1) else s
    let s := if sw then switchNow b.m s else s
    let s := if re then resumeFields (s.fld F.RB_RESUME_MASK) s else s
    admitOver b (if ceding then 4 else 1) s

/-- BARRIER_FIRE: at M the participant releases, or answers LATE. -/
def barrierFire (s : State) : State :=
  match s.time.barrier with
  | some b =>
    if b.phase = .released ∧ s.gateAt .barrier = some b.m ∧ b.m ≤ s.now then
      let s := s.dropGate .barrier
      if mayRelease s b then
        let fired := { b with phase := .fired }
        let s := s.setBarrier (some fired)
        let s := if b.root = s.device then barrierOutcome fired s else s
        if b.kind = 1 then launchField b s else admitActions b s
      else barrierGoLate b 3 s
    else s
  | none => s

def execBarrierFire (s : State) : Result := run .barrierFire s (barrierFire s)

/-- SM_ADMIT (R426): a write arms the actions it names. -/
def admitWrite (x : RegSpec) (k : List Nat) (v : Nat) (s : State) : Except Nat State :=
  if !s.timeValid then .error stLate
  else (plainWrite x k v s).map (fun s => (s.setFld F.SM_ADMIT_ARMED 1).setFld F.SM_ADMIT_RESULT 0)

def execSmAdmit (pid : Nat) (s : State) : Result := run (.smAdmit pid) s (writeCmd .admitArm admitWrite pid s)

/-! ## Fallow rows (R424) -/

/-- The entry that SM_FALLOW_REQ names: its physical row, whether it is usable and whether it is in use. -/
def fallowEntry (s : State) (d : Nat) : Nat × Bool × Bool :=
  if s.fld F.SM_FALLOW_REQ_ENTRY [d] = 0 then
    (s.fld F.SM_FALLOW_PHYS0 [d], s.fld F.SM_FALLOW_USABLE0 [d] = 1, s.fld F.SM_FALLOW_IN_USE0 [d] = 1)
  else (s.fld F.SM_FALLOW_PHYS1 [d], s.fld F.SM_FALLOW_USABLE1 [d] = 1, s.fld F.SM_FALLOW_IN_USE1 [d] = 1)

/-- A Field in state active holds the row. -/
def rowActive (s : State) (d r : Nat) : Bool :=
  match s.rowOwner1 d r with
  | some n => s.fld F.DV_FIELD_SLOT_STATE [n] = 2
  | none => false

/-- SM_FALLOW_AT: arms the switch-in that SM_FALLOW_REQ names. -/
def fallowWrite (_ : RegSpec) (k : List Nat) (m : Nat) (s : State) : Except Nat State :=
  let d := k.headD 0
  let r := s.fld F.SM_FALLOW_REQ_LROW [d]
  let e := fallowEntry s d
  if launchBar s m = stOk ∧ !s.boundaryOk m then .error stRange
  else armWrite m (fun s =>
    if r < s.rowsPerDie ∧ !rowActive s d r ∧ e.2.1 ∧ !e.2.2 ∧ s.fld F.SM_FALLOW_REQ_PENDING [d] = 0 then
      some (((s.armGate (.fallow d) m).setFld F.SM_FALLOW_REQ_PENDING 1 [d]).setFld F.SM_FALLOW_AT_COUNT m [d])
    else none) s

def execSmFallowAt (pid : Nat) (s : State) : Result := run (.smFallowAt pid) s (writeCmd .fallowAt fallowWrite pid s)

/-- The logical row maps to the Fallow row; the former physical row is retired; the 64 tiles start as after a tile reset. -/
def switchIn (d : Nat) (s : State) : State :=
  let r := s.fld F.SM_FALLOW_REQ_LROW [d]
  let old := s.physRow d r
  let p := (fallowEntry s d).1
  let s := ((s.dropGate (.fallow d)).setFld F.SM_FALLOW_REQ_PENDING 0 [d]).setBit F.SM_FALLOW_RETIRED old true [d]
  let s := if s.fld F.SM_FALLOW_REQ_ENTRY [d] = 0 then (s.setFld F.SM_FALLOW_LROW0 r [d]).setFld F.SM_FALLOW_IN_USE0 1 [d]
    else (s.setFld F.SM_FALLOW_LROW1 r [d]).setFld F.SM_FALLOW_IN_USE1 1 [d]
  let s := s.forAll (rowTiles (d, r)) (fun x s => resetTile x.1 x.2 s)
  (s.setBit F.SM_ROWS_SUSPECT r false [d]).log 0x0D 0x02 d (beBytes 1 d ++ beBytes 1 p ++ beBytes 1 r)

/-- FALLOW_SWITCH_IN: at COUNT, unless the row has become active or the die is fenced. -/
def fallowSwitchIn (d : Nat) (s : State) : State :=
  match s.gateAt (.fallow d) with
  | some m =>
    if s.gateOpen d m then
      if rowActive s d (s.fld F.SM_FALLOW_REQ_LROW [d]) ∨ s.dieFenced d then cancelFallow d s else switchIn d s
    else s
  | none => s

def execFallowSwitchIn (d : Nat) (s : State) : Result := run (.fallowSwitchIn d) s (fallowSwitchIn d s)

end Sys2Proof.Machine
end

