-- ==== Sys2Proof/Machine/Admission.lean ====
section
/-! DEFINITION. Fuse orders (R338, R339), admission and eviction of Fields (R353 to R357, R444), and the release of Milestone
gates (R38). -/

namespace Sys2Proof.Machine

/-! ## Fuse orders -/

/-- A Season group: its fields of FS_SEASONS, the number of its Seasons, and what "none" reads. -/
structure SeasonGroup where
  cur : Fld
  spoiled : Fld
  count : Nat
  none_ : Nat

def seasonGroup (g : Nat) : Option SeasonGroup :=
  match g with
  | 1 => some ⟨F.FS_SEASONS_OWNER, F.FS_SEASONS_OWNER_SPOILED, 4, 7⟩
  | 3 => some ⟨F.FS_SEASONS_HEDGE, F.FS_SEASONS_HEDGE_SPOILED, 4, 7⟩
  | 5 => some ⟨F.FS_SEASONS_TRIM, F.FS_SEASONS_TRIM_SPOILED, 8, 15⟩
  | _ => none

/-- The lowest blank Season above every committed and spoiled one (R338). -/
def nextSeason (s : State) (x : SeasonGroup) : Nat :=
  let c := s.fld x.cur
  ((List.range x.count).filter (fun n => s.fbit x.spoiled n)).foldl (fun m n => max m (n + 1)) (if c = x.none_ then 0 else c + 1)

/-- The rule of an order's group: 0, or the result code of its refusal. -/
def orderRule (s : State) (l : List Byte) : Nat :=
  let g := byteNat l 3 1
  let season := byteNat l 20 1
  let value := (l.drop 24).take 48
  match seasonGroup g with
  | some x =>
    let n := nextSeason s x
    if x.count ≤ n then 5
    else if season = n ∧ (if g = 5 then allZero (value.drop 32) else !allZero value) then 0 else 4
  | none =>
    if g = 2 then (if s.fld F.FS_SEASONS_ROLLBACK < season ∧ season ≤ s.trust.image.rollback ∧ allZero value then 0 else 4)
    else if g = 4 then (if season = 0 ∧ allZero value then 0 else 4)
    else 4

/-- The result code of an order's refusal, or 0 where it is applied (R339). -/
def orderBar (s : State) (l : List Byte) : Nat :=
  let form := l.length = 3533 ∧ l.take 3 = [0x59, 0x4F, 1] ∧ allZero ((l.drop 21).take 3) ∧ allZero ((l.drop 72).take 56)
  if !form ∨ s.fld F.TC_STATUS_STATE ≠ 1 ∨ !sigOk s.trust.image.signer "YFK FUSE ORDER" (l.take 128) (l.drop 128) then 2
  else if (l.drop 4).take 16 ≠ ownId then 3
  else if s.fld F.FS_ORDER_BUSY = 1 then 6
  else orderRule s l

/-- The outcome of an order shows in FS_ORDER and is logged. -/
def orderOutcome (result : Nat) (s : State) : State :=
  let s := s.setFld F.FS_ORDER_RESULT result
  s.log 0x0B 0x02 8 (trustDetail s 0 result)

/-- FUSE_ORDER, whole: it is refused, or programming begins. -/
def fuseAct (_ : Xfer) (l : List Byte) (s : State) : (Nat × Nat) × State :=
  let bar := orderBar s l
  let s := s.setFld F.FS_ORDER_GROUP (byteNat l 3 1)
  if bar = 0 then ((stOk, 0), { s.setFld F.FS_ORDER_BUSY 1 with trust := { s.trust with order := some (l.take 128) } })
  else targetCode bar (orderOutcome bar s)

/-- FUSE_ORDER: the XFER_IN that opens it, or the MGR_DATA that completes it. -/
def fuseOrder (pid : Nat) (s : State) : State := mgrData pid .fuse earlyBytes fuseAct (mgrRequest pid (isXfer 5) (inOnly fuseAct) s)

def execFuseOrder (pid : Nat) (s : State) : Result := run (.fuseOrder pid) s (fuseOrder pid s)

/-- The six words of a Season's hash. -/
def setHash (f : Fld) (n : Nat) (word : Nat → Nat) (s : State) : State := s.forAll (List.range 6) (fun w s => s.setFld f (word w) [n, w])

/-- The anti-rollback count that a counter of 128 bits spells: the bits set from bit 0 up to the first clear one (R340). -/
def thermoCount (w : Nat) : Nat := ((List.range 128).takeWhile w.testBit).length

/-- The copies of the anti-rollback counter and the debug lock are these; a read takes the OR of the two (R337). -/
def setCopies (c : FuseCopies) (s : State) : State :=
  let t : State := { s with trust := { s.trust with copies := c } }
  (t.setFld F.FS_SEASONS_ROLLBACK (thermoCount (c.counterA ||| c.counterB))).setFld F.FS_SEASONS_DEBUG_LOCK (c.lockA ||| c.lockB)

/-- The fuses an order writes, when it succeeds. -/
def orderApply (l : List Byte) (s : State) : State :=
  let g := byteNat l 3 1
  let n := byteNat l 20 1
  let word (w : Nat) : Nat := byteNat l (24 + 8 * w) 8
  let c := s.trust.copies
  match g with
  | 1 => (setHash F.FS_OWNER_HASH_HASH n word s).setFld F.FS_SEASONS_OWNER n
  | 2 => setCopies { c with counterA := c.counterA ||| (2 ^ n - 1), counterB := c.counterB ||| (2 ^ n - 1) } s
  | 3 => (setHash F.FS_HEDGE_HASH_HASH n word s).setFld F.FS_SEASONS_HEDGE n
  | 4 => setCopies { c with lockA := 1, lockB := 1 } s
  | _ => { s.setFld F.FS_SEASONS_TRIM n with trust := { s.trust with trims := tabSet [] s.trust.trims [n] ((l.drop 24).take 32) } }

/-- An interrupted or failed write: the Season is spoiled; what its bits hold is open, and which bits of each copy of a counter or lock
were written. -/
def orderSpoil (l : List Byte) (s : State) : State :=
  let g := byteNat l 3 1
  let n := byteNat l 20 1
  let bits (k : Nat) : Nat := (Config.spoiledBits (s.fresh + k)).toNat
  let t : State := { s with fresh := s.fresh + 6 }
  let c := s.trust.copies
  let part (k : Nat) : Nat := (2 ^ n - 1) &&& (bits k + 2 ^ 64 * bits (k + 1))
  match g with
  | 1 => (setHash F.FS_OWNER_HASH_HASH n bits t).setBit F.FS_SEASONS_OWNER_SPOILED n true
  | 2 => setCopies { c with counterA := c.counterA ||| part 0, counterB := c.counterB ||| part 2 } t
  | 3 => (setHash F.FS_HEDGE_HASH_HASH n bits t).setBit F.FS_SEASONS_HEDGE_SPOILED n true
  | 4 => setCopies { c with lockA := c.lockA ||| bits 0 % 2, lockB := c.lockB ||| bits 1 % 2 } t
  | _ => t.setBit F.FS_SEASONS_TRIM_SPOILED n true

/-- FUSE_ORDER_DONE. -/
def fuseOrderDone (ok : Bool) (s : State) : State :=
  match s.trust.order with
  | none => s
  | some l =>
    let s : State := { s.setFld F.FS_ORDER_BUSY 0 with trust := { s.trust with order := none } }
    if ok then orderOutcome 1 ((orderApply l s).bump F.FS_ORDER_ORDERS) else orderOutcome 7 (orderSpoil l s)

def execFuseOrderDone (ok : Bool) (s : State) : Result := run (.fuseOrderDone ok) s (fuseOrderDone ok s)

/-! ## The admission record (R353) -/

/-- The rows a record names, as (die, row). -/
def recordRows (l : List Byte) : List (Nat × Nat) :=
  dies.flatMap (fun d => (List.range 32).filterMap (fun r => if (byteNat l (16 + 4 * d) 4).testBit r then some (d, r) else none))

/-- The rows of the record of a slot that is held. -/
def State.grantRows (s : State) (n : Nat) : List (Nat × Nat) := if s.fld F.DV_FIELD_SLOT_STATE [n] = 0 then [] else recordRows (s.admitRecord n)

/-- Bytes `o` to `o + n − 1` of the grant of die `d`. -/
def grantAt (l : List Byte) (d o n : Nat) : Nat := byteNat l (320 + 32 * d + o) n

/-- The grants of a record take their places on every die (*Die grant*). -/
def writeGrants (n f : Nat) (l : List Byte) (s : State) : State :=
  let s := (s.setFld F.GL_GRANT_CTX_BASE (byteNat l 50 2) [n]).setFld F.GL_GRANT_CTX_COUNT (byteNat l 52 2) [n]
  s.forAll dies (fun d s =>
    let g := grantAt l d
    let owner (o m c t : Nat) (s : State) : State :=
      (((s.setFld F.GK_OWNER_MIN_CELLS m [d, o]).setFld F.GK_OWNER_SHARE_CAP c [d, o]).setFld F.GK_OWNER_TALLY_AGE_US t [d, o]).setFld F.GK_TALLY_HIGH_WATER (s.held d o) [d, o]
    let s := ((s.setFld F.SH_GRANT_ID_BASE (g 0 2) [d, n]).setFld F.SH_GRANT_ID_COUNT (g 2 2) [d, n]).setFld F.SH_GRANT_NODES (g 4 2) [d, n]
    let s := ((s.setFld F.SH_GRANT_NARROW_CHUNKS (g 6 1) [d, n]).setFld F.SH_GRANT_WIDE_CHUNKS (g 7 1) [d, n]).setFld F.WN_GRANT_JOBS (g 8 1) [d, n]
    let s := (s.setFld (F.XM_SHARE n) (g 9 1) [d]).setFld (F.GK_FMAP (f % 8)) (g 10 1) [d, f / 8]
    owner (32 + n) (g 16 2) (g 18 2) (g 22 2) (owner (16 + n) (g 12 2) (g 14 2) (g 20 2) s))

/-- A record whose grants are all returned (R357): its die grants are zero but for the DATA owner of GK_FMAP, 0x02. -/
def emptyGrants : List Byte := List.replicate 320 0 ++ (dies.flatMap (fun _ => List.replicate 10 0 ++ [2] ++ List.replicate 21 0)) ++ List.replicate 1281 0

/-! ## ADMIT (R354) -/

/-- Check 1: the format of the record. -/
def admitForm (l : List Byte) : Bool :=
  l.length = 1857 && l.take 4 = [0x59, 0x46, 1, 1] && decide (byteNat l 4 2 < 4096) && (decide (byteNat l 6 1 < 16) || byteNat l 6 1 = 0xFF)
    && byteNat l 7 1 = 0 && decide (byteNat l 50 2 < 4096) && allZero ((l.drop 54).take 10)
    && (List.range 16).all (fun h => (byteNat l 48 2).testBit h || allZero ((l.drop (64 + 16 * h)).take 16))
    && dies.all (fun d => decide (grantAt l d 9 1 ≤ 15) && (grantAt l d 10 1 = 2 || decide (64 ≤ grantAt l d 10 1)) && grantAt l d 11 1 = 0
        && allZero ((l.drop (320 + 32 * d + 24)).take 8))

/-- The slot an ADMIT takes, where it is free. -/
def admitSlot (s : State) (l : List Byte) : Option Nat :=
  let n := byteNat l 6 1
  ((List.range 16).filter (fun k => s.fld F.DV_FIELD_SLOT_STATE [k] = 0 && (n = 0xFF || k = n))).head?

/-- Slots that hold a Field other than one being evicted. -/
def fieldCount (s : State) : Nat :=
  ((List.range 16).filter (fun n => decide (1 ≤ s.fld F.DV_FIELD_SLOT_STATE [n] ∧ s.fld F.DV_FIELD_SLOT_STATE [n] ≤ 3))).length

/-- Check 4: a row is missing, held, or breaks DIE_EXCLUSIVE. A row that failed the self-test counts as missing (R371). -/
def rowsRefused (s : State) (rows : List (Nat × Nat)) : Bool :=
  let held := (List.range 16).flatMap s.grantRows
  rows.any (fun x => decide (s.rowsPerDie ≤ x.2) || s.fbit F.SL_BIST_FAILED (s.physRow x.1 x.2) [x.1] || (s.rowOwner1 x.1 x.2).isSome || x ∈ held
    || (planDieExclusive s && held.any (fun y => y.1 = x.1)))

/-- What the slots other than `n` have been granted on a die. -/
def granted (s : State) (n d o w : Nat) : Nat :=
  (((List.range 16).filter (fun k => k ≠ n && s.fld F.DV_FIELD_SLOT_STATE [k] ≠ 0)).map (fun k => grantAt (s.admitRecord k) d o w)).sum

/-- Check 5 on one die: the slice totals of R269, less what is withheld, and the 64 jobs. -/
def totalsBroken (s : State) (n : Nat) (l : List Byte) (d : Nat) : Bool :=
  let over_ (o w m : Nat) : Bool := decide (m < granted s n d o w + grantAt l d o w)
  over_ 4 2 256 || over_ 6 1 (32 - tabGet 0 s.safe.lanesOut [d, 0]) || over_ 7 1 (16 - tabGet 0 s.safe.lanesOut [d, 1]) || over_ 8 1 64
    || decide (65536 < grantAt l d 0 2 + grantAt l d 2 2)

/-- The Gleaner range breaks R312, or overlaps another Field's. -/
def ctxRangeBroken (s : State) (n : Nat) (l : List Byte) : Bool :=
  let a := byteNat l 50 2
  let b := a + byteNat l 52 2
  decide (4096 < b) || (List.range 16).any (fun k => k ≠ n && s.fld F.DV_FIELD_SLOT_STATE [k] ≠ 0 &&
    decide (max a (byteNat (s.admitRecord k) 50 2) < min b (byteNat (s.admitRecord k) 50 2 + byteNat (s.admitRecord k) 52 2)))

/-- The state as it will be once the record, and those of every slot that is ADMITTING, have been written. -/
def withGrants (s : State) (n : Nat) (l : List Byte) : State :=
  let s := s.forAll ((List.range 16).filter (fun k => s.fld F.DV_FIELD_SLOT_STATE [k] = 1)) (fun k s => writeGrants k (s.slotField k) (s.admitRecord k) s)
  writeGrants n (byteNat l 4 2) l s

def shareSum (s : State) (d : Nat) : Nat := ((List.range 16).map (fun k => s.fld (F.XM_SHARE k) [d])).sum

/-- Check 6 on one die. -/
def ownersBroken (t : State) (n : Nat) (l : List Byte) (d : Nat) : Bool :=
  decide (2 ^ 15 ≤ max (max (grantAt l d 12 2) (grantAt l d 14 2)) (max (grantAt l d 16 2) (grantAt l d 18 2)))
    || !budgetOk t d || !tallyAgeOk t d (16 + n) (grantAt l d 20 2) || !tallyAgeOk t d (32 + n) (grantAt l d 22 2)

/-- The first check of R354 that fails, or 0; with the slot. -/
def admitBar (s : State) (l : List Byte) : Nat × Nat :=
  if !admitForm l then (1, 0)
  else match admitSlot s l with
    | none => (2, 0)
    | some n =>
      if (s.slotOf (byteNat l 4 2)).isSome then (2, n)
      else
        let t := withGrants s n l
        let ends := byteNat l 48 2
        let at_ := byteNat l 8 8
        (if planMaxFields s < fieldCount s + 1 then 3
         else if rowsRefused s (recordRows l) then 4
         else if dies.any (totalsBroken s n l) ∨ ctxRangeBroken s n l ∨ dies.any (fun d => decide (16 < shareSum t d)) then 5
         else if dies.any (ownersBroken t n l) then 6
         else if (List.range 16).any (fun h => ends.testBit h && !s.isEndpoint h) then 7
         else if !Config.pointOk ((l.drop 576).take 97) ∨ !Config.kemKeyOk (l.drop 673) then 8
         else if at_ ≠ 0 ∧ launchBar s at_ ≠ stOk then 9
         else if s.fld F.TC_STATUS_STATE ≠ 1 then 10
         else if s.fld F.TC_STATUS_DEBUG_OPENED = 1 then 11
         else 0, n)

/-- The slot shows its Field. -/
def showSlot (n f st : Nat) (rows : List (Nat × Nat)) (s : State) : State :=
  let mask := (dies.map (fun d => if rows.any (fun x => x.1 = d) then 2 ^ d else 0)).sum
  ((s.setFld F.DV_FIELD_SLOT_FIELD_ID f [n]).setFld F.DV_FIELD_SLOT_STATE st [n]).setFld F.DV_FIELD_SLOT_DIE_MASK mask [n]
    |>.setFld F.DV_FIELD_SLOT_TILE_ROWS rows.length [n]

def addZeroing (rows : List (Nat × Nat)) (s : State) : State :=
  { s with trust := { s.trust with zeroing := s.trust.zeroing ++ rows.filter (fun x => x ∉ s.trust.zeroing) } }

/-- A row holds a clean mark. -/
def State.clean (s : State) (d r : Nat) : Bool := s.fbit F.SM_ROWS_CLEAN r [d]

/-- ADMIT is accepted: the slot is ADMITTING, and every granted row without a clean mark is zeroised (R355). -/
def admitAct (_ : Xfer) (l : List Byte) (s : State) : (Nat × Nat) × State :=
  let (bar, n) := admitBar s l
  if bar ≠ 0 then targetCode bar s
  else
    let rows := recordRows l
    let s := showSlot n (byteNat l 4 2) 1 rows s
    let s : State := { s with trust := { s.trust with admits := tabSet [] s.trust.admits [n] (l.take 576), ownerKeys := tabSet [] s.trust.ownerKeys [n] (l.drop 576) } }
    let s := addZeroing (rows.filter (fun x => !s.clean x.1 x.2)) s
    ((stOk, 0), if byteNat l 8 8 = 0 then s else s.armGate (.admitAt n) (byteNat l 8 8))

def execAdmitField (pid : Nat) (s : State) : Result := run (.admitField pid) s (mgrData pid .admission earlyBytes admitAct s)

/-! ## Activation (R355) -/

/-- Ownership of a row, in both checkers' copies: a slot + 1, or 0. -/
def setOwner (d r v : Nat) (s : State) : State :=
  { s with ni := { s.ni with own1 := tabSet 0 s.ni.own1 [d, r] v, own2 := tabSet 0 s.ni.own2 [d, r] v } }

/-- Bit of Field `f` on half-port `h` in both checkers' copies of the map. -/
def setMapBit (h f : Nat) (v : Bool) (s : State) : State :=
  let k := [h / 2, h % 2, f / 64]
  let s := s.setBit F.NI_FIELD_MAP_MAP (f % 64) v k
  { s with ni := { s.ni with map2 := tabSet 0 s.ni.map2 [h, f / 64] (putBit (tabGet 0 s.ni.map2 [h, f / 64]) (f % 64) v) } }

/-- The Field becomes active. -/
def activate (n : Nat) (s : State) : State :=
  let l := s.admitRecord n
  let f := s.slotField n
  let rows := recordRows l
  let s := s.forAll rows (fun x s => (setOwner x.1 x.2 (n + 1) s).setBit F.SM_ROWS_CLEAN x.2 false [x.1])
  let s := s.forAll (rows.flatMap rowTiles) (fun x s => advanceRole x.1 x.2 s)
  let s := writeGrants n f l s
  let s := s.forAll ((List.range 16).filter (fun h => (byteNat l 48 2).testBit h)) (fun h s =>
    let s := setMapBit h f true s
    { s with trust := { s.trust with partnerIds := tabSet 0 s.trust.partnerIds [n, h] (byteNat l (64 + 16 * h) 16) } })
  s.setFld F.DV_FIELD_SLOT_STATE 2 [n]

/-- FIELD_ACTIVATE: at AT, or when zeroisation has finished. A Field whose AT comes first waits, and the delay is logged. -/
def fieldActivate (n : Nat) (s : State) : State :=
  if s.fld F.DV_FIELD_SLOT_STATE [n] ≠ 1 then s
  else
    let ready := (s.grantRows n).all (fun x => s.clean x.1 x.2)
    if byteNat (s.admitRecord n) 8 8 = 0 then (if ready then activate n s else s)
    else match s.gateAt (.admitAt n) with
      | some m =>
        if !s.launchDue (.admitAt n) then s
        else if ready then activate n (s.dropGate (.admitAt n))
        else if m = 0 then s
        else (s.armGate (.admitAt n) 0).log 0x0C 0x07 8 (resetDetail 0 n 0 0) (s.slotField n)
      | none => s

def execFieldActivate (n : Nat) (s : State) : Result := run (.fieldActivate n) s (fieldActivate n s)

/-! ## EVICT (R357, R444) -/

/-- The code of an EVICT's refusal, or 0. -/
def evictBar (s : State) (l : List Byte) : Nat :=
  let n := byteNat l 6 1
  let st := s.fld F.DV_FIELD_SLOT_STATE [n]
  if !(l.length = 64 && l.take 4 = [0x59, 0x46, 1, 2] && decide (byteNat l 4 2 < 4096) && decide (n < 16) && allZero (l.drop 7)) then 1
  else if st = 0 ∨ s.slotField n ≠ byteNat l 4 2 then 2
  else if s.fld F.TC_STATUS_STATE ≠ 1 then 10
  else if st = 4 then 12
  else 0

/-- EVICT is accepted: the slot is EVICTING, its gates close, and every row it was granted is zeroised; an admission that waits is
cancelled. -/
def startEvict (n : Nat) (s : State) : State :=
  let s := addZeroing (s.grantRows n) ((s.dropGate (.admitAt n)).setFld F.DV_FIELD_SLOT_STATE 4 [n])
  roadEvict (s.slotField n) (closeGate (.field n) s)

def evictAct (_ : Xfer) (l : List Byte) (s : State) : (Nat × Nat) × State :=
  let bar := evictBar s l
  if bar ≠ 0 then targetCode bar s else ((stOk, 0), startEvict (byteNat l 6 1) s)

def execEvict (pid : Nat) (s : State) : Result := run (.evict pid) s (mgrData pid .evict earlyBytes evictAct s)

/-- The Field's packets, engine objects and lanes are gone (R162, R357, R413). -/
def clearFieldObjects (f : Nat) (s : State) : State :=
  let s := s.forAll s.sheaf.nodes (fun e s => match e.1 with
    | [d, g, id] => if g = f then removeNode d g id s else s
    | _ => s)
  let s := s.forAll s.engine.jobs (fun e s => match e.1 with
    | [g, j] => if g = f then removeJob g j s else s
    | _ => s)
  let s := s.forAll s.engine.ctxs (fun e s => match e.1, e.2 with
    | [c], some x => if x.field = f then removeCtx c s else s
    | _, _ => s)
  let s := s.forAll s.gran.pkts (fun e s => match e.2 with
    | some k => if k.p.h.field = f ∧ !fieldless k.p.h.typ then failPkt (e.1.headD 0) 8 s else s
    | none => s)
  { s with gran := { s.gran with waits := s.gran.waits.filter (fun w => w.pk.p.h.field ≠ f || fieldless w.pk.p.h.typ) } }

/-- The owners charged to a slot, and a DATA owner none of whose Fields is fenced any more, are no longer fenced (R165). -/
def unfenceOwners (n : Nat) (s : State) : State :=
  let f := s.slotField n
  s.forAll dies (fun d s =>
    let s := (s.setFld F.GK_OWNER_FENCED 0 [d, 16 + n]).setFld F.GK_OWNER_FENCED 0 [d, 32 + n]
    let o := s.fmap d f
    if ownerKind o = 6 ∧ (slotsOfOwner s d o).all (fun m => m = n || !s.fieldFenced (s.slotField m)) then s.setFld F.GK_OWNER_FENCED 0 [d, o]
    else s)

/-- The gate of a die that is back opens again once no Field with rows on it is fenced (R137). -/
def reopenDies (s : State) : State :=
  s.forAll dies (fun d s =>
    let resetting := match s.safe.request with
      | some r => r.target = d && decide (r.kind = 2 ∨ 4 ≤ r.kind)
      | none => false
    let fenced := s.heldSlots.any (fun n => (s.slotRows n).any (fun x => x.1 = d) && s.fieldFenced (s.slotField n))
    if resetting || fenced || s.dieFenced d || s.fld F.SM_DIE_STATE_POWERED [d] = 0 then s else openGate (.die d) s)

/-- What shows of a Field's fence returns to its reset values. -/
def clearFieldState (n : Nat) (s : State) : State :=
  let s := ((s.setFld F.SM_FIELD_STATE_FENCED 0 [n]).setFld F.SM_FIELD_STATE_SILENT 0 [n]).setFld F.SM_FIELD_STATE_CAUSE 0 [n]
  let s := unfenceOwners n (s.setFld F.SM_FIELD_STATE_FIRST_SEQ 0 [n])
  endRecovery [0, n] { s with safe := { s.safe with handoffs := s.safe.handoffs.filter (fun e => e.1 ≠ n) } }

/-- The slot becomes free: its rows go back, its grants are returned, its endpoint bits are cleared and its owner key is erased. -/
def freeSlot (n : Nat) (s : State) : State :=
  let f := s.slotField n
  let rows := s.slotRows n
  let s := s.forAll (rows.flatMap rowTiles) (fun x s =>
    let e := s.roleEpoch x.1 x.2
    (resetTile x.1 x.2 s).setFld F.TL_OWNER_ROLE_EPOCH ((e + 1) % 256) [x.1, x.2])
  let s := s.forAll rows (fun x s => setOwner x.1 x.2 0 s)
  let s := writeGrants n f emptyGrants (clearFieldState n s)
  let s := s.forAll (List.range 16) (fun h s => if s.isEndpoint h then setMapBit h f false s else s)
  let s : State := { s with trust := { s.trust with admits := tabSet [] s.trust.admits [n] [], ownerKeys := tabSet [] s.trust.ownerKeys [n] [], partnerIds := tabClear s.trust.partnerIds [n] } }
  reopenDies (openGate (.field n) (showSlot n 0 0 [] s))

/-- EVICTION_DONE: the drain has ended and every row has read back zero. -/
def evictionDone (n : Nat) (s : State) : State :=
  if s.fld F.DV_FIELD_SLOT_STATE [n] = 4 ∧ Domain.field n ∈ s.ni.drained ∧ (s.grantRows n).all (fun x => x ∉ s.trust.zeroing) then
    let s := if resetting s n then endRequest 1 s else s
    freeSlot n (clearFieldObjects (s.slotField n) s)
  else s

def execEvictionDone (n : Nat) (s : State) : Result := run (.evictionDone n) s (evictionDone n s)

/-! ## GATE_RELEASE (R38) -/

/-- A Milestone gate releases what it holds; the launches of R68 act as their own commands do. -/
def gateRelease (g : GateId) (s : State) : State :=
  match g with
  | .sgSwitch => signpostSwitch s
  | .niAge => ageLimitChange s
  | .rbSwap => swapNow s
  | .rbResume => resumeNow s
  | .fallow d => fallowSwitchIn d s
  | .snap b => snapLatch b s
  | .admitAt n => fieldActivate n s
  | .barrier => barrierFire s
  | .wbStart d t n => match s.gateAt g with
    | some m => if s.gateOpen d m then startGate d t n s else s
    | none => s
  | .wbRelease d t n => match s.gateAt g with
    | some m => if s.gateOpen d m then releaseGate d t n s else s
    | none => s

def execGateRelease (g : GateId) (s : State) : Result := run (.gateRelease g) s (gateRelease g s)

end Sys2Proof.Machine
end

