-- ==== Sys2Proof/Machine/Sessions.lean ====
section
/-! DEFINITION. Session handshakes of managers (R352), relayed handshakes for relink entries (R350), and debug tokens
(R362). -/

namespace Sys2Proof.Machine

/-! ## SESSION (R352) -/

def State.mgrHsOn (s : State) (k : Nat) : Option HsRec := tabGet none s.trust.mgrHs [k]

def State.setMgrHs (s : State) (k : Nat) (r : Option HsRec) : State :=
  { s with trust := { s.trust with mgrHs := tabSet none s.trust.mgrHs [k] r } }

/-- One MGR_DATA of a handshake message: SEQ and MAC are zero. -/
def sessionOut (s : State) (p : Packet) (key off : Nat) (last : Bool) (bytes : List Byte) : Packet :=
  let units := max 4 ((bytes.length + 63) / 64)
  let front := [1, 2] ++ beBytes 1 key ++ beBytes 1 (b2n last) ++ List.replicate 6 0 ++ beBytes 4 off ++ beBytes 4 bytes.length ++ List.replicate 6 0
  { h := mgrHdr s p 0x8F 1 units, body := front ++ List.replicate 16 0, data := padTo (64 * units) bytes }

/-- A whole message to the manager; one of no bytes takes a packet too. -/
def sendSession (d : Nat) (p : Packet) (key : Nat) (bytes : List Byte) (s : State) : State :=
  let n := max 1 ((bytes.length + 4095) / 4096)
  s.forAll (List.range n) (fun i s => mgrSend d (sessionOut s p key (4096 * i) (i + 1 = n) ((bytes.drop (4096 * i)).take 4096)) s)

/-- The manager's HELLO: MANAGER set, CHAIN_LEN 0, and the public key block of manager key `key` at its end. -/
def onManagerHello (key : Nat) (r : HsRec) (m : List Byte) (s : State) : HsStep :=
  let pk := helloChain m
  if m.length ≠ 3366 ∨ m.take 4 ≠ [1, 2, 0, 0] then .abort 0x01
  else if helloNonce m = helloNonce r.myHello then .abort 0x02
  else if keyId pk = ownId then .abort 0x05
  else if s.trust.image.mgrKeys[key]?.map keyId = some (keyId pk) then takeHello r m pk s
  else .abort 0x01

/-- The session key of what the end with a Key ID transmits. -/
def sessionKey (r : HsRec) (id : List Byte) : List Byte :=
  bytesOfLen 32 (Config.hkdfExpand (prkOf "YFK MGR HS" r) (ascii "YFK MGR KEY" ++ id) 32)

/-- Both DONEs have passed: the session opens, and ends one that the key held. -/
def openSession (key : Nat) (r : HsRec) (s : State) : State :=
  let s := (endSession key s).setMgrHs key none
  let s := s.setSession key (some { rxKey := sessionKey r (keyId r.partner), txKey := sessionKey r ownId })
  s.log 0x0B 0x03 8 (trustDetail s key 0)

/-- Carry out a step of a session handshake: an ABORT ends it, and nothing is sent. -/
def sessionStep (d : Nat) (p : Packet) (key : Nat) (st : HsStep) (s : State) : State :=
  match st with
  | .ignore => s
  | .abort e => (if e = 0x02 ∨ e = 0x03 then s else s.bump F.TC_STATUS_REFUSALS).setMgrHs key none
  | .go r send s' =>
    let s := s'.forAll send (fun m s => sendSession d p key m.2 s)
    if r.over then openSession key r s else s.setMgrHs key (some r)

/-- A message of a session handshake, told from the others by its length: a HELLO starts anew. -/
def sessionMessage (d : Nat) (p : Packet) (key : Nat) (m : List Byte) (s : State) : State :=
  if m.length = 3366 then
    let (r, s) := newHandshake 2 0 s
    match onManagerHello key r m s with
    | .go r send s' => sessionStep d p key (.go r ((1, r.myHello) :: send) s') s
    | st => sessionStep d p key st s
  else match s.mgrHsOn key with
    | none => s
    | some r =>
      let st := if m.length = 1088 then onKemct "YFK MGR HS" r m s
        else if m = [] then onDone r s
        else onFinish "YFK MGR HS" r m s
      sessionStep d p key st s

/-- The message waits, still in its cells: eight other handshakes run (R349). -/
def sessionWaits (s : State) (p : Packet) : Bool :=
  let h := dataHdrOf p
  match s.mgrHsOn h.key with
  | some r => !s.hsTurn r.startedAt (17 + h.key)
  | none => h.len = 3366 && decide (8 ≤ s.hsList.length)

/-- SESSION: MGR_DATA of the handshake, which needs no session. -/
def sessionData (pid : Nat) (s : State) : State :=
  match mgrPkt s pid 0x8F with
  | none => s
  | some k =>
    if dataRowOf s k.p ≠ .session ∨ sessionWaits s k.p then s
    else
      let h := dataHdrOf k.p
      let s := freePkt pid 8 s
      if !checkOk k.p then checkFailure k s
      else if dataMalformed k.p ∨ h.dir ≠ 1 ∨ h.seq ≠ 0 ∨ h.off ≠ 0 ∨ k.p.data.length < h.len ∨ !allZero (k.p.body.drop 24) ∨ !s.trustReady then s
      else sessionMessage k.die k.p h.key (k.p.data.take h.len) s

def execSession (pid : Nat) (s : State) : Result := run (.session pid) s (sessionData pid s)

/-! ## Relayed handshakes (R350) -/

/-- TC_RELAY with START: a relay begins, and its HELLO waits in the mailbox. -/
def relayWrite (x : RegSpec) (k : List Nat) (v : Nat) (s : State) : Except Nat State :=
  if !s.trustReady then .error stState
  else (plainWrite x k v s).map (fun s =>
    let (r, s) := newHandshake 1 0 ((s.setFld F.TC_RELAY_START 0).setFld F.TC_RELAY_STATE 1)
    { s with trust := { s.trust with relay := some r, mailbox := some r.myHello } })

def execRelayStart (pid : Nat) (s : State) : Result := run (.relayStart pid) s (writeCmd .relayStart relayWrite pid s)

/-- The relay ends with a STATE. -/
def endRelay (st : Nat) (s : State) : State :=
  { s.setFld F.TC_RELAY_STATE st with trust := { s.trust with relay := none } }

/-- The entry's key pair is installed, unused. -/
def relayKeys (r : HsRec) (s : State) : State :=
  let h := s.fld F.TC_RELAY_HALF_PORT
  let e := s.fld F.TC_RELAY_ENTRY
  let (tx, rx) := pairOf r
  let s : State := { s with trust := { s.trust with relinkKeys := tabSet none (tabSet none s.trust.relinkKeys [h, e, 0] (some tx)) [h, e, 1] (some rx) } }
  endRelay 2 (s.setFld F.PH_RELINK_KEY_READY 1 (hp h ++ [e]))

/-- The step that a relayed message is, by what has come before it. -/
def relayStep (r : HsRec) (m : List Byte) (s : State) : HsStep :=
  if 1 ∉ r.got then onHello r 1 (fun kind => kind = 2) m s
  else if 2 ∉ r.got then onKemct "YFK LINK HS" r m s
  else if 3 ∉ r.got then onFinish "YFK LINK HS" r m s
  else if m = [] then onDone r s
  else .abort 0x03

/-- A relayed message, whole: what it is answered with waits in the mailbox. -/
def relayAct (_ : Xfer) (m : List Byte) (s : State) : (Nat × Nat) × State :=
  match s.trust.relay with
  | none => targetNo s
  | some r => if !s.hsTurn r.startedAt 16 then ((stState, noValue s), s.tick) else match relayStep r m s with
    | .ignore => targetNo s
    | .abort _ => targetNo { endRelay 3 s with trust := { (endRelay 3 s).trust with mailbox := none } }
    | .go r send s' =>
      let box := (send.getLast?.map (·.2)).or s'.trust.mailbox
      let s' : State := { s' with trust := { s'.trust with relay := some r, mailbox := box } }
      ((stOk, 0), if r.over then relayKeys r s' else s')

/-- RELAY, out: the message in the mailbox. -/
def relayObj (_ : MgrReq) (first len : Nat) (s : State) : Option (List Byte) := s.trust.mailbox.map (fun l => rangeOf l first len)

def relayReq (r : MgrReq) (p : Packet) (s : State) : Option (Nat × Nat) × State :=
  if r.op = 5 then openIn relayAct r p s else sendObject relayObj r p s

/-- RELAY: the transfer that opens it, or the MGR_DATA that completes a message. -/
def relay (pid : Nat) (s : State) : State := mgrData pid .relay earlyBytes relayAct (mgrRequest pid (isXfer 7) relayReq s)

def execRelay (pid : Nat) (s : State) : Result := run (.relay pid) s (relay pid s)

/-- RELAY_TIMEOUT: not DONE within 100 ms. -/
def relayTimeout (s : State) : State :=
  match s.trust.relay with
  | some r => if r.startedAt + usUnits 100000 ≤ s.now then { endRelay 3 s with trust := { (endRelay 3 s).trust with mailbox := none } } else s
  | none => s

def execRelayTimeout (s : State) : Result := run .relayTimeout s (relayTimeout s)

/-! ## DEBUG_TOKEN (R362) -/

/-- The challenge last issued. -/
def challengeBytes (s : State) : List Byte := (List.range 32).map (Config.random s.trust.challenge)

/-- The Trust Core issues a fresh challenge over JTAG. -/
def issueChallenge (s : State) : State :=
  let t : State := { s with trust := { s.trust with challenge := s.fresh } }
  t.tick.emit (.challenge (challengeBytes t))

/-- The token's fields hold, and its two signatures. -/
def tokenOk (s : State) (l : List Byte) : Bool :=
  let cert := (l.drop 51).take 5518
  l.length = 8974 && l.take 3 = [0x59, 0x54, 1] && (l.drop 3).take 16 = ownId && (l.drop 19).take 32 = challengeBytes s
    && certForm cert && certKind cert = 6 && certSigned s.trust.image.vendorRoot cert && sigOk (certKey cert) "YFK DEBUG TOKEN" (l.take 5569) (l.drop 5569)

/-- DEBUG_TOKEN: an extended-debug session opens, or the token is refused; a fresh challenge follows either way. -/
def debugToken (l : List Byte) (s : State) : State :=
  if s.fld F.TC_STATUS_STATE ≠ 1 then s
  else
    let may := s.fld F.FS_SEASONS_DEBUG_LOCK = 0 ∧ planDebugPermit s ∧ s.heldSlots = [] ∧ tokenOk s l
    issueChallenge (if may then (s.setFld F.TC_STATUS_DEBUG_OPENED 1).log 0x0B 0x05 8 (trustDetail s 0 0) else s.log 0x0B 0x06 8 (trustDetail s 0 0))

def execDebugToken (bytes : List Byte) (s : State) : Result := run (.debugToken bytes) s (debugToken bytes s)

end Sys2Proof.Machine
end

