-- ==== Sys2Proof/Machine/Dumps.lean ====
section
/-! DEFINITION. The pre-reset sample and crash dumps (R361, R417 to R419). -/

namespace Sys2Proof.Machine

/-! ## The Keeper state, in clear (R417) -/

/-- The side record of a cell as 64 bits (R155). -/
def cellWord (r : CellRec) : Nat :=
  r.next + b2n r.last * 2 ^ 15 + r.pnext * 2 ^ 16 + b2n r.head * 2 ^ 31 + r.owner * 2 ^ 32 + r.st * 2 ^ 40 + r.allocUs * 2 ^ 42

/-- A register by name, as a read shows it. -/
def State.showReg (s : State) (r : Reg) (k : List Nat) : List Byte :=
  match regTable.find? (fun x => x.reg = r) with
  | some x => beBytes 8 (s.regWord x k)
  | none => []

/-- The Keeper state of a die: side records, GK_STATUS, GK_REGIONS, GK_OUT_CFG0 to 4, GK_DROP and GK_FAULT, then GK_OWNERn and
GK_TALLYn of every owner. -/
def keeperState (s : State) (d : Nat) : List Byte :=
  (List.range 24576).flatMap (fun c => beBytes 8 (cellWord (s.cell d c)))
    ++ s.showReg .GK_STATUS [d] ++ s.showReg .GK_REGIONS [d] ++ (List.range 5).flatMap (fun o => s.showReg .GK_OUT_CFG [d, o])
    ++ s.showReg .GK_DROP [d] ++ s.showReg .GK_FAULT [d]
    ++ (List.range 256).flatMap (fun o => s.showReg .GK_OWNER [d, o]) ++ (List.range 256).flatMap (fun o => s.showReg .GK_TALLY [d, o])

/-- Its length. -/
abbrev keeperBytes : Nat := 24576 * 8 + 9 * 8 + 512 * 8

/-! ## A Field's parts -/

/-- The 8-byte state of a slot: word 0 of WB_QUERY, then the slot's number. -/
def slotStateBytes (n : Nat) (r : SlotRec) : List Byte :=
  leBytes 4 (r.st.code + b2n r.poison * 8 + b2n r.pendingArm * 16 + r.gen * 2 ^ 8 + (r.credits + r.nextCredits) * 2 ^ 16) ++ leBytes 4 n

/-- The queue heads of a tile: the state of every slot that is not IDLE, the armed copies of RUNNING and HELD slots, and the first 8
entries of the ready queue. -/
def queueHeads (s : State) (d t : Nat) : List Byte :=
  let ns := (s.slotsOf d t).filter (fun n => (s.slot d t n).st ≠ .idle)
  ns.flatMap (fun n => slotStateBytes n (s.slot d t n))
    ++ (ns.filter (fun n => (s.slot d t n).st = .running || (s.slot d t n).st = .held)).flatMap (fun n => (s.slot d t n).armed)
    ++ ((s.readyQ d t).take 8).flatMap (leBytes 2)

/-- The first 4 KiB of each of the 64 slivers of 32 KiB. -/
def sliverHeads (s : State) (d t : Nat) : List Byte := (List.range 64).flatMap (fun i => s.readMem d t (i * 32768) 4096)

def stewardBytes (s : State) (d t : Nat) : List Byte :=
  (List.range 65536).map (fun i => tabGet 0 s.tiles.steward (stewardBase d t + i))

/-- A part: its KIND, die, tile and bytes. -/
structure DumpPart where
  kind : Nat
  die : Nat
  tile : Nat
  bytes : List Byte

def DumpPart.image (p : DumpPart) : List Byte :=
  beBytes 1 p.kind ++ beBytes 1 p.die ++ beBytes 2 p.tile ++ beBytes 4 p.bytes.length ++ List.replicate 8 0 ++ p.bytes

/-- The tiles of a slot on the dies of `mask`: those named by detected faults first. -/
def sampleTiles (s : State) (n mask : Nat) : List (Nat × Nat) :=
  let l := dies.flatMap (fun d => if mask.testBit d then
    (List.range 32).flatMap (fun r => if (d, r) ∈ s.slotRows n then rowTiles (d, r) else []) else [])
  l.filter (fun x => x ∈ s.safe.named) ++ l.filter (fun x => x ∉ s.safe.named)

/-- The parts of a Field's share in their three passes. -/
def sampleParts (s : State) (l : List (Nat × Nat)) : List DumpPart :=
  l.map (fun x => ⟨1, x.1, x.2, queueHeads s x.1 x.2⟩) ++ l.map (fun x => ⟨2, x.1, x.2, stewardBytes s x.1 x.2⟩)
    ++ l.map (fun x => ⟨3, x.1, x.2, sliverHeads s x.1 x.2⟩)

/-- The parts that fit, in order; truncation happens at a part boundary. -/
def fitParts : Nat → List DumpPart → List Byte × Bool
  | _, [] => ([], false)
  | room, p :: l =>
    if p.bytes.length + 16 ≤ room then
      let (b, t) := fitParts (room - (p.bytes.length + 16)) l
      (p.image ++ b, t)
    else ([], true)

/-- What the envelope of a Field seals, within its share, and whether it is truncated. -/
def fieldPlain (s : State) (n mask share : Nat) : List Byte × Bool :=
  let l := sampleTiles s n mask
  let (b, t) := fitParts (share - 16) (sampleParts s l)
  (beBytes 2 (s.slotField n) ++ beBytes 2 l.length ++ beBytes 1 (b2n t) ++ List.replicate 11 0 ++ b, t)

/-- A Field envelope (R361), sealed to the owner key with draw `draw`. -/
def fieldEnvelope (s : State) (n seq time draw : Nat) (plain : List Byte) : List Byte :=
  let key := tabGet [] s.trust.ownerKeys [n]
  let kem := key.drop 97
  let front := [0x59, 0x44, 1, 0] ++ beBytes 2 (s.slotField n) ++ beBytes 2 s.device ++ beBytes 4 seq ++ beBytes 8 time ++ keyId key
  let aad := front ++ bytesOfLen 97 (Config.ephemeral draw) ++ bytesOfLen 1088 (Config.kemCipher kem draw) ++ List.replicate 19 0
  let ikm := bytesOfLen 48 (Config.ecdh draw (key.take 97)) ++ bytesOfLen 32 (Config.kemSecret kem draw)
  let k := bytesOfLen 32 (Config.hkdfExpand (Config.hkdfExtract (hashOf front) ikm) (ascii "YFK DUMP") 32)
  aad ++ bytesOfLen (plain.length + 16) (Config.sealBytes k aad plain)

/-- The slots with rows on the dies of `mask`, in slot order. -/
def sampleSlots (s : State) (mask : Nat) : List Nat :=
  s.heldSlots.filter (fun n => (s.slotRows n).any (fun x => mask.testBit x.1))

/-- A section of a dump: KIND, DIE, FIELD and bytes. -/
structure Section where
  kind : Nat
  die : Nat
  field : Nat
  bytes : List Byte

/-- The envelopes of the Fields: what remains is shared equally, and what one does not use passes to those that follow. -/
def fieldSections (s : State) (x : Sample) (seq mask : Nat) : List Nat → Nat → Nat → List Section × Bool
  | [], _, _ => ([], false)
  | n :: l, draw, room =>
    let (plain, cut) := fieldPlain s n mask (room / (l.length + 1))
    let (rest, c) := fieldSections s x seq mask l (draw + 1) (room - plain.length)
    (⟨2, 0, s.slotField n, fieldEnvelope s n seq x.time draw plain⟩ :: rest, cut || c)

/-- Where each section lies. -/
def sectionDir : List Section → Nat → List Byte
  | [], _ => []
  | x :: l, off =>
    beBytes 1 x.kind ++ beBytes 1 x.die ++ beBytes 2 x.field ++ beBytes 4 off ++ beBytes 4 x.bytes.length ++ List.replicate 4 0
      ++ sectionDir l (off + x.bytes.length)

/-- The dump of a sample (R418). -/
def dumpBytes (s : State) (x : Sample) (seq : Nat) : List Byte :=
  let present := dies.filter (fun d => x.mask.testBit d && !x.missing.testBit d)
  let mask := (present.map (2 ^ ·)).sum
  let keepers : List Section := present.map (fun d => ⟨1, d, 0, keeperState s d⟩)
  let (fields, cut) := fieldSections s x seq mask (sampleSlots s mask) s.fresh (8 * 2 ^ 20 - present.length * keeperBytes)
  let secs := keepers ++ fields
  let dir := sectionDir secs (64 + 16 * secs.length)
  let body := dir ++ secs.flatMap (·.bytes)
  let flags := b2n x.incomplete + 2 * b2n cut + 4 * b2n (x.missing ≠ 0)
  [0x59, 0x52, 1] ++ beBytes 1 x.cause ++ beBytes 1 x.mask ++ beBytes 1 flags ++ beBytes 2 s.device ++ beBytes 4 seq ++ beBytes 8 x.time
    ++ beBytes 4 (64 + body.length) ++ beBytes 4 x.eventSeq ++ beBytes 1 secs.length ++ List.replicate 35 0 ++ body

/-! ## The dump area (R419) -/

/-- The dumps that stay when a new one of `len` bytes needs room: released ones go first, then the oldest; with the number of
unreleased dumps lost. -/
def makeRoom (len : Nat) : Nat → List Dump → List Dump × Nat
  | 0, l => (l, 0)
  | n + 1, l =>
    if l.length < 8 ∧ (l.map (·.bytes.length)).sum + len ≤ 12 * 2 ^ 20 then (l, 0)
    else match l.find? (·.released) with
      | some x => makeRoom len n (l.erase x)
      | none => let (r, k) := makeRoom len n (l.drop 1)
                (r, k + 1)

/-- A sample begins (R417). One that covers a reset already being sampled is the same sample, cut short (R427). -/
def beginSample (cause mask : Nat) (cut : Bool) (s : State) : State :=
  let missing := mask &&& (255 - poweredDies s)
  let x : Sample := match s.recorder.sample with
    | some x => { x with cause := cause, mask := x.mask ||| mask, missing := x.missing ||| missing, incomplete := true }
    | none => ⟨cause, mask, missing, s.now, s.fld F.EV_STATUS_HEAD, cut⟩
  { s with recorder := { s.recorder with sample := some x } }

/-- The sample that runs is complete: it becomes a dump. -/
def storeDump (s : State) : State :=
  match s.recorder.sample with
  | none => s
  | some x =>
    let seq := (s.recorder.dumpSeq + 1) % 2 ^ 32
    let bytes := dumpBytes s x seq
    let (kept, lost) := makeRoom bytes.length (s.recorder.dumps.length) s.recorder.dumps
    let t : State := { s with fresh := s.fresh + 16, recorder := { s.recorder with dumps := kept ++ [⟨seq, bytes, false⟩], dumpSeq := seq, sample := none } }
    t.forAll (List.range lost) (fun _ s => s.log 0x0E 0x06 8 (List.replicate 5 0))

/-- The sample that runs ends before it is complete (R368). -/
def cutSample (s : State) : State :=
  storeDump { s with recorder := { s.recorder with sample := s.recorder.sample.map (fun x => { x with incomplete := true }) } }

end Sys2Proof.Machine
end

