-- ==== Sys2Proof/Machine/Resets.lean ====
section
/-! DEFINITION. Resets and power of Fields, dies and the device (R411 to R416), the trips of R393, and the power pins (R366
to R368). -/

namespace Sys2Proof.Machine

/-! ## What a reset keeps -/

/-- The fields of a list whose register is one of `regs`. -/
def keepFlds (regs : List Reg) (flds : Tab Nat) : Tab Nat :=
  let nums := regs.map Reg.ctorIdx
  flds.filter (fun e => e.1.headD 0 ∈ nums)

/-- The registers of a level. -/
def regsAt (level : Nat) : List Reg := (regTable.filter (fun x => x.level = level)).map (·.reg)

/-- Die-level registers that lie outside the die's domain, or that a die reset keeps or sets by its own rule: the Time Keeper's (R27), power and
row state, the Fallow overlay, the Road Book's part, the regions of the active bank and the engine grants (R412). -/
def dieKept : List Reg :=
  [.TK_REPLICA, .TK_PORT_CAL, .TK_PORT_MEAS, .PW_DIE_STATE, .SM_DIE_STATE, .SM_ROWS, .SM_FALLOW, .SM_FALLOW_REQ, .SL_BIST,
   .GK_REGIONS, .SH_GRANT, .WN_GRANT]

/-- The fields a manager or image sets on a die, as they stand: what a die reset reloads (R414). -/
def dieRegs (s : State) (d : Nat) : Tab Nat :=
  let nums := (dieKept.map Reg.ctorIdx)
  let fs := (regTable.filter (fun x => x.level = 1)).flatMap (fun x => (x.fields.filter (fun f => f.acc = .RM || f.acc = .RS)).map (fun f => (x.reg.ctorIdx, f.lo)))
  s.flds.filter (fun e => (e.1.headD 0, e.1.getD 1 0) ∈ fs && e.1.headD 0 ∉ nums && e.1.getD 2 0 = d)

/-- Fields take the values listed, where they hold their defaults. -/
def reloadFlds (l : Tab Nat) (s : State) : State :=
  { s with flds := l.foldl (fun t e => tabInsert e.1 e.2 (tabErase t e.1)) s.flds }

/-- The second checker's copy of a die's Field maps is written with the first. -/
def syncMaps (d : Nat) (s : State) : State :=
  s.forAll [0, 1] (fun i s => s.forAll (List.range 64) (fun w s =>
    { s with ni := { s.ni with map2 := tabSet 0 s.ni.map2 [2 * d + i, w] (s.fld F.NI_FIELD_MAP_MAP [d, i, w]) } }))

/-! ## The units of a die (R412) -/

/-- The slice of a die is empty. -/
def clearSlice (d : Nat) (s : State) : State :=
  let g := s.gran
  let here (e : List Nat × Option Pkt) : Bool := match e.2 with
    | some k => k.die = d
    | none => false
  let gone := (g.pkts.filter here).map (fun e => e.1.headD 0)
  let off (k : List Nat) : Bool := k.headD 0 ≠ d
  { s with gran := { g with
      pkts := g.pkts.filter (fun e => !here e), cells := g.cells.filter (fun e => off e.1), queues := g.queues.filter (fun e => off e.1),
      tokens := g.tokens.filter (fun e => off e.1), tallyFaults := g.tallyFaults.filter (fun e => off e.1), leaking := g.leaking.filter (fun e => off e.1),
      inOrder := (g.inOrder.map (fun e => (e.1, e.2.filter (fun p => p ∉ gone)))).filter (fun e => e.2 ≠ []),
      waits := g.waits.filter (fun w => w.pk.die ≠ d && (match w.kind with
        | .request e _ _ | .engine e _ _ => e ≠ d
        | .response => true)) } }

/-- The tables of a die's tiles and NIs are as after a reset; its tags start their quarantine. -/
def clearTileTables (d : Nat) (s : State) : State :=
  let t := s.tiles
  let lo := stewardBase d 0
  let hi := stewardBase (d + 1) 0
  let tiles : TileState := { t with
    slots := tabClear t.slots [d], ready := tabClear t.ready [d], overflow := tabClear t.overflow [d], issue := tabClear t.issue [d], run := tabClear t.run [d],
    blocked := tabClear t.blocked [d], tagWait := tabClear t.tagWait [d], flags := tabClear t.flags [d], stalls := tabClear t.stalls [d],
    stores := tabClear t.stores [d], almanac := tabClear t.almanac [d],
    steward := t.steward.filter (fun c => !decide (lo ≤ c.1 ∧ c.1 < hi)), sendQ := tabClear t.sendQ [d], resets := tabClear t.resets [d] }
  let n := s.ni
  let mine (x : Domain) : Bool := match x with
    | .tile e _ => e = d
    | _ => false
  let ni : NiState := { n with
    tags := tabClear n.tags [d], tagReset := tabSet 0 (tabClear n.tagReset [d]) [d] s.now, flows := tabClear n.flows [d], echoOwed := tabClear n.echoOwed [d],
    echoSent := tabClear n.echoSent [d], closed := n.closed.filter (fun e => !mine e.1), drained := n.drained.filter (fun e => !mine e),
    checkFails := tabClear (tabClear n.checkFails [2 * d]) [2 * d + 1] }
  let gate (g : Gate) : Bool := match g.id with
    | .wbStart e _ _ | .wbRelease e _ _ => e ≠ d
    | _ => true
  let mlo := tileBase d 0
  let mhi := tileBase (d + 1) 0
  { s with tiles := tiles, ni := ni, gates := s.gates.filter gate, mem := s.mem.filter (fun c => !decide (mlo ≤ c.1 ∧ c.1 < mhi)) }

/-- The engine objects of a die are removed; a context that holds part of it elsewhere is LOST. -/
def clearDieEngines (d : Nat) (s : State) : State :=
  let s := s.forAll s.sheaf.nodes (fun e s => match e.1 with
    | [x, f, id] => if x = d then removeNode d f id s else s
    | _ => s)
  let s := s.forAll s.engine.jobs (fun e s => match e.1, e.2 with
    | [f, j], some x => if x.die = d then removeJob f j s else s
    | _, _ => s)
  s.forAll s.engine.ctxs (fun e s => match e.1, e.2 with
    | [c], some x => if x.die = d then removeCtx c s else if x.extents.any (fun y => y.1 = d) then s.setCtx c (some { x with lost := true }) else s
    | _, _ => s)

/-- A half-port is as after a reset: DOWN, with no keys. -/
def clearHalf (h : Nat) (s : State) : State :=
  let s := goDown h 0 s
  let s : State := { s with trust := { s.trust with relinkKeys := tabClear s.trust.relinkKeys [h], tunnelSeqs := tabClear s.trust.tunnelSeqs [h] } }
  { s with halves := tabSet {} s.halves [h] {} }

/-- Every unit of a die is reset; its registers read their reset values until they are reloaded. -/
def resetDieUnits (d : Nat) (s : State) : State :=
  let s := clearHalf (2 * d + 1) (clearHalf (2 * d) s)
  let s := clearTileTables d (clearSlice d (clearDieEngines d s))
  let drop := ((regsAt 1).filter (fun r => r ∉ dieKept) ++ regsAt 2).map Reg.ctorIdx
  let flds := s.flds.filter (fun e => !(e.1.headD 0 ∈ drop && e.1.getD 2 0 = d))
  let s : State := { s with flds := flds, safe := { s.safe with lanesOut := tabClear s.safe.lanesOut [d], paceZero := s.safe.paceZero.filter (fun x => x / 8 ≠ d) } }
  let s : State := { s with road := { s.road with suspends := tabSet [] s.road.suspends [d] [], lowFloor := tabSet 0 s.road.lowFloor [d] 0, lowPlan := tabSet 0 s.road.lowPlan [d] 0 } }
  reacquire (updateCede d (s.setFld F.SM_ROWS_CLEAN 0 [d]))

/-- The links of half-ports send DOWN units with a reason and go down (R90). -/
def linksDown (hs : List Nat) (reason : Nat) (s : State) : State :=
  s.forAll hs (fun h s =>
    if !s.halfExists h then s
    else
      let s := if s.isEth h then s else sendDown h reason s
      if s.link h = 6 then s
      else
        let s := goDown h 0 s
        s.setHalf h { s.half h with stayDown := true, restartAt := none })

/-- A die's supply is off: no pace is read and no voltage measured (R40, R42). -/
def dieOff (d : Nat) (s : State) : State :=
  ((List.range 8).foldl (fun s r => s.setFld (paceFld r) 0 [d]) s).setFld F.SM_DIE_STATE_POWERED 0 [d] |>.setFld F.PW_DIE_STATE_VCORE_MV 0 [d]

/-! ## SM_RESET (R411) -/

/-- RESULT of a refused request, or 0 where it is accepted. -/
def resetBar (s : State) (kind target : Nat) : Nat :=
  let off := s.fld F.SM_DIE_STATE_POWERED [target] = 0
  if kind = 3 then 0
  else if s.safe.request.isSome then 2
  else if kind = 1 then
    if s.fld F.DV_FIELD_SLOT_STATE [target] = 0 ∨ s.fld F.SM_FIELD_STATE_SILENT [target] = 1 then 3
    else if (s.slotRows target).any (fun x => s.fbit F.SM_ROWS_SUSPECT x.2 [x.1]) then 4 else 0
  else if kind = 5 then (if off then 0 else 5)
  else if off then 5 else 0

/-- The slot or die a write of SM_RESET names. -/
def resetTarget (kind v : Nat) : Nat := if kind = 1 then F.SM_RESET_SLOT.of v else if kind = 3 then 0 else F.SM_RESET_DIE.of v

/-- A write of SM_RESET with a KIND: `start` begins the request on its target. -/
def resetWrite (kind : Nat) (start : Nat → State → State) (_ : RegSpec) (_ : List Nat) (v : Nat) (s : State) : Except Nat State :=
  let n := resetTarget kind v
  if resetBar s kind n ≠ 0 then .error stState
  else
    let t := ((s.setFld F.SM_RESET_SLOT (F.SM_RESET_SLOT.of v)).setFld F.SM_RESET_DIE (F.SM_RESET_DIE.of v)).setFld F.SM_RESET_RESULT 0
    .ok (start n { t with safe := { t.safe with request := some { kind := kind, target := n } } })

/-- The request with a refusal noted in RESULT and in the event log. -/
def resetReq (kind : Nat) (start : Nat → State → State) (r : MgrReq) (p : Packet) (s : State) : Option (Nat × Nat) × State :=
  let (ans, t) := writeReq (resetWrite kind start) r p s
  match ans with
  | some (8, v) => let n := resetTarget kind r.value
                   (some (stState, v), resetOutcome kind n (resetBar s kind n) t)
  | _ => (ans, t)

/-- The command that a write of SM_RESET with a KIND is. -/
def resetCmd (w : WriteRow) (kind : Nat) (start : Nat → State → State) (pid : Nat) (s : State) : State :=
  mgrRequest pid (isWrite s w) (resetReq kind start) s

/-! ## The Field reset (R413) -/

/-- Step 1: the gates close and packets drain. -/
def startFieldReset (n : Nat) (s : State) : State := closeGate (.field n) (endHandoff n s)

def execFieldReset (pid : Nat) (s : State) : Result := run (.fieldReset pid) s (resetCmd .fieldReset 1 startFieldReset pid s)

/-- Step 5: the fence and the recovery end, and the gates reopen. A Field that became fail-silent stays fenced (R427). -/
def fieldResetEnd (n : Nat) (s : State) : State :=
  let tiles := (s.slotRows n).flatMap rowTiles
  let s : State := { s with safe := { s.safe with named := s.safe.named.filter (fun x => x ∉ tiles) } }
  let s := if s.fld F.SM_FIELD_STATE_SILENT [n] = 1 then s
    else
      let s := clearFieldState n s
      if s.fld F.DV_FIELD_SLOT_STATE [n] = 3 then s.setFld F.DV_FIELD_SLOT_STATE 2 [n] else s
  let s := if s.fld F.DV_FIELD_SLOT_STATE [n] = 4 then s else openGate (.field n) s
  reopenDies (endRequest 1 s)

/-- Steps 2 to 4 begin once the drain has ended: tiles are reset, engine objects and cells are gone, rows are being zeroised. -/
def fieldResetBegin (n : Nat) (s : State) : State :=
  let rows := s.slotRows n
  let s := s.forAll (rows.flatMap rowTiles) (fun x s => resetTile x.1 x.2 s)
  let s := addZeroing rows (clearFieldObjects (s.slotField n) s)
  let s : State := { s with safe := { s.safe with request := s.safe.request.map (fun r => { r with begun := true }) } }
  if rows = [] then fieldResetEnd n s else s

/-! ## Die reset and die power (R414, R415) -/

/-- Step 3 and the start of step 4: DOWN units, then the sample of the die. -/
def dieSample (kind d : Nat) (s : State) : State :=
  beginSample (kind + 1 - b2n (kind = 4)) (2 ^ d) false (linksDown [2 * d, 2 * d + 1] (if kind = 4 then 4 else 3) s)

/-- Step 1: the registers are copied, the gates close, and the die's Fields are fenced. Nothing drains when the die is fenced. -/
def startDieReset (kind d : Nat) (s : State) : State :=
  let regs := dieRegs s d
  let s : State := { s with safe := { s.safe with request := s.safe.request.map (fun r => { r with regs := regs }) } }
  let s := closeGate (.die d) s
  let s := s.forAll (slotsOnDie s d) (fun n s => fenceField n false s)
  let s := cancelFallow d (cancelSnaps (some d) s)
  if s.fld F.SM_DIE_STATE_FENCED [d] = 1 then
    dieSample kind d { s with ni := { s.ni with drained := s.ni.drained ++ [.die d] } }
  else s

def execDieReset (pid : Nat) (s : State) : Result := run (.dieReset pid) s (resetCmd .dieReset 2 (startDieReset 2) pid s)
def execDiePowerDown (pid : Nat) (s : State) : Result := run (.diePowerDown pid) s (resetCmd .powerDown 4 (startDieReset 4) pid s)

/-- The copy of a die's registers that is kept outside it. -/
def keepDie (d : Nat) (regs : Tab Nat) (s : State) : State :=
  { s with boot := { s.boot with kept := s.boot.kept.filter (fun e => e.1.getD 2 0 ≠ d) ++ regs } }

/-- The sample of a die has ended: its units are reset, or its supply goes off. -/
def afterDieSample (s : State) : State :=
  match s.safe.request with
  | some r =>
    if r.kind = 2 then
      let s := resetDieUnits r.target s
      { s with safe := { s.safe with request := some { r with begun := true } } }
    else if r.kind = 4 then endRequest 1 (dieOff r.target (resetDieUnits r.target (keepDie r.target r.regs s)))
    else s
  | none => s

/-- A die's regulator has ramped to 0.75 V, or to the floor in force where that binds (R42, R365, R370), and the die is powered. -/
def rampDie (d : Nat) (s : State) : State :=
  (s.setFld F.PW_DIE_STATE_VCORE_MV (vcoreTarget s d 750) [d]).setFld F.SM_DIE_STATE_POWERED 1 [d]

/-- A die power-up: the regulator ramps, and the self-test runs. -/
def startPowerUp (d : Nat) (s : State) : State :=
  let regs := s.boot.kept.filter (fun e => e.1.getD 2 0 = d)
  let t : State := { s with safe := { s.safe with request := s.safe.request.map (fun r => { r with regs := regs, begun := true }) } }
  rampDie d t

def execDiePowerUp (pid : Nat) (s : State) : Result := run (.diePowerUp pid) s (resetCmd .powerUp 5 startPowerUp pid s)

/-! ## The end of a drain (R137) -/

/-- What a request waits for in the drain of a domain. -/
def afterDrain (x : Domain) (s : State) : State :=
  match s.safe.request with
  | some r =>
    if r.begun ∨ s.recorder.sample.isSome then s
    else if r.kind = 1 ∧ x = .field r.target then fieldResetBegin r.target s
    else if (r.kind = 2 ∨ r.kind = 4) ∧ x = .die r.target then dieSample r.kind r.target s
    else s
  | none => s

/-- DRAIN_END, once for a domain. -/
def drainEndAll (x : Domain) (s : State) : State :=
  let t := drainEnd x s
  if x ∈ t.ni.drained ∧ x ∉ s.ni.drained then afterDrain x t else t

def execDrainEnd (x : Domain) (s : State) : Result := run (.drainEnd x) s (drainEndAll x s)

/-! ## Device reset (R368, R412) -/

/-- The Recorder writes out its FIFO (R422). -/
def flushEvents (s : State) : State := s.forAll (List.range s.recorder.fifo.length) (fun _ s => eventWrite s)

/-- Registers that a device reset keeps: those of fuses, of the Time Keeper, of the event log and of the dump area. -/
def deviceKept : List Reg :=
  [.DV_PART, .DV_ALERT, .TK_REPLICA, .TK_STATUS, .TK_SRC, .TK_PORT_CAL, .TK_CTRL, .TK_HOLD, .TK_PTP, .TK_PTP_ROLES, .TK_PPS_OUT, .TK_PPS_IN,
   .TK_EVENTS, .FS_SEASONS, .FS_ORDER, .FS_OWNER_HASH, .FS_HEDGE_HASH, .EV_STATUS, .EV_LOST, .EV_LOST_FIRST, .EV_LOST_LAST, .DM_STATUS, .DM_ACK]

/-- The Time Keeper after a device reset: the counter keeps running at the learned frequency; no source is in use. -/
def timeAfter (t : TimeState) (trim : Nat) : TimeState :=
  { count := t.count, peers := t.peers, freqPpt := t.freqPpt, ratePpt := t.freqPpt, acc := t.acc, mode := t.mode, trimSeason := trim,
    ppsInAt := t.ppsInAt, tod := t.tod, ppsOutHigh := t.ppsOutHigh, ppsOutRiseAt := t.ppsOutRiseAt, ppsOutWidth := t.ppsOutWidth }

/-- The fields that keep their values in part: a failed replica is compared afresh; FS_ORDER keeps ORDERS, and BUSY while the order runs. -/
def resetKeptFlds (old s : State) : State :=
  let s := s.forAll dies (fun d s =>
    let role := old.fld F.TK_REPLICA_ROLE [d]
    let s := (((s.setFld F.TK_REPLICA_ROLE (if role = 2 then 0 else role) [d]).setFld F.TK_REPLICA_AB_DIFF 0 [d]).setFld F.TK_REPLICA_LEAD_DIFF 0 [d])
    let s := (s.setFld F.SM_FALLOW_PHYS0 (old.fld F.SM_FALLOW_PHYS0 [d]) [d]).setFld F.SM_FALLOW_PHYS1 (old.fld F.SM_FALLOW_PHYS1 [d]) [d]
    (s.setFld F.SM_DIE_STATE_POWERED (old.fld F.SM_DIE_STATE_POWERED [d]) [d]).setFld F.PW_DIE_STATE_VCORE_MV (old.fld F.PW_DIE_STATE_VCORE_MV [d]) [d])
  let s := (((s.setFld F.TK_STATUS_SRC_KIND 0).setFld F.TK_STATUS_SRC_INDEX 0).setFld F.TK_STATUS_STEP_WAIT 0).setFld F.TK_CTRL_STEP_ARM 0
  let s := (s.setFld F.TK_PPS_IN_TOD_CLASS 0xFF).setFld F.TK_PPS_IN_TOD_OK 0
  let s := (s.setFld F.TK_STATUS_BOUND_PS 0xFFFFFFFF).setFld F.TK_STATUS_HOPS 0xF
  let s := ((s.setFld F.FS_ORDER_RESULT 0).setFld F.FS_ORDER_GROUP 0).setFld F.FS_SEASONS_FUSE_FAULT 0
  let s := (s.setFld F.SL_STATUS_ROLE (old.fld F.SL_STATUS_ROLE)).setFld F.SL_STATUS_POS (old.fld F.SL_STATUS_POS)
  (s.setFld F.PW_CAP_THERM_TRIPPED (old.fld F.PW_CAP_THERM_TRIPPED)).setFld F.DV_ALERT_MASK 0x3FF

/-- A device reset takes effect: what *What each reset leaves* does not keep is as at the first VAUX. -/
def deviceReset (byMessage : Bool) (s : State) : State :=
  let s := flushEvents (reacquire s)
  let boot : BootState := { vaux := s.boot.vaux, pwrGood := s.boot.pwrGood, resetN := s.boot.resetN, byMessage := byMessage, rowMap := s.boot.rowMap }
  let ni : NiState := { tagReset := if s.now = 0 then [] else dies.map (fun d => ([d], s.now)) }
  let t : State := { flds := keepFlds deviceKept s.flds, time := timeAfter s.time (s.fld F.FS_SEASONS_TRIM), recorder := { s.recorder with sample := none },
                     trust := { trims := s.trust.trims, order := s.trust.order, copies := s.trust.copies }, boot := boot, ni := ni, gran := { nextPid := s.gran.nextPid },
                     safe := { stormAt := s.safe.stormAt }, fresh := s.fresh, out := s.out, pending := s.pending }
  resetKeptFlds s t

/-- A device reset begins: DOWN units, then the sample. It overrides any request, and takes over a sample that runs, or that a die
reset has yet to take (R411, R427). -/
def startDeviceReset (cause : Nat) (s : State) : State :=
  let cut := match s.safe.request with
    | some r => r.kind = 2 && !r.begun
    | none => false
  beginSample cause 0xFF cut (linksDown (List.range 16) 3 s)

/-- SM_RESET with KIND device reset. -/
def execDeviceReset (pid : Nat) (s : State) : Result :=
  run (.deviceReset pid) s (resetCmd .deviceReset 3 (fun _ s => startDeviceReset 2 { s with ni := { s.ni with closed := [], drained := [] } }) pid s)

/-- What follows the sample, by its cause. -/
def afterSample (cause : Nat) (s : State) : State :=
  match cause with
  | 1 => deviceReset false s
  | 2 => deviceReset true (endRequest 1 s)
  | _ => afterDieSample s

/-- DUMP_SAMPLE_DONE. -/
def dumpSampleDone (s : State) : State :=
  match s.recorder.sample with
  | some x => afterSample x.cause (storeDump s)
  | none => s

def execDumpSampleDone (s : State) : Result := run .dumpSampleDone s (dumpSampleDone s)

/-- The device holds in device reset. -/
def State.inReset (s : State) : Bool := s.fld F.SL_STATUS_STATE = 0

/-- RESET_N_FALL: the pin is low for 1 µs. -/
def resetNFall (s : State) : State :=
  if !s.boot.resetN then s
  else
    let s : State := { s with boot := { s.boot with resetN := false, byMessage := false } }
    if !s.boot.pwrGood ∨ s.inReset then s
    else
      let t := startDeviceReset 1 s
      { t with safe := { t.safe with request := none } }

def execResetNFall (s : State) : Result := run .resetNFall s (resetNFall s)

/-! ## Rails and trips (R366, R367, R393) -/

/-- VAUX_UP: the VAUX domain starts. -/
def vauxUp (s : State) : State :=
  if s.boot.vaux then s
  else { s with boot := { s.boot with vaux := true }, time := { s.time with trimSeason := s.fld F.FS_SEASONS_TRIM } }

def execVauxUp (s : State) : Result := run .vauxUp s (vauxUp s)

/-- VAUX_LOSS: everything but the fuses is lost; a Season being written is spoiled (R338, R364). -/
def vauxLoss (s : State) : State :=
  let s := match s.trust.order with
    | some l => orderSpoil l s
    | none => s
  let fuses := keepFlds [.DV_PART, .FS_SEASONS, .FS_OWNER_HASH, .FS_HEDGE_HASH] s.flds
  let t : State := { flds := fuses, trust := { trims := s.trust.trims, copies := s.trust.copies }, boot := { vaux := false, rowMap := s.boot.rowMap }, fresh := s.fresh, out := s.out, pending := s.pending }
  let t := t.forAll dies (fun d t => (t.setFld F.SM_FALLOW_PHYS0 (s.fld F.SM_FALLOW_PHYS0 [d]) [d]).setFld F.SM_FALLOW_PHYS1 (s.fld F.SM_FALLOW_PHYS1 [d]) [d])
  let t := (t.setFld F.FS_SEASONS_FUSE_FAULT 0).setFld F.TK_REPLICA_ROLE 1 [0]
  t.setFld F.DV_ALERT_MASK 0x3FF

def execVauxLoss (s : State) : Result := run .vauxLoss s (vauxLoss s)

/-- PWR_GOOD_RISE: VIN is within range; boot begins with BOOT_START. -/
def pwrGoodRise (s : State) : State := if s.boot.vaux then { s with boot := { s.boot with pwrGood := true } } else s

def execPwrGoodRise (s : State) : Result := run .pwrGoodRise s (pwrGoodRise s)

/-- Every die loses its supply, a sample that runs is cut short, and the device is in device reset. -/
def allDiesOff (s : State) : State := deviceReset false (cutSample (s.forAll dies dieOff))

/-- PWR_GOOD_FALL. -/
def pwrGoodFall (s : State) : State :=
  if !s.boot.pwrGood then s
  else
    let s := allDiesOff (linksDown (List.range 16) 3 s)
    let s := s.setFld F.PW_CAP_THERM_TRIPPED 0
    { s with boot := { s.boot with pwrGood := false } }

def execPwrGoodFall (s : State) : Result := run .pwrGoodFall s (pwrGoodFall s)

/-- THERMAL_TRIP: a sensor of a powered die reaches 105 °C. -/
def thermalTrip (d : Nat) (s : State) : State :=
  if s.fld F.SM_DIE_STATE_POWERED [d] = 0 then s
  else allDiesOff ((s.log 0x0A 0x03 d (powerDetail s d 0)).setFld F.PW_CAP_THERM_TRIPPED 1)

def execThermalTrip (d : Nat) (s : State) : Result := run (.thermalTrip d) s (thermalTrip d s)

/-- A request on a die that has lost its supply ends: a power-down is complete, a reset or power-up fails. -/
def endDieRequest (d : Nat) (s : State) : State :=
  match s.safe.request with
  | some r => if r.target = d ∧ r.kind = 4 then endRequest 1 s else if r.target = d ∧ (r.kind = 2 ∨ r.kind = 5) then endRequest 5 s else s
  | none => s

/-- The registers kept of a die that trips: those a request on it has copied, or as they stand. -/
def tripRegs (s : State) (d : Nat) : Tab Nat :=
  match s.safe.request with
  | some r => if r.target = d ∧ r.kind ≠ 1 ∧ r.kind ≠ 3 then r.regs else dieRegs s d
  | none => dieRegs s d

/-- OVERCURRENT_TRIP: a die power-down without drain, DOWN units or sample; the die's part of a sample that runs is missing. -/
def overcurrentTrip (d : Nat) (s : State) : State :=
  if s.fld F.SM_DIE_STATE_POWERED [d] = 0 then s
  else
    let s := (s.log 0x0A 0x04 d (powerDetail s d 0)).setBit F.PW_CAP_OC_TRIPPED d true
    let s := s.forAll (slotsOnDie s d) (fun n s => fenceField n false s)
    let s := cancelFallow d (cancelSnaps (some d) s)
    let s := closeGate (.die d) (endDieRequest d (dieOff d (resetDieUnits d (keepDie d (tripRegs s d) s))))
    { s with recorder := { s.recorder with sample := s.recorder.sample.map (fun x => if x.mask.testBit d then { x with missing := x.missing ||| 2 ^ d } else x) } }

def execOvercurrentTrip (d : Nat) (s : State) : Result := run (.overcurrentTrip d) s (overcurrentTrip d s)

end Sys2Proof.Machine
end

