-- ==== Sys2Proof/Machine/Image.lean ====
section
/-! DEFINITION. The Seed Image (R342 to R344, R374 to R378, R443): its header, its signature block, its records, and their
application. -/

namespace Sys2Proof.Machine

/-- Bytes of a signature block. -/
abbrev seedBlock : Nat := 5518

/-! ## Header and signature block (R342, R374) -/

def imageLen (hdr : List Byte) : Nat := byteNat hdr 4 4

/-- The header keeps to *Image header*. -/
def headerOk (hdr : List Byte) : Bool :=
  let n := byteNat hdr 3 1
  hdr.length = 64 && hdr.take 3 = [0x59, 0x49, 1] && decide (1 ≤ n ∧ n ≤ 4) && imageLen hdr % 8 = 0 && decide (64 ≤ imageLen hdr) && allZero (hdr.drop 14)

/-- The block keeps to *Seed signature block*. -/
def blockOk (sig : List Byte) : Bool :=
  sig.length = seedBlock && sig.take 4 = [0x59, 0x53, 1, 0] && decide (byteNat sig 4 4 ≤ 536870912 - seedBlock) && decide (byteNat sig 56 1 ≤ 128) && allZero ((sig.drop 57).take 7)

def blockSigner (sig : List Byte) : List Byte := (sig.drop 64).take 2049

/-- The hash of a Season that its six words spell. -/
def seasonHash (s : State) (f : Fld) (n : Nat) : List Byte := (List.range 6).flatMap (fun w => beBytes 8 (s.fld f [n, w]))

/-- What is checked before the image is staged: a code of *Boot results*, or 0. -/
def blockBar (s : State) (hdr sig : List Byte) : Nat :=
  let owner := s.fld F.FS_SEASONS_OWNER
  if !headerOk hdr ∨ imageLen hdr ≠ byteNat sig 4 4 then 0x03
  else if !blockOk sig ∨ s.fld F.TC_STATUS_STATE ≠ 1 ∨ !sigOk (blockSigner sig) "YFK SEED IMAGE" (sig.take 64) (sig.drop 2113) then 0x04
  else if owner ≠ 7 ∧ hashOf (blockSigner sig) ≠ seasonHash s F.FS_OWNER_HASH_HASH owner then 0x05
  else if byteNat sig 56 1 < s.fld F.FS_SEASONS_ROLLBACK then 0x06
  else 0

/-! ## Records (R375, R376) -/

/-- A record of an image. -/
structure ImgRec where
  typ : Nat
  mask : Nat
  body : List Byte

def ImgRec.names (r : ImgRec) (pos : Nat) : Bool := r.mask.testBit pos

/-- The records from byte 64 to the image's end; nothing where their framing breaks R375. -/
def parseRecs : Nat → List Byte → Option (List ImgRec)
  | 0, l => if l = [] then some [] else none
  | n + 1, l =>
    if l = [] then some []
    else
      let len := byteNat l 4 4
      let room := (len + 7) / 8 * 8
      let body := l.drop 16
      if l.length < 16 + room ∨ byteNat l 2 1 ≥ 16 ∨ byteNat l 3 1 ≠ 0 ∨ !allZero ((l.drop 8).take 8) ∨ !allZero ((body.take room).drop len) then none
      else (parseRecs n (body.drop room)).map (fun t => ⟨byteNat l 0 2, byteNat l 2 1, body.take len⟩ :: t)

/-- *Record types*: TYPE, the least and the largest count for a position, and whether a record names every position. -/
def recTypes : List (Nat × Nat × Nat × Bool) :=
  [(1, 1, 1, false), (2, 1, 1, false), (3, 0, 2 ^ 32, false), (4, 0, 2 ^ 32, false), (5, 0, 1, false), (6, 0, 1, false), (7, 0, 16, false),
   (0x10, 1, 1, true), (0x11, 0, 8, true), (0x12, 1, 4, true), (0x13, 0, 1, true), (0x14, 0, 1, true), (0x15, 1, 4, true), (0x16, 1, 1, false),
   (0x17, 1, 1, true), (0xFF, 1, 1, true)]

/-- Every group of `n` bytes of a body meets `p`. -/
def everyChunk (n : Nat) (p : List Byte → Bool) (l : List Byte) : Bool :=
  l.length % n = 0 && (List.range (l.length / n)).all (fun i => p ((l.drop (n * i)).take n))

/-- The body keeps to its TYPE's layout. -/
def bodyOk (r : ImgRec) : Bool :=
  let l := r.body
  match r.typ with
  | 1 => l.length = 8 && allZero (l.drop 2)
  | 2 => l.length = 64
  | 3 => everyChunk 16 (fun e => allZero (e.take 3)) l
  | 4 => decide (4 ≤ l.length) && allZero ((l.drop 1).take 3) && (l.length - 4) % 4 = 0
  | 6 => decide (34 ≤ l.length) && l.length = 34 + 8 * byteNat l 32 2 && everyChunk 8 (fun e => decide (byteNat e 0 2 < 4096 ∧ byteNat e 2 2 < 4096)) (l.drop 34)
  | 7 => l.length = 48 && decide (byteNat l 0 1 < 16 ∧ byteNat l 1 1 < 2 ∧ byteNat l 2 2 < 4096)
  | 0x10 | 0x11 | 0x12 => l.length = 2049
  | 0x13 => l.length % 16 = 0 && decide (l.length ≤ 16 * 1024)
  | 0x14 => l.length = 64
  | 0x15 => l.length = 11036
  | 0x16 => l.length = 2
  | 0x17 => decide (64 + 5518 + 3405 ≤ l.length)
  | 0xFF => l = []
  | _ => true

/-- R375 and R376 on the records of an image, at a device whose position is `pos`: a record that does not name it is counted and hashed,
and otherwise skipped. -/
def recsOk (pos : Nat) (hdr : List Byte) (l : List ImgRec) : Bool :=
  let board := List.range (byteNat hdr 3 1)
  let own := l.filter (fun r => r.names pos)
  pos ∈ board && l.length = byteNat hdr 8 4 && (l.getLast?.map (·.typ)) = some 0xFF && own.all (fun r => bodyOk r && recTypes.any (fun t => t.1 = r.typ))
    && recTypes.all (fun t =>
      let mine := own.filter (fun r => r.typ = t.1)
      (!t.2.2.2 || mine.all (fun r => board.all r.names)) && decide (t.2.1 ≤ mine.length ∧ mine.length ≤ t.2.2.1))

/-! ## Trust records (R341, R343, R344) -/

/-- The default Hedge plan. -/
def defaultPlan : List Byte := padTo 64 [1, 0, 0, 0x10, 0]

/-- The plan in force with an image that carries `carried`, or nothing where the image is refused. -/
def planFor (s : State) (carried : Option (List Byte)) : Option (List Byte) :=
  let n := s.fld F.FS_SEASONS_HEDGE
  if n = 7 then (if carried.getD defaultPlan = defaultPlan then some defaultPlan else none)
  else carried.bind (fun p => if hashOf p = seasonHash s F.FS_HEDGE_HASH_HASH n then some p else none)

/-- The bodies of the records of a TYPE. -/
def bodiesOf (t : Nat) (l : List ImgRec) : List (List Byte) := (l.filter (fun r => r.typ = t)).map (·.body)

/-- The VLANs of an ETH_BRIDGE body. -/
def vlansOf (l : List Byte) : List VlanRec :=
  (List.range (byteNat l 32 2)).map (fun i => ⟨byteNat l (34 + 8 * i) 2, byteNat l (36 + 8 * i) 2, byteNat l (38 + 8 * i) 2, byteNat l (40 + 8 * i) 2⟩)

/-- The trust records of this device's position; 0x0A where they are refused. -/
def applyTrust (sig : List Byte) (l : List ImgRec) (s : State) : Except Nat State :=
  let root := (bodiesOf 0x10 l).headD []
  match planFor s (bodiesOf 0x14 l).head? with
  | none => .error 0x0A
  | some plan =>
    let binds := (bodiesOf 6 l).any (fun b => (vlansOf b).any (fun v => v.field ≠ 0))
    if hashOf root ≠ Config.vendorHash ∨ (binds ∧ plan.getD 2 0 ≠ 1) then .error 0x0A
    else
      let pair := (bodiesOf 0x15 l).find? (fun b => keyId (certKey (b.take 5518)) = ownId)
      let serials := (bodiesOf 0x13 l).headD []
      let img : ImageTrust := { hash := (sig.drop 8).take 48, signer := blockSigner sig, rollback := byteNat sig 56 1, vendorRoot := root,
                                partnerRoots := bodiesOf 0x11 l, mgrKeys := bodiesOf 0x12 l,
                                deny := (List.range (serials.length / 16)).map (fun i => (serials.drop (16 * i)).take 16), plan := plan,
                                certs := pair.map (fun b => (b.take 5518, b.drop 5518)) }
      let t : State := { s with trust := { s.trust with image := img } }
      .ok (t.setFld F.TC_PORT_CLASS_ENDPOINT (beNat ((bodiesOf 0x16 l).headD [])))

/-- The Almanac stores of a die's Stewards, of 32 KiB each, are loaded from the verified device copy (R228, R414). -/
def loadAlmanac (s : State) (d : Nat) : State :=
  { s with tiles := { s.tiles with almanac := tabSet [] s.tiles.almanac [d] (s.trust.image.code.take 32768) } }

/-- The Almanac record: header, signer certificate, signature and code; 0x0B where it is refused. -/
def applyAlmanac (l : List ImgRec) (s : State) : Except Nat State :=
  let b := (bodiesOf 0x17 l).headD []
  let hdr := b.take 64
  let cert := (b.drop 64).take 5518
  let sig := (b.drop 5582).take 3405
  let code := b.drop 8987
  let step := s.fld F.DV_PART_STEPPING
  let version := byteNat hdr 4 2
  if hdr.take 4 = [0x59, 0x4C, 1, 0] ∧ version < 4096 ∧ allZero (hdr.drop 62) ∧ (byteNat hdr 6 4).testBit step ∧ byteNat hdr 10 4 = code.length
      ∧ certForm cert ∧ certKind cert = 5 ∧ certSigned s.trust.image.vendorRoot cert ∧ sigOk (certKey cert) "YFK ALMANAC" hdr sig
      ∧ (hdr.drop 14).take 48 = hashOf code then
    let t : State := { s with trust := { s.trust with image := { s.trust.image with almanac := (hdr.drop 14).take 48, code := code } } }
    let t := dies.foldl loadAlmanac t
    .ok (((t.setFld F.DV_AIC_AIC (2 ^ 28 + step * 2 ^ 20 + version * 2 ^ 8 + 1)).setFld F.DV_AIC_VALID 1).setFld F.TC_STATUS_ALMANAC_OK 1)
  else .error 0x0B

/-! ## REGISTERS (R377, R443) -/

/-- The registers with a field whose Reset column reads "image". -/
def imageRegs : List Reg :=
  [.TK_SRC, .TK_PORT_CAL, .TK_CTRL, .TK_HOLD, .TK_PTP, .TK_PTP_ROLES, .TK_PPS_OUT, .TK_PPS_IN, .PH_PORT_CFG, .PH_RELINK, .LK_ETH_CFG, .NI_FIELD_MAP,
   .SG_MARK, .NI_AGE, .NI_E2E, .XM_SHARE, .GK_FMAP, .GK_OWNER, .GK_OUT_CFG, .TC_PORT_CLASS, .PW_CAP, .DV_MGR_PORTS, .LK_TUNNEL_0, .LK_TUNNEL_1,
   .LK_TUNNEL_2, .LK_TUNNEL_3, .LK_TUNNEL_4, .LK_TUNNEL_5, .LK_TUNNEL_6]

/-- Its Reset column reads "image", and an image may write it. -/
def imageFld (f : Fld) : Bool := f.reg ∈ imageRegs && (f.acc = .RS || f.acc = .RM) && !(f.reg = .TK_CTRL && f.lo = 0)

/-- The range rules of a register that an entry must meet by itself. -/
def entryOk (t : State) (r : Reg) (k : List Nat) (v : Nat) : Bool :=
  match r with
  | .NI_AGE => decide (1 ≤ F.NI_AGE_NEXT_US.of v ∧ F.NI_AGE_NEXT_US.of v ≤ 1000)
  | .NI_E2E => decide (F.NI_E2E_TIMEOUT_US.of v ≤ 10000 ∧ 1 ≤ F.NI_E2E_BUSY_BACKOFF_US.of v)
  | .GK_OWNER => true
  | _ => valueOk t r k v

/-- One entry: the register at address `a` takes `v`. -/
def applyEntry (a v : Nat) (s : State) : Except Nat State :=
  match s.place a with
  | .reg x k =>
    let fs := x.fields.filter imageFld
    if fs = [] ∨ (x.fields.map (fun f => f.of v * 2 ^ f.lo)).sum ≠ v ∨ x.fields.any (fun f => !imageFld f && f.of v ≠ s.view f k)
        ∨ writeBar s x.reg k v ≠ stOk then .error 0x09
    else
      let t := s.forAll fs (fun f t => t.setFld f (f.of v) k)
      if entryOk t x.reg k v then .ok (afterWrite s x.reg k v t) else .error 0x09
  | _ => .error 0x09

/-- The entries of a body, as (address, value). -/
def entriesOf (l : List Byte) : List (Nat × Nat) := (List.range (l.length / 16)).map (fun i => (byteNat l (16 * i) 8, byteNat l (16 * i + 8) 8))

/-- Apply a list of updates, each of which may refuse the image. -/
def applyAll {α : Type} (f : α → State → Except Nat State) : List α → State → Except Nat State
  | [], s => .ok s
  | x :: l, s => match f x s with
    | .ok t => applyAll f l t
    | .error e => .error e

/-! ## The other records -/

/-- DEVICE, and PORT_CFG: a reserved bit that is 1 refuses the image. -/
def applyPorts (l : List ImgRec) (s : State) : Except Nat State :=
  let s := s.setFld F.DV_ID_DEVICE (byteNat ((bodiesOf 1 l).headD []) 0 2)
  let b := (bodiesOf 2 l).headD []
  if dies.any (fun d => decide (128 ≤ byteNat b (8 * d) 8)) then .error 0x09
  else
    let fs := [F.PH_PORT_CFG_ENABLE, F.PH_PORT_CFG_SPLIT, F.PH_PORT_CFG_MODE, F.PH_PORT_CFG_CIRCUIT0, F.PH_PORT_CFG_CIRCUIT1, F.PH_PORT_CFG_ETH_FORM0, F.PH_PORT_CFG_ETH_FORM1]
    .ok (s.forAll dies (fun d s => s.forAll fs (fun f s => s.setFld f (f.of (byteNat b (8 * d) 8)) [d])))

/-- SIGNPOST: entries of version A on the dies named. -/
def applyPosts (b : List Byte) (s : State) : State :=
  let n := (b.length - 4) / 4
  s.forAll (dies.filter (fun d => (byteNat b 0 1).testBit d)) (fun d s => s.forAll (List.range n) (fun i s =>
    { s with ni := { s.ni with posts := tabSet 0 s.ni.posts [0, d, byteNat b (4 + 4 * i) 2] (byteNat b (6 + 4 * i) 2) } }))

/-- ETH_BRIDGE. -/
def applyBridge (b : List Byte) (s : State) : State :=
  let pvid := (List.range 16).foldl (fun t h => tabSet 0 t [h] (byteNat b (2 * h) 2)) []
  { s with bridge := { body := b, pvid := pvid, vlans := vlansOf b } }

/-- The n-th TUNNEL record is tunnel n. -/
def applyTunnel (n : Nat) (b : List Byte) (s : State) : State :=
  let s := ((s.setFld F.LK_TUNNEL_0_HALF_PORT (byteNat b 0 1) [n]).setFld F.LK_TUNNEL_0_VALID 1 [n]).setFld F.LK_TUNNEL_0_TAGGED (byteNat b 1 1) [n]
  let s := ((s.setFld F.LK_TUNNEL_0_VLAN (byteNat b 2 2) [n]).setFld F.LK_TUNNEL_1_LOCAL_MAC (byteNat b 4 6) [n]).setFld F.LK_TUNNEL_2_PEER_MAC (byteNat b 10 6) [n]
  let s := (s.setFld F.LK_TUNNEL_3_LOCAL_IP_HI (byteNat b 16 8) [n]).setFld F.LK_TUNNEL_4_LOCAL_IP_LO (byteNat b 24 8) [n]
  (s.setFld F.LK_TUNNEL_5_PEER_IP_HI (byteNat b 32 8) [n]).setFld F.LK_TUNNEL_6_PEER_IP_LO (byteNat b 40 8) [n]

/-- ROAD_BOOK: loaded into bank A and sealed (R184). -/
def applyRoad (b : List Byte) (s : State) : Except Nat State :=
  let t := sealDone 0 ((bankLoad 0 b s).setBankState 0 2)
  if t.bankState 0 = 3 then .ok t else .error 0x09

/-- The conditions that join several registers, on the values in force at the end (R74, R134, R160, R164, R377). -/
def jointOk (s : State) : Bool :=
  decide (s.fld F.NI_AGE_LIMIT_US + 10 ≤ s.fld F.NI_E2E_TIMEOUT_US)
    && dies.all (fun d => budgetOk s d && !(s.fld F.PH_PORT_CFG_MODE [d] = 1 && s.fld F.PH_PORT_CFG_SPLIT [d] = 0)
      && (List.range 256).all (fun o => tallyAgeOk s d o (s.fld F.GK_OWNER_TALLY_AGE_US [d, o])))

/-- Every Time Keeper field that an image sets takes its default (R443). -/
def timeDefaults (s : State) : State :=
  let keys := (regTable.filter (fun x => x.reg ∈ [Reg.TK_SRC, .TK_PORT_CAL, .TK_CTRL, .TK_HOLD, .TK_PTP, .TK_PTP_ROLES, .TK_PPS_OUT, .TK_PPS_IN])).flatMap
    (fun x => (x.fields.filter imageFld).map (fun f => (x.reg.ctorIdx, f.lo)))
  { s with flds := s.flds.filter (fun e => (e.1.headD 0, e.1.getD 1 0) ∉ keys) }

/-- The age limit takes NEXT_US at once; an unwritten TIMEOUT_US follows it (R130, R443). -/
def applyAge (entries : List (Nat × Nat)) (s : State) : State :=
  let us := s.fld F.NI_AGE_NEXT_US
  let s := s.setFld F.NI_AGE_LIMIT_US us
  let s : State := { s with ni := { s.ni with ageHist := s.ni.ageHist ++ [(s.now, us)] } }
  let written := entries.any (fun e => match s.place e.1 with
    | .reg x _ => x.reg = .NI_E2E
    | _ => false)
  if written then s else s.setFld F.NI_E2E_TIMEOUT_US (us + 10)

/-- The records of position `pos`, in the order of R378: the state with the image applied, or the code of its refusal. -/
def applyRecs (sig : List Byte) (l : List ImgRec) (s : State) : Except Nat State :=
  let entries := (bodiesOf 3 l).flatMap entriesOf
  match applyTrust sig l s with
  | .error e => .error e
  | .ok s => match applyPorts l (timeDefaults s) with
    | .error e => .error e
    | .ok s => match applyAll (fun e => applyEntry e.1 e.2) entries s with
      | .error e => .error e
      | .ok s =>
        let s := applyAge entries s
        if !jointOk s then .error 0x09
        else
          let s := s.forAll (bodiesOf 4 l) applyPosts
          let s := ((s.setVerState 0 3).setVerState 1 0).setFld F.SG_CTRL_CURRENT 0
          let s := s.forAll (bodiesOf 6 l) applyBridge
          let tunnels := bodiesOf 7 l
          let s := s.forAll (List.range tunnels.length) (fun n s => applyTunnel n (tunnels.getD n []) s)
          match applyAlmanac l s with
          | .error e => .error e
          | .ok s => applyAll applyRoad (bodiesOf 5 l) s

/-- A staged image: its hash, its records, and their application; the state, or a code of *Boot results*. -/
def applyImage (img sig : List Byte) (s : State) : Except Nat State :=
  if hashOf img ≠ (sig.drop 8).take 48 then .error 0x07
  else match parseRecs (img.length / 16 + 1) (img.drop 64) with
    | none => .error 0x08
    | some l =>
      if !recsOk (s.fld F.SL_STATUS_POS) (img.take 64) l then .error 0x08
      else match applyRecs sig (l.filter (fun r => r.names (s.fld F.SL_STATUS_POS))) s with
        | .error e => .error e
        | .ok t =>
          let t := (t.setFld F.SL_STATUS_IMAGE_ID (byteNat img 12 2)).setFld F.TC_STATUS_IMAGE_OK 1
          .ok (t.setFld F.DV_ALERT_MASK 0)

end Sys2Proof.Machine
end

