-- ==== Sys2Proof/Machine/Boot.lean ====
section
/-! DEFINITION. Start-up (R369 to R373, R379 to R385): straps, the self-tests, sources, the board chain, staging rows; and the end of a
row's zeroisation (R358). -/

namespace Sys2Proof.Machine

/-! ## Results (R379, R380) -/

/-- Milliseconds since boot began. -/
def bootMs (s : State) : Nat := sat 16 ((s.now - s.boot.bootAt) / 16000000)

/-- A BOOT event: the code is the result; DETAIL is SL_STATUS. -/
def bootEvent (code : Nat) (s : State) : State := s.log 0x0F code 8 (beBytes 8 (s.rawWord .SL_STATUS))

/-- The result of a source, 0 primary or 1 secondary: the first of each is kept; each is logged. -/
def sourceResult (src code : Nat) (s : State) : State :=
  let f := if src = 0 then F.SL_STATUS_RESULT_PRI else F.SL_STATUS_RESULT_SEC
  bootEvent code (if s.fld f = 0 then s.setFld f code else s)

/-- The device becomes unseeded. -/
def unseed (s : State) : State := s.setFld F.SL_STATUS_STATE 5

/-! ## BOOT_START (R369, R370) -/

/-- Straps are sampled, unless the reset was asked for by message: then they keep. -/
def sampleStraps (head : Bool) (pos : Nat) (s : State) : State :=
  if s.boot.byMessage then s else (s.setFld F.SL_STATUS_ROLE (b2n head)).setFld F.SL_STATUS_POS pos

/-- The straps contradict each other. -/
def badStraps (s : State) : Bool :=
  if s.fld F.SL_STATUS_ROLE = 1 then s.fld F.SL_STATUS_POS ≠ 0 else s.fld F.SL_STATUS_POS = 0

/-- Steps 1 and 2: the regulators ramp and the Fuse Store is checked. -/
def bootBegin (head : Bool) (pos : Nat) (fuseOk : Bool) (s : State) : State :=
  let s := sampleStraps head pos s
  let s : State := { s with boot := { s.boot with resetN := true, byMessage := false, bootAt := s.now } }
  let s := (s.forAll dies rampDie).setFld F.SL_STATUS_STATE 1
  let s := if fuseOk then s else s.setFld F.FS_SEASONS_FUSE_FAULT 1
  if badStraps s then unseed (sourceResult 0 0x0E s)
  else if fuseOk then s else unseed (sourceResult 0 0x0F s)

/-- BOOT_START: RESET_N has risen, or PWR_GOOD while it is high, or a reset by message has taken effect. A sample cut short by the
rise is marked incomplete (R368). -/
def bootStart (head : Bool) (pos : Nat) (fuseOk : Bool) (s : State) : State :=
  if !s.boot.vaux || !s.boot.pwrGood || s.fld F.PW_CAP_THERM_TRIPPED = 1 then s
  else match s.recorder.sample with
    | some x => if x.cause = 1 then bootBegin head pos fuseOk (deviceReset false (cutSample s)) else s
    | none => if s.inReset then bootBegin head pos fuseOk s else s

def execBootStart (head : Bool) (pos : Nat) (fuseOk : Bool) (s : State) : Result :=
  run (.bootStart head pos fuseOk) s (bootStart head pos fuseOk s)

/-! ## The self-tests (R334, R371) -/

/-- Every word of a die's tile memory and Steward memory is zero. -/
def zeroDie (d : Nat) (s : State) : State :=
  let keep (base : Nat → Nat → Nat) (c : Host.Cell) : Bool := !decide (base d 0 ≤ c.1 ∧ c.1 < base (d + 1) 0)
  { s with mem := s.mem.filter (keep tileBase), tiles := { s.tiles with steward := s.tiles.steward.filter (keep stewardBase) } }

/-- The self-test of a die's 34 physical rows: every word ends at zero; a row that passes takes a clean mark. -/
def testRows (failed : List Nat) (d : Nat) (s : State) : State :=
  let bad := (List.range 34).filter (fun p => 34 * d + p ∈ failed)
  let s := zeroDie d s
  let rows := (List.range s.rowsPerDie).filter (fun r => s.physRow d r ∉ bad)
  let good := (rows.map (2 ^ ·)).sum
  let s := (s.setFld F.SL_BIST_FAILED (bad.map (2 ^ ·)).sum [d]).setFld F.SM_ROWS_CLEAN good [d]
  let s := s.setFld F.SM_ROWS_SUSPECT (s.fld F.SM_ROWS_SUSPECT [d] &&& (2 ^ 32 - 1 - good)) [d]
  let s := (s.setFld F.SM_FALLOW_USABLE0 (b2n (s.fld F.SM_FALLOW_PHYS0 [d] ∉ bad)) [d]).setFld F.SM_FALLOW_USABLE1 (b2n (s.fld F.SM_FALLOW_PHYS1 [d] ∉ bad)) [d]
  s.forAll bad (fun p s =>
    let r := ((List.range s.rowsPerDie).find? (fun r => s.physRow d r = p)).getD 0xFF
    s.log 0x0D 0x01 d (beBytes 1 d ++ beBytes 1 p ++ beBytes 1 r))

/-- The Trust Core's self-test, and its identity: a Key ID that does not match is result 0x10, and boot continues. -/
def trustTest (ok : Bool) (s : State) : State :=
  if !ok then s.setFld F.TC_STATUS_STATE 2
  else if !Config.idCheck ownId then bootEvent 0x10 (s.setFld F.TC_STATUS_STATE 1)
  else
    let id (w : Nat) : Nat := byteNat ownId (8 * w) 8
    (((s.setFld F.TC_STATUS_STATE 1).setFld F.TC_STATUS_IDENTITY_OK 1).setFld F.TC_IDENTITY_KEY_ID (id 0) [0]).setFld F.TC_IDENTITY_KEY_ID (id 1) [1]

/-- Steps 3 and 4 of boot have ended. -/
def bootTested (failed : List Nat) (trustOk : Bool) (s : State) : State :=
  if s.fld F.SL_STATUS_STATE ≠ 1 then s
  else
    let s := trustTest trustOk (s.forAll dies (testRows failed))
    issueChallenge ((s.setFld F.SL_TIMES_TESTED_MS (bootMs s)).setFld F.SL_STATUS_STATE 2)

/-- Steps 5 to 7 of *Die reset*: the recovery ends, registers are reloaded, the Almanac stores are checked, and the port trains. -/
def dieTested (d : Nat) (failed : List Nat) (codeOk : Bool) (s : State) : State :=
  match s.safe.request with
  | some r =>
    if r.begun ∧ r.target = d ∧ (r.kind = 2 ∨ r.kind = 5) then
      let s := testRows failed d s
      let s := ((s.setFld F.SM_DIE_STATE_FENCED 0 [d]).setFld F.SM_DIE_STATE_CAUSE 0 [d]).setFld F.SM_DIE_STATE_FIRST_SEQ 0 [d]
      let s := endRecovery [2, 2 * d + 1] (endRecovery [2, 2 * d] (endRecovery [1, d] (s.setBit F.SM_STATUS_DIES_FENCED d false)))
      let s := syncMaps d (reloadFlds r.regs s)
      let s := if codeOk then loadAlmanac s d
        else s.report { row := 12, consequential := false, unit := [30], die := d, die2 := d, field := 0xFFFF, lrow := none, stall := false, cls := 0, code := 0, poisoned := false, detail := [] }
      reopenDies (endRequest 1 s)
    else s
  | none => s

/-- MEMORY_SELF_TEST_DONE, of boot or of one die. -/
def selfTestDone (die : Option Nat) (failed : List Nat) (trustOk codeOk : Bool) (s : State) : State :=
  match die with
  | none => bootTested failed trustOk s
  | some d => dieTested d failed codeOk s

def execMemorySelfTestDone (die : Option Nat) (failed : List Nat) (trustOk codeOk : Bool) (s : State) : Result :=
  run (.memorySelfTestDone die failed trustOk codeOk) s (selfTestDone die failed trustOk codeOk s)

/-! ## Staging rows (R370, R378) -/

/-- The rows that the image of `len` bytes was staged in. -/
def stagingRows (s : State) (len : Nat) : List (Nat × Nat) :=
  dies.flatMap (fun d => ((List.range s.rowsPerDie).filter (fun r => Config.stagingRow len (32 * d + r) && !s.fbit F.SL_BIST_FAILED (s.physRow d r) [d])).map (fun r => (d, r)))

/-- Boot's last step: SEEDED, once no staging row is left. -/
def seedIfClean (s : State) : State :=
  if s.fld F.SL_STATUS_STATE = 3 ∧ s.trust.zeroing = [] then (s.setFld F.SL_STATUS_STATE 4).setFld F.SL_TIMES_SEEDED_MS (bootMs s) else s

/-- The image is in force: its staging rows are zeroised. -/
def seedWith (len source via : Nat) (s : State) : State :=
  let rows := stagingRows s len
  let s := ((s.setFld F.SL_STATUS_STATE 3).setFld F.SL_STATUS_SOURCE source).setFld F.SL_STATUS_SOURCE_VIA via
  let s := s.forAll rows (fun x s => s.setBit F.SM_ROWS_CLEAN x.2 false [x.1])
  seedIfClean (addZeroing rows { s with boot := { s.boot with applied := true } })

/-- A row's memories read zero. -/
def zeroRow (d r : Nat) (s : State) : State :=
  s.forAll (rowTiles (d, r)) (fun x s =>
    let s := zeroTile x.1 x.2 s
    let lo := stewardBase x.1 x.2
    { s with tiles := { s.tiles with steward := s.tiles.steward.filter (fun c => !decide (lo ≤ c.1 ∧ c.1 < lo + 65536)) } })

/-- The slot that a row is being zeroised for. -/
def zeroSlot (s : State) (d r : Nat) : Option Nat :=
  match s.rowOwner1 d r with
  | some n => some n
  | none => (List.range 16).find? (fun n => (d, r) ∈ s.grantRows n)

/-- The zeroisation of a row has begun: an eviction's waits for its drain (R357). -/
def zeroBegun (s : State) (d r : Nat) : Bool :=
  match zeroSlot s d r with
  | some n => s.fld F.DV_FIELD_SLOT_STATE [n] ≠ 4 || .field n ∈ s.ni.drained
  | none => true

/-- What waits for a row: the end of boot, or of a Field reset. -/
def afterZero (slot : Option Nat) (s : State) : State :=
  let s := seedIfClean s
  match slot with
  | some n => if resetting s n ∧ (s.safe.request.map (·.begun)) = some true ∧ (s.slotRows n).all (fun x => x ∉ s.trust.zeroing) then fieldResetEnd n s else s
  | none => s

/-- ROW_ZEROISE_DONE: a clean mark, or a Hedge fault of the row, which stays suspect until a die reset (R358, R402). -/
def rowZeroiseDone (d r : Nat) (ok : Bool) (s : State) : State :=
  let slot := zeroSlot s d r
  let held := s.fld F.SL_STATUS_STATE ≠ 3 && !(slot.any (resetting s))
  if (d, r) ∉ s.trust.zeroing ∨ s.fbit F.SM_ROWS_SUSPECT r [d] ∨ !zeroBegun s d r then s
  else
    let drop (s : State) : State := { s with trust := { s.trust with zeroing := s.trust.zeroing.erase (d, r) } }
    if ok then afterZero slot ((drop (zeroRow d r s)).setBit F.SM_ROWS_CLEAN r true [d])
    else
      let f := (slot.map s.slotField).getD 0xFFFF
      let s := copyFault d 0x06 f (r * 64) (some r) (markSuspect d r s)
      if held then s else afterZero slot (drop s)

def execRowZeroiseDone (d r : Nat) (ok : Bool) (s : State) : Result := run (.rowZeroiseDone d r ok) s (rowZeroiseDone d r ok s)

/-! ## Chain frames (R382, R383) -/

/-- What the CRC of a chain frame covers. -/
def chainCovered (typ seq len : Nat) (payload : List Byte) : List Byte := beBytes 1 typ ++ beBytes 4 seq ++ beBytes 2 len ++ payload

/-- A chain frame that this device sends. -/
def chainFrame (typ seq : Nat) (payload : List Byte) : ChainFrame :=
  { typ := typ, seq := seq, len := payload.length, payload := payload, crc := crc32 (chainCovered typ seq payload.length payload) }

/-- A frame with neither kind of transport error. -/
def chainOk (f : ChainFrame) : Bool := f.len = f.payload.length && decide (f.len ≤ 4096) && f.crc = crc32 (chainCovered f.typ f.seq f.len f.payload)

/-- A stream: START, both SIG frames, DATA in ascending order, END. -/
def chainStream (source attempt : Nat) (img sig : List Byte) : List ChainFrame :=
  [chainFrame 1 0 (beBytes 1 source ++ beBytes 1 attempt ++ img.take 64), chainFrame 2 0 (sig.take 4096), chainFrame 2 1 (sig.drop 4096)]
    ++ (List.range ((img.length + 4095) / 4096)).map (fun i => chainFrame 3 i ((img.drop (4096 * i)).take 4096))
    ++ [chainFrame 4 0 []]

def statusFrame (pos result attempt : Nat) : ChainFrame := chainFrame 5 0 (beBytes 1 pos ++ beBytes 1 result ++ beBytes 1 attempt)

/-! ## The head (R372, R379, R385) -/

/-- The head goes on to the next source; with none left and no image applied, it is unseeded. -/
def nextSource (s : State) : State :=
  let b := s.boot
  let t : State := { s with boot := { b with trying := b.trying + 1, tries := 0, statuses := [], endAt := none } }
  if 2 ≤ t.boot.trying ∧ !b.applied then unseed t else t

/-- The same source once more, where it has been tried once; else the next. -/
def repeatSource (s : State) : State :=
  if s.boot.tries < 2 then { s with boot := { s.boot with statuses := [], endAt := none } } else nextSource s

/-- Every follower has reported on the stream: repeat it, try the next source, or be done. -/
def statusesSettle (s : State) : State :=
  let l := (List.range s.boot.board).drop 1
  let got (p : Nat) : Nat := tabGet 0 s.boot.statuses [p]
  if s.boot.endAt.isNone ∨ l.any (fun p => got p = 0) then s
  else if l.any (fun p => got p = 0x0D) then repeatSource s
  else if l.any (fun p => got p ≠ 2) then nextSource s
  else { s with boot := { s.boot with trying := 2, statuses := [], endAt := none } }

/-- A follower's result, for the stream awaited. -/
def noteStatus (pos result : Nat) (s : State) : State :=
  statusesSettle { s with boot := { s.boot with statuses := tabSet 0 s.boot.statuses [pos] (result + 1) } }

/-- The head streams the image onto the chain where the board has followers. -/
def streamImage (src : Nat) (img sig : List Byte) (s : State) : State :=
  let board := byteNat img 3 1
  let s : State := { s with boot := { s.boot with board := board, tries := s.boot.tries + 1 } }
  let s := s.setFld F.SL_STATUS_ATTEMPTS (min 7 (s.fld F.SL_STATUS_ATTEMPTS + 1))
  if board ≤ 1 then s
  else
    let s := s.forAll (chainStream (src + 1) (s.fld F.SL_STATUS_ATTEMPTS) img sig) (fun f s => s.emit (.chain f))
    { s with boot := { s.boot with statuses := [], endAt := some s.now } }

/-- The head's own use of the image it has read, unless it has applied one. -/
def headApply (src : Nat) (img sig : List Byte) (s : State) : State :=
  if s.boot.applied then s
  else match applyImage img sig s with
    | .error 7 => nextSource (sourceResult src 7 s)
    | .error e => nextSource (sourceResult src e (s.setFld F.SL_TIMES_VERIFIED_MS (bootMs s)))
    | .ok t => seedWith img.length (src + 1) 0 (sourceResult src 1 (t.setFld F.SL_TIMES_VERIFIED_MS (bootMs s)))

/-- The mode the head chooses (R372, SL_NVM.MODE): 2 8D-8D-8D where it is declared, else 1 1S-4S-4S where that is, else 0. -/
def nvmMode (r : NvmRead) : Nat := if r.octal then 2 else if r.quad then 1 else 0

/-- IMAGE_STAGED at the head: discovery, the header and the block, the stream, and the image's own checks. -/
def headStaged (src : Nat) (r : NvmRead) (s : State) : State :=
  let st := s.fld F.SL_STATUS_STATE
  if src ≠ s.boot.trying ∨ s.boot.endAt.isSome ∨ !(st = 2 ∨ (s.boot.applied ∧ (st = 3 ∨ st = 4))) then s
  else
    let absent := !r.sfdpOk || nvmMode r = 0 || decide (2 ^ r.densityLog2 < 64 + seedBlock)
    let s := ((s.setFld F.SL_NVM_MODE (if absent then 0 else nvmMode r) [src]).setFld F.SL_NVM_DENSITY_LOG2 r.densityLog2 [src]).setFld F.SL_NVM_JEDEC_ID r.jedec [src]
    let hdr := bytesOfLen 64 r.bytes
    let n := imageLen hdr
    let sig := bytesOfLen seedBlock (r.bytes.drop n)
    let bar := if absent then 2 else if headerOk hdr ∧ 2 ^ r.densityLog2 < n + seedBlock then 3 else blockBar s hdr sig
    if bar ≠ 0 then nextSource (sourceResult src bar s)
    else
      let img := bytesOfLen n r.bytes
      let s := headApply src img sig (streamImage src img sig s)
      if s.boot.trying = src ∧ s.boot.endAt.isNone then { s with boot := { s.boot with trying := 2 } } else s

/-- A chain frame at the head: its own are discarded; STATUS frames of the stream awaited are noted; a transport error repeats the
stream. -/
def headFrame (f : ChainFrame) (s : State) : State :=
  if s.boot.endAt.isNone then s
  else if !chainOk f then repeatSource s
  else if f.typ = 5 ∧ f.payload.length = 3 ∧ byteNat f.payload 2 1 = s.fld F.SL_STATUS_ATTEMPTS then
    let pos := byteNat f.payload 0 1
    if 1 ≤ pos ∧ pos < s.boot.board then noteStatus pos (byteNat f.payload 1 1) s else s
  else s

/-! ## A follower (R383 to R385) -/

/-- The stream with one more frame. -/
def stageFrame (f : ChainFrame) (x : ChainStream) : ChainStream :=
  if !chainOk f then { x with bad := true }
  else match f.typ with
    | 2 => { x with sig := x.sig ++ f.payload, bad := x.bad || x.sig.length ≠ 4096 * f.seq }
    | 3 => { x with data := x.data ++ f.payload, bad := x.bad || x.data.length ≠ 4096 * f.seq }
    | 4 => { x with ended := true }
    | _ => x

/-- A chain frame at a follower: forwarded unchanged; staged while no image has been applied. One that has applied its image answers END
with its own result. -/
def followerFrame (f : ChainFrame) (s : State) : State :=
  let s := s.emit (.chain f)
  let start := f.typ = 1 ∧ chainOk f ∧ f.payload.length = 66
  let s := if start then s.setFld F.SL_STATUS_ATTEMPTS (min 7 (s.fld F.SL_STATUS_ATTEMPTS + 1)) else s
  if start then
    { s with boot := { s.boot with stream := some { source := byteNat f.payload 0 1, attempt := byteNat f.payload 1 1, header := f.payload.drop 2 } } }
  else match s.boot.stream with
    | none => s
    | some x =>
      let y := stageFrame f x
      let s : State := { s with boot := { s.boot with stream := some y } }
      if s.boot.applied ∧ y.ended then { s.emit (.chain (statusFrame (s.fld F.SL_STATUS_POS) 1 y.attempt)) with boot := { s.boot with stream := none } } else s

/-- CHAIN_FRAME_RECEIVE. -/
def chainFrameReceive (f : ChainFrame) (s : State) : State :=
  let st := s.fld F.SL_STATUS_STATE
  if st < 2 then s else if s.fld F.SL_STATUS_ROLE = 1 then headFrame f s else followerFrame f s

def execChainFrameReceive (f : ChainFrame) (s : State) : Result := run (.chainFrameReceive f) s (chainFrameReceive f s)

/-- A follower's result goes out on the chain. -/
def followerResult (x : ChainStream) (code : Nat) (s : State) : State :=
  let s := sourceResult (x.source - 1) code { s with boot := { s.boot with stream := none } }
  s.emit (.chain (statusFrame (s.fld F.SL_STATUS_POS) code x.attempt))

/-- IMAGE_STAGED at a follower: the whole stream has come. -/
def followerStaged (s : State) : State :=
  match s.boot.stream with
  | none => s
  | some x =>
    if !x.ended ∨ s.boot.applied ∨ s.fld F.SL_STATUS_STATE ≠ 2 then s
    else if x.bad then followerResult x 0x0C s
    else
      let bar := if x.data.take 64 ≠ x.header ∨ x.data.length ≠ imageLen x.header then 3 else blockBar s x.header x.sig
      if bar ≠ 0 then followerResult x bar s
      else match applyImage x.data x.sig s with
        | .error 7 => followerResult x 7 s
        | .error e => followerResult x e (s.setFld F.SL_TIMES_VERIFIED_MS (bootMs s))
        | .ok t => seedWith x.data.length 3 x.source (followerResult x 1 (t.setFld F.SL_TIMES_VERIFIED_MS (bootMs s)))

/-- IMAGE_STAGED: source 0 or 1 at the head, 2 for the chain. -/
def imageStaged (src : Nat) (r : NvmRead) (s : State) : State :=
  if s.fld F.SL_STATUS_ROLE = 1 then (if src = 2 then s else headStaged src r s) else if src = 2 then followerStaged s else s

def execImageStaged (src : Nat) (r : NvmRead) (s : State) : Result := run (.imageStaged src r) s (imageStaged src r s)

/-- CHAIN_STATUS_TIMEOUT: 100 ms after END, the head records 0x0C for a position. -/
def chainStatusTimeout (pos : Nat) (s : State) : State :=
  match s.boot.endAt with
  | some t =>
    if s.fld F.SL_STATUS_ROLE = 1 ∧ 1 ≤ pos ∧ pos < s.boot.board ∧ tabGet 0 s.boot.statuses [pos] = 0 ∧ t + usUnits 100000 ≤ s.now then noteStatus pos 0x0C s else s
  | none => s

def execChainStatusTimeout (pos : Nat) (s : State) : Result := run (.chainStatusTimeout pos) s (chainStatusTimeout pos s)

/-- FOLLOWER_TIMEOUT: no image 60 s after the RESET_N rise. -/
def followerTimeout (s : State) : State :=
  let st := s.fld F.SL_STATUS_STATE
  if s.fld F.SL_STATUS_ROLE = 0 ∧ !s.boot.applied ∧ (st = 1 ∨ st = 2) ∧ s.boot.bootAt + usUnits 60000000 ≤ s.now then unseed (sourceResult 0 0x0D s) else s

def execFollowerTimeout (s : State) : Result := run .followerTimeout s (followerTimeout s)

end Sys2Proof.Machine
end

