-- ==== Sys2Proof/Machine/Package.lean ====
section
/-! DEFINITION. The package's balls (R387, R388): which signal each of the 120 × 120 places carries. -/

namespace Sys2Proof.Machine

/-- What a place of the ball grid carries. A lane signal is of port p and lane n, transmit or receive, P or N. -/
inductive Ball where
  | depopulated
  | lane (p n : Nat) (tx pos : Bool)
  | signal (name : String)
  | vin
  | vaux
  | vio
  | gnd
  deriving DecidableEq, Repr

/-- The row and column of a lane signal: lower ports are reflected from the upper ones. -/
def laneBall (p n : Nat) (tx pos : Bool) : Nat × Nat :=
  let q := p % 4
  let r := 1 + 4 * (n / 8) + (if tx then 0 else 2)
  let c := 30 * q + 4 + 3 * (n % 8) + (if pos then 0 else 1)
  (if p < 4 then r else 121 - r, c)

/-- The low-speed signals in the order of *Signal groups*. DESIGN CHOICE (log 191): a signal indexed k or [m:0] takes NVM0's signals before
NVM1's, and the highest index of a bus first, as it is written. -/
def lowSpeedSignals : List String :=
  ["REFCLK_P", "REFCLK_N", "TIME_PPS_IN", "TIME_TOD_IN", "TIME_OSC_IN", "TIME_PPS_OUT"]
    ++ ["NVM0_", "NVM1_"].flatMap (fun p => ["CLK", "CS_N", "DQS", "DQ7", "DQ6", "DQ5", "DQ4", "DQ3", "DQ2", "DQ1", "DQ0", "RESET_N"].map (fun x => p ++ x))
    ++ ["CHAIN_TX_P", "CHAIN_TX_N", "CHAIN_RX_P", "CHAIN_RX_N", "CHAIN_ROLE", "BOARD_POS1", "BOARD_POS0", "SMB_SCL", "SMB_SDA", "SMB_ALERT_N",
        "TCK", "TMS", "TDI", "TDO", "TRST_N", "RESET_N", "PWR_GOOD", "FAULT_N", "THERM_TRIP_N"]
    ++ ["7", "6", "5", "4", "3", "2", "1", "0"].map (fun x => "DIE_FENCE_N" ++ x)

/-- The lane signal at a place, if one lies there. -/
def laneAt (r c : Nat) : Option Ball :=
  (List.range 8).findSome? (fun p => (List.range 16).findSome? (fun n => [(true, true), (true, false), (false, true), (false, false)].findSome? (fun x =>
    if laneBall p n x.1 x.2 = (r, c) then some (.lane p n x.1 x.2) else none)))

/-- What row r, column c carries, each from 1 to 120. -/
def ballAt (r c : Nat) : Ball :=
  if (r ≤ 3 ∨ 118 ≤ r) ∧ (c ≤ 3 ∨ 118 ≤ c) then .depopulated
  else match laneAt r c with
    | some b => b
    | none =>
      if 49 ≤ r ∧ r ≤ 72 ∧ c ≤ 4 then
        match lowSpeedSignals[4 * (r - 49) + (c - 1)]? with
        | some x => .signal x
        | none => .gnd
      else if 49 ≤ r ∧ r ≤ 60 ∧ 117 ≤ c then .vaux
      else if 61 ≤ r ∧ r ≤ 72 ∧ 117 ≤ c then .vio
      else if 20 ≤ r ∧ r ≤ 101 ∧ 20 ≤ c ∧ c ≤ 101 ∧ (r + c) % 2 = 0 then .vin
      else .gnd

end Sys2Proof.Machine
end

