-- ==== Sys2Proof/Machine/Dispatch.lean ====
section
/-! DEFINITION. One arm per command of spec/opcode_table.json, each a direct call of its meaning. -/

namespace Sys2Proof.Machine

def exec (i : Instr) (s : State) : Host.Outcome State Fault Refusal :=
  match i with
  | .gateRelease g => Sys2Proof.Machine.execGateRelease g s
  | .paceUpdate readings => Sys2Proof.Machine.execPaceUpdate readings s
  | .replicaCompare readings => Sys2Proof.Machine.execReplicaCompare readings s
  | .clockMonitorFire ppb => Sys2Proof.Machine.execClockMonitorFire ppb s
  | .syncSend h => Sys2Proof.Machine.execSyncSend h s
  | .syncReceive pid => Sys2Proof.Machine.execSyncReceive pid s
  | .replyReceive pid => Sys2Proof.Machine.execReplyReceive pid s
  | .sampleMissing src => Sys2Proof.Machine.execSampleMissing src s
  | .counterStep => Sys2Proof.Machine.execCounterStep s
  | .holdoverUpdate => Sys2Proof.Machine.execHoldoverUpdate s
  | .ptpSyncSend h => Sys2Proof.Machine.execPtpSyncSend h s
  | .announceSend h => Sys2Proof.Machine.execAnnounceSend h s
  | .ptpMessageReceive h m => Sys2Proof.Machine.execPtpMessageReceive h m s
  | .pdelayReqSend h => Sys2Proof.Machine.execPdelayReqSend h s
  | .ppsInEdge => Sys2Proof.Machine.execPpsInEdge s
  | .todMessage bytes => Sys2Proof.Machine.execTodMessage bytes s
  | .ppsOutRise => Sys2Proof.Machine.execPpsOutRise s
  | .ppsOutFall => Sys2Proof.Machine.execPpsOutFall s
  | .barrierArriveSend => Sys2Proof.Machine.execBarrierArriveSend s
  | .barrierArrive pid => Sys2Proof.Machine.execBarrierArrive pid s
  | .barrierRelease pid => Sys2Proof.Machine.execBarrierRelease pid s
  | .barrierFire => Sys2Proof.Machine.execBarrierFire s
  | .barrierTimeout => Sys2Proof.Machine.execBarrierTimeout s
  | .barrierAbort pid => Sys2Proof.Machine.execBarrierAbort pid s
  | .barrierLate pid => Sys2Proof.Machine.execBarrierLate pid s
  | .signalDetect h => Sys2Proof.Machine.execSignalDetect h s
  | .trainingFrame h lane f => Sys2Proof.Machine.execTrainingFrame h lane f s
  | .tapUpdate h lane => Sys2Proof.Machine.execTapUpdate h lane s
  | .alignUnit h r => Sys2Proof.Machine.execAlignUnit h r s
  | .phaseTimeout h => Sys2Proof.Machine.execPhaseTimeout h s
  | .trainRestart h => Sys2Proof.Machine.execTrainRestart h s
  | .retrain pid => Sys2Proof.Machine.execRetrain pid s
  | .blockReceive h lane b => Sys2Proof.Machine.execBlockReceive h lane b s
  | .linkLoss h lockLost => Sys2Proof.Machine.execLinkLoss h lockLost s
  | .downUnitReceive h reason => Sys2Proof.Machine.execDownUnitReceive h reason s
  | .sealUnit h tags => Sys2Proof.Machine.execSealUnit h tags s
  | .packetArrival h p => Sys2Proof.Machine.execPacketArrival h p s
  | .packetEligible pid tagOk => Sys2Proof.Machine.execPacketEligible pid tagOk s
  | .matcherFrame => Sys2Proof.Machine.execMatcherFrame s
  | .outputStart die out => Sys2Proof.Machine.execOutputStart die out s
  | .packetDeparted pid => Sys2Proof.Machine.execPacketDeparted pid s
  | .tileAllocTimeout id => Sys2Proof.Machine.execTileAllocTimeout id s
  | .tallyScan die errors => Sys2Proof.Machine.execTallyScan die errors s
  | .echoSend die unit field peer => Sys2Proof.Machine.execEchoSend die unit field peer s
  | .echoReceive pid => Sys2Proof.Machine.execEchoReceive pid s
  | .rateRecover die tile field peer => Sys2Proof.Machine.execRateRecover die tile field peer s
  | .rekeyStart half => Sys2Proof.Machine.execRekeyStart half s
  | .keyInstalled half => Sys2Proof.Machine.execKeyInstalled half s
  | .keyRetire half => Sys2Proof.Machine.execKeyRetire half s
  | .hello half msg => Sys2Proof.Machine.execHello half msg s
  | .kemct half msg => Sys2Proof.Machine.execKemct half msg s
  | .finish half msg => Sys2Proof.Machine.execFinish half msg s
  | .done half => Sys2Proof.Machine.execDone half s
  | .abort half reason => Sys2Proof.Machine.execAbort half reason s
  | .relinkSignal h found => Sys2Proof.Machine.execRelinkSignal h found s
  | .relinkTimeout h => Sys2Proof.Machine.execRelinkTimeout h s
  | .ethFrameReceive h bytes => Sys2Proof.Machine.execEthFrameReceive h bytes s
  | .macAgeExpire vlan mac => Sys2Proof.Machine.execMacAgeExpire vlan mac s
  | .tunnelDatagram h g => Sys2Proof.Machine.execTunnelDatagram h g s
  | .sgSwitchAt pid => Sys2Proof.Machine.execSgSwitchAt pid s
  | .signpostSwitch => Sys2Proof.Machine.execSignpostSwitch s
  | .heldVersionExpire => Sys2Proof.Machine.execHeldVersionExpire s
  | .niAgeAt pid => Sys2Proof.Machine.execNiAgeAt pid s
  | .ageLimitChange => Sys2Proof.Machine.execAgeLimitChange s
  | .hedgeCopyCompare => Sys2Proof.Machine.execHedgeCopyCompare s
  | .tileDelivery pid => Sys2Proof.Machine.execTileDelivery pid s
  | .responseReceive pid => Sys2Proof.Machine.execResponseReceive pid s
  | .nakReceive pid => Sys2Proof.Machine.execNakReceive pid s
  | .busyBackoffExpire die tile tag => Sys2Proof.Machine.execBusyBackoffExpire die tile tag s
  | .e2eTimeout die tile tag => Sys2Proof.Machine.execE2eTimeout die tile tag s
  | .tagQuarantineEnd die tile tag => Sys2Proof.Machine.execTagQuarantineEnd die tile tag s
  | .drainEnd x => Sys2Proof.Machine.execDrainEnd x s
  | .schedDeparture slot pos => Sys2Proof.Machine.execSchedDeparture slot pos s
  | .slotShortfallCheck slot => Sys2Proof.Machine.execSlotShortfallCheck slot s
  | .departureWindowEnd slot => Sys2Proof.Machine.execDepartureWindowEnd slot s
  | .bankSeal pid => Sys2Proof.Machine.execBankSeal pid s
  | .bankDiscard pid => Sys2Proof.Machine.execBankDiscard pid s
  | .bankSealDone bank => Sys2Proof.Machine.execBankSealDone bank s
  | .rbSwapAt pid => Sys2Proof.Machine.execRbSwapAt pid s
  | .bankSwap => Sys2Proof.Machine.execBankSwap s
  | .floorAlarm die leadUs => Sys2Proof.Machine.execFloorAlarm die leadUs s
  | .floorBreach die vcore tj => Sys2Proof.Machine.execFloorBreach die vcore tj s
  | .suspend die => Sys2Proof.Machine.execSuspend die s
  | .rbResumeAt pid => Sys2Proof.Machine.execRbResumeAt pid s
  | .resume => Sys2Proof.Machine.execResume s
  | .dispatch die tile => Sys2Proof.Machine.execDispatch die tile s
  | .waybillStart die tile unit => Sys2Proof.Machine.execWaybillStart die tile unit s
  | .instanceDone die tile unit => Sys2Proof.Machine.execInstanceDone die tile unit s
  | .waybillComplete die tile slot => Sys2Proof.Machine.execWaybillComplete die tile slot s
  | .join die tile => Sys2Proof.Machine.execJoin die tile s
  | .matmul die tile fault => Sys2Proof.Machine.execMatmul die tile fault s
  | .vfloat die tile fault => Sys2Proof.Machine.execVfloat die tile fault s
  | .vint die tile fault => Sys2Proof.Machine.execVint die tile fault s
  | .vreduce die tile fault => Sys2Proof.Machine.execVreduce die tile fault s
  | .copy die tile fault => Sys2Proof.Machine.execCopy die tile fault s
  | .fill die tile fault => Sys2Proof.Machine.execFill die tile fault s
  | .put die tile fault => Sys2Proof.Machine.execPut die tile fault s
  | .get die tile fault => Sys2Proof.Machine.execGet die tile fault s
  | .call die tile fault => Sys2Proof.Machine.execCall die tile fault s
  | .packed die tile => Sys2Proof.Machine.execPacked die tile s
  | .packedBundle die tile fault => Sys2Proof.Machine.execPackedBundle die tile fault s
  | .windowSet die tile => Sys2Proof.Machine.execWindowSet die tile s
  | .roleDeclare die tile => Sys2Proof.Machine.execRoleDeclare die tile s
  | .tileReset die tile => Sys2Proof.Machine.execTileReset die tile s
  | .tlCtrlReset pid => Sys2Proof.Machine.execTlCtrlReset pid s
  | .tileResetDone die tile => Sys2Proof.Machine.execTileResetDone die tile s
  | .wbArm die tile => Sys2Proof.Machine.execWbArm die tile s
  | .wbBcast die tile => Sys2Proof.Machine.execWbBcast die tile s
  | .wbRenew die tile => Sys2Proof.Machine.execWbRenew die tile s
  | .wbQuery die tile => Sys2Proof.Machine.execWbQuery die tile s
  | .flagsRead die tile => Sys2Proof.Machine.execFlagsRead die tile s
  | .timeRead die tile => Sys2Proof.Machine.execTimeRead die tile s
  | .patch die tile => Sys2Proof.Machine.execPatch die tile s
  | .branch die tile => Sys2Proof.Machine.execBranch die tile s
  | .scalarF die tile => Sys2Proof.Machine.execScalarF die tile s
  | .sheafDefine die tile => Sys2Proof.Machine.execSheafDefine die tile s
  | .sheafUndefine die tile => Sys2Proof.Machine.execSheafUndefine die tile s
  | .sheafQuery die tile => Sys2Proof.Machine.execSheafQuery die tile s
  | .sheafContribReceive pid => Sys2Proof.Machine.execSheafContribReceive pid s
  | .chunkAccumulate die field sheaf pid chunk fault => Sys2Proof.Machine.execChunkAccumulate die field sheaf pid chunk fault s
  | .sheafCountCover pid => Sys2Proof.Machine.execSheafCountCover pid s
  | .sheafCountPoison pid => Sys2Proof.Machine.execSheafCountPoison pid s
  | .sheafResultReceive pid => Sys2Proof.Machine.execSheafResultReceive pid s
  | .sheafDeadline die field sheaf => Sys2Proof.Machine.execSheafDeadline die field sheaf s
  | .smallContrib pid fault => Sys2Proof.Machine.execSmallContrib pid fault s
  | .smallPiece pid fault => Sys2Proof.Machine.execSmallPiece pid fault s
  | .smallResult pid => Sys2Proof.Machine.execSmallResult pid s
  | .smallDown pid => Sys2Proof.Machine.execSmallDown pid s
  | .winnowDefine die tile => Sys2Proof.Machine.execWinnowDefine die tile s
  | .winnowUndefine die tile => Sys2Proof.Machine.execWinnowUndefine die tile s
  | .winnowQuery die tile => Sys2Proof.Machine.execWinnowQuery die tile s
  | .winnowIn pid => Sys2Proof.Machine.execWinnowIn pid s
  | .winnowRoundProcess field job fault => Sys2Proof.Machine.execWinnowRoundProcess field job fault s
  | .winnowDeadline field job => Sys2Proof.Machine.execWinnowDeadline field job s
  | .glDefine die tile => Sys2Proof.Machine.execGlDefine die tile s
  | .glUndefine die tile => Sys2Proof.Machine.execGlUndefine die tile s
  | .glStatus die tile => Sys2Proof.Machine.execGlStatus die tile s
  | .gleanKv pid => Sys2Proof.Machine.execGleanKv pid s
  | .gleanQuery pid => Sys2Proof.Machine.execGleanQuery pid s
  | .gleanBatchStart context => Sys2Proof.Machine.execGleanBatchStart context s
  | .baleTaskDone context query tile fault => Sys2Proof.Machine.execBaleTaskDone context query tile fault s
  | .gleanResultForm context query => Sys2Proof.Machine.execGleanResultForm context query s
  | .gleanDeadline context query => Sys2Proof.Machine.execGleanDeadline context query s
  | .gleanResultReceive pid => Sys2Proof.Machine.execGleanResultReceive pid s
  | .attest d t => Sys2Proof.Machine.execAttest d t s
  | .vauxUp => Sys2Proof.Machine.execVauxUp s
  | .vauxLoss => Sys2Proof.Machine.execVauxLoss s
  | .pwrGoodRise => Sys2Proof.Machine.execPwrGoodRise s
  | .pwrGoodFall => Sys2Proof.Machine.execPwrGoodFall s
  | .resetNFall => Sys2Proof.Machine.execResetNFall s
  | .bootStart head pos fuseOk => Sys2Proof.Machine.execBootStart head pos fuseOk s
  | .imageStaged src r => Sys2Proof.Machine.execImageStaged src r s
  | .chainFrameReceive f => Sys2Proof.Machine.execChainFrameReceive f s
  | .chainStatusTimeout pos => Sys2Proof.Machine.execChainStatusTimeout pos s
  | .followerTimeout => Sys2Proof.Machine.execFollowerTimeout s
  | .thermalTrip d => Sys2Proof.Machine.execThermalTrip d s
  | .overcurrentTrip d => Sys2Proof.Machine.execOvercurrentTrip d s
  | .fuseOrder pid => Sys2Proof.Machine.execFuseOrder pid s
  | .fuseOrderDone ok => Sys2Proof.Machine.execFuseOrderDone ok s
  | .admitField pid => Sys2Proof.Machine.execAdmitField pid s
  | .evict pid => Sys2Proof.Machine.execEvict pid s
  | .fieldActivate n => Sys2Proof.Machine.execFieldActivate n s
  | .rowZeroiseDone d r ok => Sys2Proof.Machine.execRowZeroiseDone d r ok s
  | .evictionDone n => Sys2Proof.Machine.execEvictionDone n s
  | .relayStart pid => Sys2Proof.Machine.execRelayStart pid s
  | .relay pid => Sys2Proof.Machine.execRelay pid s
  | .relayTimeout => Sys2Proof.Machine.execRelayTimeout s
  | .session pid => Sys2Proof.Machine.execSession pid s
  | .debugToken bytes => Sys2Proof.Machine.execDebugToken bytes s
  | .faultReport n => Sys2Proof.Machine.execFaultReport n s
  | .handoffEnd n => Sys2Proof.Machine.execHandoffEnd n s
  | .hangStall u => Sys2Proof.Machine.execHangStall u s
  | .portPermit h beat => Sys2Proof.Machine.execPortPermit h beat s
  | .permitLoss h => Sys2Proof.Machine.execPermitLoss h s
  | .heartbeatLoss h => Sys2Proof.Machine.execHeartbeatLoss h s
  | .monitorCompare agree => Sys2Proof.Machine.execMonitorCompare agree s
  | .fieldReset pid => Sys2Proof.Machine.execFieldReset pid s
  | .dieReset pid => Sys2Proof.Machine.execDieReset pid s
  | .deviceReset pid => Sys2Proof.Machine.execDeviceReset pid s
  | .diePowerDown pid => Sys2Proof.Machine.execDiePowerDown pid s
  | .diePowerUp pid => Sys2Proof.Machine.execDiePowerUp pid s
  | .eventWrite => Sys2Proof.Machine.execEventWrite s
  | .smFallowAt pid => Sys2Proof.Machine.execSmFallowAt pid s
  | .fallowSwitchIn d => Sys2Proof.Machine.execFallowSwitchIn d s
  | .smAdmit pid => Sys2Proof.Machine.execSmAdmit pid s
  | .dmAck pid => Sys2Proof.Machine.execDmAck pid s
  | .stepArm pid => Sys2Proof.Machine.execStepArm pid s
  | .smbusRead target data pecOk => Sys2Proof.Machine.execSmbusRead target data pecOk s
  | .smbusSnapRead target data pecOk => Sys2Proof.Machine.execSmbusSnapRead target data pecOk s
  | .alertResponse => Sys2Proof.Machine.execAlertResponse s
  | .read pid => Sys2Proof.Machine.execRead pid s
  | .write pid => Sys2Proof.Machine.execWrite pid s
  | .snapArm pid => Sys2Proof.Machine.execSnapArm pid s
  | .snapRead pid => Sys2Proof.Machine.execSnapRead pid s
  | .close pid => Sys2Proof.Machine.execClose pid s
  | .snapLatch bank => Sys2Proof.Machine.execSnapLatch bank s
  | .mgrDataReceive pid => Sys2Proof.Machine.execMgrDataReceive pid s
  | .xferGapTimeout key => Sys2Proof.Machine.execXferGapTimeout key s
  | .signpost pid => Sys2Proof.Machine.execSignpost pid s
  | .rank pid => Sys2Proof.Machine.execRank pid s
  | .roadBook pid => Sys2Proof.Machine.execRoadBook pid s
  | .admission pid => Sys2Proof.Machine.execAdmission pid s
  | .dump pid => Sys2Proof.Machine.execDump pid s
  | .registers pid => Sys2Proof.Machine.execRegisters pid s
  | .events pid => Sys2Proof.Machine.execEvents pid s
  | .attestTransfer pid => Sys2Proof.Machine.execAttestTransfer pid s
  | .bridge pid => Sys2Proof.Machine.execBridge pid s
  | .barrier pid => Sys2Proof.Machine.execBarrier pid s
  | .signpostSeal pid => Sys2Proof.Machine.execSignpostSeal pid s
  | .signpostDiscard pid => Sys2Proof.Machine.execSignpostDiscard pid s
  | .signpostSealDone => Sys2Proof.Machine.execSignpostSealDone s
  | .ethLinkUp h => Sys2Proof.Machine.execEthLinkUp h s
  | .ethLinkDown h => Sys2Proof.Machine.execEthLinkDown h s
  | .vcoreSettle d mv watts => Sys2Proof.Machine.execVcoreSettle d mv watts s
  | .memorySelfTestDone die failed trustOk codeOk => Sys2Proof.Machine.execMemorySelfTestDone die failed trustOk codeOk s
  | .dumpSampleDone => Sys2Proof.Machine.execDumpSampleDone s

end Sys2Proof.Machine
end

