-- ==== Sys2Proof/Safety.lean ====
section
/-! DEFINITION. What counts as a sound state, in the terms the statements use: the canonical form of memory, and the alert causes,
the latch and the output pins following the state. -/

namespace Sys2Proof.Machine

/-- The canonical form of tile and Steward memory: addresses strictly rising, and no entry equal to what an unlisted address reads
as, which is zero. -/
abbrev Memory.wf (m : List Host.Cell) : Prop := tabWf 0 m

/-- DV_ALERT.CAUSE holds the causes in force (R438), and the output pins are at the levels that the state gives them: FAULT_N low
exactly in UNSEEDED or fail-silent (R380, R409), THERM_TRIP_N low exactly after a thermal trip (R393), DIE_FENCE_N[d] low exactly
while die d is unpowered (R394), SMB_ALERT_N low exactly while LATCH & MASK is not zero (R438). -/
structure PinsFollow (s : State) : Prop where
  cause : s.fld F.DV_ALERT_CAUSE = alertCauses s
  faultN : s.pins.faultN = false ↔ s.fld F.SL_STATUS_STATE = 5 ∨ s.fld F.SM_STATUS_STATE = 2
  thermTripN : s.pins.thermTripN = false ↔ s.fld F.PW_CAP_THERM_TRIPPED ≠ 0
  dieFenceN : s.pins.dieFenceN = poweredDies s
  smbAlertN : s.pins.smbAlertN = false ↔ s.fld F.DV_ALERT_LATCH &&& s.fld F.DV_ALERT_MASK ≠ 0

/-- Output `out` of its die has passed packet `pid` to the unit that takes it (R142, R153), and its CHECK passes (R128). -/
def Handed (s : State) (pid : Nat) (k : Pkt) (out : Nat) : Prop :=
  s.pkt pid = some k ∧ k.stage = .taken ∧ k.out = out ∧ checkOk k.p = true

/-- The state in which that unit acts: the packet is done with. -/
def taking (s : State) (pid : Nat) (k : Pkt) : State := s.setPkt pid (some { k with stage := .done })

/-- The exchange of half-port `h` once the REPLY it awaits has come: the SYNC with the stamp the REPLY copies is answered, and no REPLY is awaited. -/
def answeredSync (h tA : Nat) (s : State) : State :=
  let u := s.setExch h { s.exch h with unanswered := (s.exch h).unanswered.filter (fun t => decide (t ≠ tA)) }
  u.setExch h { u.exch h with waiting := false }

/-- Barrier packet `pid` of one kind, with message `m`, is taken for barrier `b` (R71): it waits for the Time Keeper, its CHECK passes and it
names the barrier open here; in `u` its cells are freed. -/
def BarrierHeard (s : State) (pid kind : Nat) (m : BarrierMsg) (b : BarrierRec) (u : State) : Prop :=
  (∃ k, barrierPkt s pid kind = some k ∧ checkOk k.p = true ∧ m = barrierMsgOf k.p) ∧ u = freePkt pid 8 s ∧
    u.time.barrier = some b ∧ b.id = m.id ∧ b.field = m.field

/-- A packet's header comes on half-port `h`, on a link in UP, and is that of record `x`, of which no failed block has dropped the packet; in `u` the
phase of its KP has been taken (R79, R98). -/
def HeaderComes (s : State) (h : Nat) (p : Packet) (x : RxPacket) (u : State) : Prop :=
  s.link h = 4 ∧ s.isEth h = false ∧ p.h.typ ≠ 0x12 ∧
    ((awaitHeader h p s).half h).rxq.find? (fun y => y.pid.isNone) = some x ∧ x.bad = false ∧ u = takePhase h p.h.kp (awaitHeader h p s)

/-- The tag that packet must have (R97): none that fits where its KP names no key held. -/
def awaitedTag (s u : State) (h : Nat) (x : RxPacket) (p : Packet) : List Byte :=
  if (awaitHeader h p s).kpHeld h p.h.kp then hopTag u h x.pos p else []

/-- The record of reception at a position notes the packet's number and that tag. -/
def noteHeader (h pos pid : Nat) (want : List Byte) (s : State) : State :=
  updRx h pos (fun y => { y with pid := some pid, want := want }) s

/-- MGR_REQ number `pid`, packet `k`, runs in state `u` (R433): it waits for the management logic, its CHECK passes, it has no reserved byte set, its KEY holds a
session, its MAC verifies and its SEQ is higher than any accepted; its cells are freed, and its SEQ is now the highest. -/
def Asked (s : State) (pid : Nat) (k : Pkt) (u : State) : Prop :=
  mgrPkt s pid 0x20 = some k ∧ checkOk k.p = true ∧ reqMalformed k.p = false ∧ ∃ x, (freePkt pid 8 s).session (reqOf k.p).key = some x ∧
    shortMac x.rxKey 1 k.p.h (k.p.body.take 24) = k.p.body.drop 24 ∧ x.high < (reqOf k.p).seq ∧
    u = (freePkt pid 8 s).setSession (reqOf k.p).key (some { x with high := (reqOf k.p).seq, kept := none })

/-- That request is a WRITE of register `y` at `q`, which can be reached and takes the value (R15, R16, R428, R429). -/
def AskedWrite (s : State) (pid : Nat) (k : Pkt) (u : State) (y : RegSpec) (q : List Nat) : Prop :=
  Asked s pid k u ∧ (reqOf k.p).op = 2 ∧ s.place (reqOf k.p).addr = .reg y q ∧ u.place (reqOf k.p).addr = .reg y q ∧
    u.reach (reqOf k.p).addr = stOk ∧ u.accessOk y q (reqOf k.p).value = true

/-- The request is answered with a status and a VALUE from state `t` (R430, R433). -/
def told (k : Pkt) (st v : Nat) (t : State) : State := answerReq k.die (reqOf k.p).key k.p st v t

/-- A write of register `y` at `q` is answered from state `u`: with OK and what the register reads once the write has taken effect, or with the
status of its refusal (R433). -/
def answered (k : Pkt) (y : RegSpec) (q : List Nat) (u : State) (x : Except Nat State) : State :=
  match x with
  | .ok t => told k stOk (t.regWord y q) t
  | .error e => told k e (noValue u) u.tick

/-- MGR_DATA number `pid`, packet `k`, completes object `l` of open transfer `x`, whose target acts in state `u` (R434): it waits for the
management logic, its CHECK passes and its MAC verifies, it fits the transfer, its bytes may be written, and the pieces now cover the length. -/
def Filled (s : State) (pid : Nat) (k : Pkt) (x : Xfer) (l : List Byte) (u : State) : Prop :=
  mgrPkt s pid 0x8F = some k ∧ checkOk k.p = true ∧ (dataHdrOf k.p).target ≠ 1 ∧ ∃ (y : Session) (x0 : Xfer) (v : State), dataSession s k.p = some y ∧
    dataSession (freePkt pid 8 s) k.p = some y ∧ y.xfer = some x0 ∧ dataFits x0 k.p = true ∧
    earlyBytes x0 (dataHdrOf k.p).off (k.p.data.take (dataHdrOf k.p).len) (freePkt pid 8 s) = some v ∧ x = addPiece x0 k.p v.now ∧
    piecesCover x.got x.len = true ∧ l = objectOf x ∧ u = v.setSession (dataHdrOf k.p).key (some { y with xfer := some x })

/-- The transfer that `k` completed ends with a status and a VALUE (R434). -/
def ended (k : Pkt) (x : Xfer) (a : (Nat × Nat) × State) : State := endXfer k.die (dataHdrOf k.p).key x a.1.1 a.1.2 a.2

end Sys2Proof.Machine
end

