-- ==== Sys2Proof/Certificates/Slice0/Obligations.lean ====
section
/-! DEFINITION. The statements for the provers. `exec c s = .next (finish s t)` says that command `c` completes on `s` with effect
`t`: `finish` adds the alert causes, the alert latch and the pins that follow the state, and leaves the queue of waiting commands. -/

open Sys2Proof Sys2Proof.Machine

/-! ## The block -/

/-- For every command c and every state with c at the front of its queue, step is exec of c on the state with the queue's rest. With an empty queue (the model's choice, log entry 3) step answers a next state in which, while VAUX is present, every replica's counters A and B have advanced at the rate in force, each by 10^12 + rate parts in 10^12 of a count with what is over carried on in its own accumulator; nothing else but the pins and DV_ALERT follows. -/
def Obligations.StepRunsTheFrontCommand : Prop :=
  (∀ (s : State) (c : Instr) (rest : List Instr), s.pending = c :: rest → step s = exec c { s with pending := rest }) ∧
  (∀ (s : State), s.pending = [] → s.boot.vaux = true →
      let acc := (s.time.acc : Int) + (1000000000000 + s.time.ratePpt)
      let n := (acc / 1000000000000).toNat
      ∃ peers, step s = .next (settle { s with time := { s.time with count := (s.time.count + n) % 2 ^ 64, acc := (acc % 1000000000000).toNat, peers := peers } }) ∧
        ∀ d c, d < 8 → c < 2 → ¬ (d = s.leadDie ∧ c = 0) →
          let a := ((s.peer d c).acc : Int) + (1000000000000 + s.time.ratePpt)
          tabGet {} peers [d, c] = ⟨(s.peer d c).off + (a / 1000000000000).toNat - n, (a % 1000000000000).toNat⟩) ∧
  (∀ (s : State), s.pending = [] → s.boot.vaux = false → step s = .next (settle s))

/-- For every state in which DV_ALERT.CAUSE holds the causes in force, FAULT_N is low exactly in UNSEEDED or fail-silent, THERM_TRIP_N exactly after a thermal trip, DIE_FENCE_N of a die exactly while it is unpowered and SMB_ALERT_N exactly while LATCH & MASK is not zero: if step answers next t, all of that holds of t, and t's queue is the old queue without its front. -/
def Obligations.EveryStepKeepsThePins : Prop :=
  ∀ s t : State, PinsFollow s → step s = .next t →
    PinsFollow t ∧ t.pending = s.pending.tail

/-- State.reset meets the invariant of the pins; its queue, its memory and its event log are empty; the Milestone counter is 0 in UNSET, die 0's replica leads, no Season is committed, every die is unpowered and DV_ALERT.MASK is 0x3FF. -/
def Obligations.ResetMeetsPins : Prop :=
  PinsFollow State.reset ∧ State.reset.pending = [] ∧ State.reset.mem = [] ∧ Memory.wf State.reset.mem ∧ State.reset.recorder.ring = [] ∧ State.reset.now = 0 ∧
    State.reset.time.mode = .unset ∧ State.reset.fld F.TK_REPLICA_ROLE [0] = 1 ∧ State.reset.fld F.FS_SEASONS_OWNER = 7 ∧ State.reset.fld F.FS_SEASONS_HEDGE = 7 ∧
    (∀ d ∈ dies, State.reset.fld F.SM_DIE_STATE_POWERED [d] = 0) ∧ State.reset.fld F.DV_ALERT_MASK = 0x3FF ∧ State.reset.pins.smbAlertN = false

/-! ## Hall time (chapter 2) -/

/-- SYNC_SEND on an Edbor half-port in UP with EXCH_EN, an interval after the latest SYNC, sends a SYNC with the next SEQ and t1, and zero in T_B and T_C. SYNC_RECEIVE of a SYNC whose hop tag has passed on such a half-port, unless the device is fail-silent, answers with a REPLY that copies SEQ and T_A and carries as t2 the count at which the SYNC crossed the balls and as t3 the count now; the packet is taken. REPLY_RECEIVE of the awaited SEQ with VALID 1, which crossed the balls at t4 within 4 µs of t1 and gives d within 16 of d_ref: θ and d by R57, written to TK_PORT_MEASh, and the sample goes to every candidate the half-port feeds; the SYNC whose stamp it copies is answered. A reply that comes before d_ref exists is only one more of its samples. -/
def Obligations.TimeExchangeCompletes : Prop :=
  (∀ (s : State) (h : Nat), h < 16 → s.link h = 4 → s.isEth h = false → s.fld F.TK_PORT_CAL_EXCH_EN (hp h) = 1 →
      ((s.exch h).t1 = 0 ∨ (s.exch h).t1 + 16000 * s.fld F.TK_PORT_CAL_INTERVAL_US (hp h) ≤ s.now) →
      exec (.syncSend h) s = .next (finish s
        (let q := ((s.exch h).seq + 1) % 65536
         let u := s.setExch h { s.exch h with seq := q, t1 := s.now, waiting := true, unanswered := (s.exch h).unanswered.filter (syncOpen s h) ++ [s.now] }
         sendOnLink h (timePacket u { ownTimeMsg u h false 0 0 0 0 with seq := q, tA := s.now }) u)))  ∧
  (∀ (s : State) (pid h : Nat) (k : Pkt), s.pkt pid = some k → k.input = .half h → k.stage = .passed → isTimeMsg false k.p = true →
      s.link h = 4 → s.isEth h = false → s.fld F.SM_STATUS_STATE ≠ 2 →
      exec (.syncReceive pid) s = .next (finish s
        (let u := s.setPkt pid none
         sendOnLink h (timePacket u { ownTimeMsg u h true 0 0 0 0 with
           seq := (timeMsgOf k.p).seq, tA := (timeMsgOf k.p).tA, tB := k.issuedAt, tC := s.now }) u))) ∧
  (∀ (s : State) (pid h : Nat) (k : Pkt) (m : TimeMsg) (t4 : Nat) (r : Int), s.pkt pid = some k → k.input = .half h → k.stage = .passed →
      isTimeMsg true k.p = true → m = timeMsgOf k.p → t4 = k.issuedAt → s.link h = 4 → s.isEth h = false → m.valid = true →
      (s.exch h).waiting = true → m.seq = (s.exch h).seq → t4 ≤ (s.exch h).t1 + 64000 →
      (s.exch h).dRef = some r → (delayOf (s.exch h).t1 m.tB m.tC t4 - r).natAbs ≤ 16 →
      exec (.replyReceive pid) s = .next (finish s
        (let u := answeredSync h m.tA (s.setPkt pid none)
         let θ := offsetOf (s.exch h).t1 m.tB m.tC t4 (toSigned 32 (s.fld F.TK_PORT_CAL_ASYM (hp h)))
         feedSources (s.srcsOf 1 h) θ m.bound (m.hops + 1) m.srcIsYou
           ((u.setFld F.TK_PORT_MEAS_DELAY (ofSigned 32 (delayOf (s.exch h).t1 m.tB m.tC t4)) (hp h)).setFld
             F.TK_PORT_MEAS_OFFSET (ofSigned 32 θ) (hp h))))) ∧
  (∀ (s : State) (pid h : Nat) (k : Pkt) (m : TimeMsg) (t4 : Nat), s.pkt pid = some k → k.input = .half h → k.stage = .passed →
      isTimeMsg true k.p = true → m = timeMsgOf k.p → t4 = k.issuedAt → s.link h = 4 → s.isEth h = false → m.valid = true →
      (s.exch h).waiting = true → m.seq = (s.exch h).seq → t4 ≤ (s.exch h).t1 + 64000 →
      (s.exch h).dRef = none → (s.exch h).dSamples.length < 7 →
      exec (.replyReceive pid) s = .next (finish s
        (let u := answeredSync h m.tA (s.setPkt pid none)
         u.setExch h { u.exch h with dSamples := (s.exch h).dSamples ++ [delayOf (s.exch h).t1 m.tB m.tC t4] })))

/-- SAMPLE_MISSING of a link source counts as a bad sample the oldest SYNC left without its REPLY 4 µs after its stamp that the source has not counted; of a PTP or pins source past its limit it is a bad sample; a bad sample adds one to the run and ends the run of good ones, and the third in a row loses the source. A lost source that is in use in LOCKED, with no other candidate qualified, puts the Time Keeper into HOLDOVER. -/
def Obligations.MissingSamplesLoseASource : Prop :=
  (∀ (s : State) (n t : Nat), n < 4 → s.srcKind n = 1 →
      (s.exch (s.srcHalf n)).unanswered.find? (fun t => decide ((s.srcRec n).missFrom ≤ t) && decide (t + 64000 ≤ s.now)) = some t →
      exec (.sampleMissing n) s = .next (finish s
        (let u := badSample n (s.setSrc n { s.srcRec n with missFrom := t + 1 })
         u.setExch (s.srcHalf n) { u.exch (s.srcHalf n) with unanswered := (u.exch (s.srcHalf n)).unanswered.filter (syncOpen u (s.srcHalf n)) }))) ∧
  (∀ (s : State) (n : Nat), n < 4 → s.srcKind n = 3 →
      max (s.srcRec n).lastAt (s.time.ppsInAt.getD 0) + 16 * 1100000000 ≤ s.now →
      exec (.sampleMissing n) s = .next (finish s (badSample n (s.setSrc n { s.srcRec n with lastAt := s.now })))) ∧
  (∀ (s : State) (n : Nat), n < 4 → s.srcKind n = 2 →
      (s.srcRec n).lastAt + 2 * (16 * s.sampleInterval n) ≤ s.now →
      exec (.sampleMissing n) s = .next (finish s (badSample n (s.setSrc n { s.srcRec n with lastAt := s.now })))) ∧
  (∀ (s : State) (n : Nat), (s.srcRec n).bad < 2 →
      badSample n s = s.setSrc n { s.srcRec n with good := 0, bad := (s.srcRec n).bad + 1 }) ∧
  (∀ (s : State) (n : Nat), 2 ≤ (s.srcRec n).bad → s.srcInUse ≠ some n →
      badSample n s = s.setSrc n { s.srcRec n with good := 0, bad := 0, qualified := false, delivering := false }) ∧
  (∀ (s : State) (n : Nat), 2 ≤ (s.srcRec n).bad → s.srcInUse = some n → s.time.mode = .locked →
      (∀ m, m < 4 → m ≠ n → (s.srcRec m).qualified = false) → (badSample n s).time.mode = .holdover)

/-- PACE_UPDATE gives every region its reading and then runs the guard of every die. REPLICA_COMPARE with no difference of more than 2 between counters and none of more than 4 from the lead, and a lead that has not failed, gives the counters those differences and shows them. CLOCK_MONITOR_FIRE beyond the threshold logs a time event and, where time is valid, makes it INVALID. -/
def Obligations.MonitorsComplete : Prop :=
  (∀ (s : State) (l : List Nat), l.length = 64 → (∀ r ∈ l, r < 65536) →
      exec (.paceUpdate l) s = .next (finish s
        ((s.forAll (List.range 64) (fun i u => paceRegion (i / 8) (i % 8) (l.getD i 0) u)).forAll dies (fun d u =>
          paceGuard d (u.setFld F.SM_HANG_BOUND_NS
            (hangBound (([5, 6, 7].map (u.pace d)).foldl min (u.pace d 4))) [d]))))) ∧
  (∀ (s : State) (l : List ReplicaReading), l.length = 8 → (∀ r ∈ l, r.ab.natAbs ≤ 2 ∧ r.lead.natAbs ≤ 4) →
      s.fld F.TK_REPLICA_ROLE [s.leadDie] ≠ 2 → (s.peer s.leadDie 0).off = 0 →
      exec (.replicaCompare l) s = .next (finish s ((readCounters l s).forAll dies (fun d u =>
        (u.setFld F.TK_REPLICA_AB_DIFF (satSigned8 (l.getD d ⟨0, 0⟩).ab) [d]).setFld F.TK_REPLICA_LEAD_DIFF
          (if d = s.leadDie then 0 else satSigned8 (l.getD d ⟨0, 0⟩).lead) [d])))) ∧
  (∀ (s : State) (ppb : Nat), (if s.fld F.TK_HOLD_OSC_IN_FITTED = 1 then 30000 else 1000000) < ppb →
      exec (.clockMonitorFire ppb) s = .next (finish s
        (if s.time.mode = .locked ∨ s.time.mode = .holdover then setMode .invalid (timeEvent 0x07 s) else timeEvent 0x07 s)))

/-- COUNTER_STEP with a step waiting, from UNSET or with STEP_ARM 1 and nothing scheduled live on any die: every gate beyond the old or the new count and a pending bank swap are cancelled, every counter becomes the source's time, STEP_ARM and STEP_WAIT clear, STEPS counts, every active Field is fenced, and the Time Keeper enters ACQUIRING with the bound that the source's latest sample gives. With no step waiting, or one not allowed, nothing changes. -/
def Obligations.CounterStepCompletes : Prop :=
  (∀ (s : State) (θ : Int), s.time.stepTheta = some θ →
      (s.time.mode = .unset ∨ (s.fld F.TK_CTRL_STEP_ARM = 1 ∧ ∀ d ∈ dies, s.schedLive d = false)) →
      exec .counterStep s = .next (finish s
        (let new := (((s.now : Int) - θ) % (2 ^ 64 : Int)).toNat
         let u := s.forAll (s.gates.filter (fun g => decide (min s.now new < g.at_) || decide (g.id = .rbSwap))) (fun g u => cancelLaunch g.id u)
         let v : State := { u with time := { u.time with count := new, stepTheta := none, peers := (u.time.peers.map (fun e => (e.1, { e.2 with off := 0 }))).filter (fun e => e.2 ≠ {}) } }
         let w := ((v.setFld F.TK_CTRL_STEP_ARM 0).setFld F.TK_STATUS_STEP_WAIT 0).bump F.TK_EVENTS_STEPS
         showBound (setMode .acquiring (timeEvent 0x02
           (w.forAll ((List.range 16).filter (fun n => w.fld F.DV_FIELD_SLOT_STATE [n] = 2)) (fun n u => fenceField n false u))))))) ∧
  (∀ s : State, s.time.stepTheta = none → exec .counterStep s = .next (finish s s)) ∧
  (∀ s : State, s.time.mode ≠ .unset → (s.fld F.TK_CTRL_STEP_ARM = 0 ∨ ∃ d ∈ dies, s.schedLive d = true) →
      exec .counterStep s = .next (finish s s))

/-- HOLDOVER_UPDATE in HOLDOVER, or in INVALID while no source has been accepted since, sets BOUND_PS to b0 + stab_ppt × dt_ms // 1000 + ageing × dt_ms² // (2 × 10^9), with dt_ms the whole milliseconds since the entry to HOLDOVER; from HOLDOVER the state becomes INVALID exactly when that exceeds 2,000. -/
def Obligations.HoldoverBound : Prop :=
  (∀ (s : State) (t : Nat), s.time.holdAt = some t → (s.time.mode = .holdover ∨ s.time.mode = .invalid) →
      ∃ u, exec .holdoverUpdate s = .next u ∧
        (let ms := (s.now - t) / 16000000
         let b := s.time.holdB0 + s.fld F.TK_HOLD_STAB_PPT * ms / 1000 + s.fld F.TK_HOLD_AGEING * ms * ms / (2 * 10 ^ 9)
         u.fld F.TK_STATUS_BOUND_PS = min b (2 ^ 32 - 1) ∧
         (s.time.mode = .holdover → u.time.mode = if 2000 < b then .invalid else .holdover) ∧
         (s.time.mode = .invalid → u.time.mode = .invalid)))

/-- PTP_SYNC_SEND, ANNOUNCE_SEND and PDELAY_REQ_SEND on an Ethernet-mode half-port in UP, an interval after the latest: Sync and Follow_Up of one sequence number, the whole nanoseconds in the origin timestamp and the sixteenths × 4,096 in the correction; Announce with HOPS, clockClass 6 in LOCKED and 7 in HOLDOVER, and TAI_UTC; Pdelay_Req with a new sequence number; over UDP ports 319 and 320 under IPV6, else under EtherType 0x88F7. PTP_MESSAGE_RECEIVE on an Ethernet-mode half-port in UP: a message of an unsupported type only counts in SAMPLES_REJECTED; one by the transport in use and of the device's domain: Pdelay_Req on a port with a role is answered by Pdelay_Resp and its Follow_Up with the stamps; on a slave port a Sync is kept with its ingress stamp, and the Follow_Up of the same sequence number gives a sample. -/
def Obligations.PtpCompletes : Prop :=
  (∀ (s : State) (h : Nat), h < 16 → s.isEth h = true → s.link h = 4 → s.ptpRole h = 1 → s.timeValid = true →
      ((s.ptpPort h).syncAt = 0 ∨ (s.ptpPort h).syncAt + logUnits (s.fld F.TK_PTP_LOG_SYNC) ≤ s.now) →
      exec (.ptpSyncSend h) s = .next (finish s
        (((s.setPtp h { s.ptpPort h with syncSeq := ((s.ptpPort h).syncSeq + 1) % 65536, syncAt := s.now }).emit
          (.ptp h (if s.fld F.TK_PTP_IPV6 = 1 then 319 else 0x88F7) 0 (s.ptpPort h).syncSeq 0 0 0 0 0)).emit
          (.ptp h (if s.fld F.TK_PTP_IPV6 = 1 then 320 else 0x88F7) 1 (s.ptpPort h).syncSeq (s.now / 16) (s.now % 16 * 4096) 0 0 0)))) ∧
  (∀ (s : State) (h : Nat), h < 16 → s.isEth h = true → s.link h = 4 → s.ptpRole h = 1 → s.timeValid = true →
      ((s.ptpPort h).announceAt = 0 ∨ (s.ptpPort h).announceAt + logUnits (s.fld F.TK_PTP_LOG_ANNOUNCE) ≤ s.now) →
      exec (.announceSend h) s = .next (finish s
        ((s.setPtp h { s.ptpPort h with announceSeq := ((s.ptpPort h).announceSeq + 1) % 65536, announceAt := s.now }).emit
          (.ptp h (if s.fld F.TK_PTP_IPV6 = 1 then 320 else 0x88F7) 2 (s.ptpPort h).announceSeq 0 0 (s.fld F.TK_STATUS_HOPS) (if s.time.mode = .holdover then 7 else 6)
            (toSigned 16 (s.fld F.TK_CTRL_TAI_UTC)))))) ∧
  (∀ (s : State) (h : Nat), h < 16 → s.isEth h = true → s.link h = 4 → s.ptpRole h ≠ 0 →
      ((s.ptpPort h).pdelayAt = 0 ∨ (s.ptpPort h).pdelayAt + logUnits (s.fld F.TK_PTP_LOG_PDELAY) ≤ s.now) →
      exec (.pdelayReqSend h) s = .next (finish s
        ((s.setPtp h { s.ptpPort h with pdelaySeq := ((s.ptpPort h).pdelaySeq + 1) % 65536, pdelayAt := s.now, pdelayT2 := none, pdelayT4 := none }).emit (.ptp h (if s.fld F.TK_PTP_IPV6 = 1 then 319 else 0x88F7) 3 (((s.ptpPort h).pdelaySeq + 1) % 65536) 0 0 0 0 0)))) ∧
  (∀ (s : State) (h : Nat) (m : PtpMsg) (q wait : Nat), h < 16 → m.wellFormed = true → s.isEth h = true → s.link h = 4 →
      m.ipv6 = decide (s.fld F.TK_PTP_IPV6 = 1) → m.domain = s.fld F.TK_PTP_DOMAIN → s.ptpRole h ≠ 0 → m.body = .pdelayReq q wait →
      exec (.ptpMessageReceive h m) s = .next (finish s
        ((s.emit (.ptp h (if s.fld F.TK_PTP_IPV6 = 1 then 319 else 0x88F7) 4 q ((s.now - wait) / 16) ((s.now - wait) % 16 * 4096) 0 0 0)).emit
          (.ptp h (if s.fld F.TK_PTP_IPV6 = 1 then 320 else 0x88F7) 5 q (s.now / 16) (s.now % 16 * 4096) 0 0 0)))) ∧
  (∀ (s : State) (h : Nat) (m : PtpMsg), h < 16 → m.wellFormed = true → s.isEth h = true → s.link h = 4 →
      m.body = .unsupported →
      exec (.ptpMessageReceive h m) s = .next (finish s (s.bump F.TK_EVENTS_SAMPLES_REJECTED))) ∧
  (∀ (s : State) (h : Nat) (m : PtpMsg) (q : Nat), h < 16 → m.wellFormed = true → s.isEth h = true → s.link h = 4 →
      m.ipv6 = decide (s.fld F.TK_PTP_IPV6 = 1) → m.domain = s.fld F.TK_PTP_DOMAIN → s.ptpRole h = 2 → m.body = .sync q →
      exec (.ptpMessageReceive h m) s = .next (finish s (s.setPtp h { s.ptpPort h with rxSync := some (q, s.now) }))) ∧
  (∀ (s : State) (h : Nat) (m : PtpMsg) (q rx o : Nat), h < 16 → m.wellFormed = true → s.isEth h = true → s.link h = 4 →
      m.ipv6 = decide (s.fld F.TK_PTP_IPV6 = 1) → m.domain = s.fld F.TK_PTP_DOMAIN → s.ptpRole h = 2 → m.body = .followUp q o → (s.ptpPort h).rxSync = some (q, rx) →
      exec (.ptpMessageReceive h m) s = .next (finish s (ptpSample h o rx
        ((s.setPtp h { s.ptpPort h with rxSync := none }).forAll (s.srcsOf 2 h)
          (fun n u => u.setSrc n { u.srcRec n with lastAt := s.now })))))

/-- PPS_IN_EDGE with a pins source, a message that came 100 ms to 900 ms after the previous edge, and an edge at least 0.9 s after it: θ = (stamp − CABLE_DELAY) − seconds × 16 × 10^9 goes to every pins source with source bound 0. TOD_MESSAGE with SYNC, VERSION and CRC right shows CLASS and TOD_OK and keeps its second where FLAGS[0] is 1. PPS_OUT_RISE at a multiple of PERIOD_NS while time is valid, enabled and not fail-silent raises the pin for WIDTH_NS; PPS_OUT_FALL lowers it when that width has passed. -/
def Obligations.TimePinsComplete : Prop :=
  (∀ (s : State) (p : Nat) (t : TodRec), s.pinSrcs ≠ [] → s.time.ppsInAt = some p → s.time.tod = some t →
      p + 16 * 100000000 ≤ t.arrivedAt → t.arrivedAt ≤ p + 16 * 900000000 → p + 16 * 900000000 ≤ s.now →
      exec .ppsInEdge s = .next (finish s
        (({ s with time := { s.time with ppsInAt := some s.now, tod := none } } : State).forAll s.pinSrcs (fun n u =>
          acceptSample n ((s.now : Int) - s.fld F.TK_PPS_IN_CABLE_DELAY - (t.seconds * 16000000000 : Nat)) 0 0 u)))) ∧
  (∀ (s : State) (l : List Byte), l.length = 16 → byteNat l 0 2 = 0x594B → byteNat l 2 1 = 1 →
      byteNat l 14 2 = crc16 (l.take 14) → (byteNat l 3 1).testBit 0 = true →
      exec (.todMessage l) s = .next (finish s
        { (s.setFld F.TK_PPS_IN_TOD_CLASS (byteNat l 12 1)).setFld F.TK_PPS_IN_TOD_OK 1 with
          time := { s.time with tod := some ⟨byteNat l 4 6, s.now⟩ } })) ∧
  (∀ (s : State) (k : Nat), s.timeValid = true → s.fld F.TK_CTRL_PPS_OUT_EN = 1 → s.fld F.SM_STATUS_STATE ≠ 2 →
      s.fld F.TK_PPS_OUT_PERIOD_NS ≠ 0 → s.now = k * (16 * s.fld F.TK_PPS_OUT_PERIOD_NS) → s.time.ppsOutHigh = false →
      s.time.ppsOutRiseAt ≠ some s.now →
      exec .ppsOutRise s = .next (finish s
        { s with time := { s.time with ppsOutHigh := true, ppsOutRiseAt := some s.now, ppsOutWidth := s.fld F.TK_PPS_OUT_WIDTH_NS } })) ∧
  (∀ (s : State) (t : Nat), s.time.ppsOutHigh = true → s.time.ppsOutRiseAt = some t → t + 16 * s.time.ppsOutWidth ≤ s.now →
      exec .ppsOutFall s = .next (finish s { s with time := { s.time with ppsOutHigh := false } }))

/-- A barrier packet waits for the Time Keeper with a CHECK that passes and names the open barrier; its cells are freed. At the root: BARRIER_ARRIVE of a new index short of the N-th is only noted, and the N-th sends RELEASE to every participant; BARRIER_LATE after the gather adds the participant to the late ones, which the root reports to the fabric manager; BARRIER_TIMEOUT past the gather timeout sends ABORT to every participant that arrived, ends armed admission actions with result 2, closes the barrier as aborted and reports that. A participant that is not the root: BARRIER_ARRIVE_SEND with time valid, BOUND_PS ≤ 1,500 and the start ready sends ARRIVE; BARRIER_RELEASE of a Field launch before M arms the gate at M; BARRIER_ABORT before a release closes the barrier and ends armed actions with result 2; BARRIER_FIRE of a Field launch at M and not past it, with time valid, BOUND_PS ≤ 1,500 and the Field still ready, credits LAUNCH_SLOT on every tile of the Field here, and the root reports the release; with BOUND_PS above 1,500 the participant answers LATE. A barrier packet that names no open barrier is discarded and logged. -/
def Obligations.BarrierCompletes : Prop :=
  (∀ (s u : State) (pid : Nat) (m : BarrierMsg) (b : BarrierRec), BarrierHeard s pid 1 m b u → b.open_ = true → b.root = u.device → m.index < b.n →
      b.gathered = false → b.arrivals.any (fun a => a.1 = m.index) = false → b.arrivals.length + 1 < b.n →
      exec (.barrierArrive pid) s = .next (finish s
        (u.setBarrier (some { b with arrivals := b.arrivals ++ [(m.index, m.src)] })))) ∧
  (∀ (s u : State) (pid : Nat) (m : BarrierMsg) (b : BarrierRec), BarrierHeard s pid 1 m b u → b.open_ = true → b.root = u.device → m.index < b.n →
      b.gathered = false → b.arrivals.any (fun a => a.1 = m.index) = false → b.arrivals.length + 1 = b.n →
      exec (.barrierArrive pid) s = .next (finish s
        (let c := { b with arrivals := b.arrivals ++ [(m.index, m.src)] }
         gatherDone c (u.setBarrier (some c))))) ∧
  (∀ (s u : State) (pid : Nat) (m : BarrierMsg) (b : BarrierRec), BarrierHeard s pid 3 m b u → b.root = u.device → m.index < b.n →
      b.gathered = true → b.phase ≠ .aborted →
      exec (.barrierLate pid) s = .next (finish s
        (let c := { b with lateOnes := (b.lateOnes.filter (· ≠ m.index)) ++ [m.index] }
         (u.setBarrier (some c)).emit (.barrierOutcome b.id 3 c.lateOnes)))) ∧
  (∀ (s : State) (b : BarrierRec), s.time.barrier = some b → b.root = s.device → b.gathered = false → b.phase ≠ .aborted →
      b.openedAt + 16000 * b.timeoutUs ≤ s.now →
      exec .barrierTimeout s = .next (finish s ((admitOver b 2
        ((s.forAll (b.arrivals.filter (fun a => a.2 ≠ s.device)) (fun a u => barrierSend 4 { b with index := a.1 } a.2 0 u)).setBarrier
          (some { b with phase := .aborted, gathered := true }))).emit (.barrierOutcome b.id 2 b.lateOnes)))) ∧
  (∀ (s : State) (b : BarrierRec), s.time.barrier = some b → b.phase = .opened → s.timeValid = true →
      s.fld F.TK_STATUS_BOUND_PS ≤ 1500 → barrierReady s b = true → b.root ≠ s.device →
      exec .barrierArriveSend s = .next (finish s
        (barrierSend 1 { b with phase := .arrived } b.root s.now (s.setBarrier (some { b with phase := .arrived }))))) ∧
  (∀ (s u : State) (pid : Nat) (m : BarrierMsg) (b : BarrierRec), BarrierHeard s pid 2 m b u → m.index = b.index → b.phase = .arrived →
      b.kind = 1 → u.now < m.count →
      exec (.barrierRelease pid) s = .next (finish s
        ((u.setBarrier (some { b with relAt := u.now, phase := .released, m := m.count })).armGate .barrier m.count))) ∧
  (∀ (s u : State) (pid : Nat) (m : BarrierMsg) (b : BarrierRec), BarrierHeard s pid 4 m b u → m.index = b.index →
      (b.phase = .arrived ∨ b.phase = .opened) →
      exec (.barrierAbort pid) s = .next (finish s (admitOver b 2 (u.setBarrier (some { b with phase := .aborted }))))) ∧
  (∀ (s : State) (b : BarrierRec), s.time.barrier = some b → b.phase = .released → s.gateAt .barrier = some b.m → b.m ≤ s.now →
      s.gateLate s.leadDie b.m = false → b.kind = 1 → s.timeValid = true → s.fld F.TK_STATUS_BOUND_PS ≤ 1500 → barrierReady s b = true →
      exec .barrierFire s = .next (finish s
        (let u := (s.dropGate .barrier).setBarrier (some { b with phase := .fired })
         launchField b (if b.root = s.device then barrierOutcome { b with phase := .fired } u else u)))) ∧
  (∀ (s : State) (b : BarrierRec), s.time.barrier = some b → b.phase = .released → s.gateAt .barrier = some b.m → b.m ≤ s.now →
      1500 < s.fld F.TK_STATUS_BOUND_PS → exec .barrierFire s = .next (finish s (barrierGoLate b 3 (s.dropGate .barrier)))) ∧
  (∀ (s : State) (pid : Nat) (k : Pkt), barrierPkt s pid 2 = some k → checkOk k.p = true →
      (∀ b, (freePkt pid 8 s).time.barrier = some b → b.open_ = false) →
      exec (.barrierRelease pid) s = .next (finish s (timeEvent 0x09 (freePkt pid 8 s))))

/-! ## Links (chapter 3) -/

/-- SIGNAL_DETECT on a DOWN link that does not wait enters TRAIN. TRAINING_FRAME in TRAIN, of either polarity, whose INFO agrees moves its lane on and answers with a frame of this end; when the frame of COUNT = 0 has gone on every lane, it shows the partner and enters ALIGN; one whose INFO differs ends the attempt in DOWN, logged with both INFO values. A frame that this end sends has 680 bytes and begins with the marker. TAP_UPDATE moves the taps as the requests not yet answered ask, or loads the preset, and sets the STATUS codes. TRAIN_RESTART enters TRAIN 1 ms after a failed attempt. -/
def Obligations.TrainingCompletes : Prop :=
  (∀ (s : State) (h : Nat), h < 16 → s.edborHalf h = true → s.link h = 0 → (s.half h).stayDown = false →
      (s.half h).restartAt = none → exec (.signalDetect h) s = .next (finish s (enterTrain h s))) ∧
  (∀ (s : State) (h l : Nat) (f : TrainFrame) (inv : Bool) (b : List Byte), (Instr.trainingFrame h l f).wellFormed = true → l < s.laneCount h →
      frameIn f.bytes = some (inv, b) → s.link h = 1 → infoMismatch s h l (frameSays b).info = false →
      exec (.trainingFrame h l f) s = .next (finish s
        (let i := (frameSays b).info
         let u := sendFrame h l f.asks (s.setLane h l (laneFrame (s.lane h l) inv (frameSays b) f (allTrained s h)))
         if countdownDone u h then enterAlign h (cacheEq h i (showPartner h i u)) else u))) ∧
  (∀ (s : State) (h l : Nat) (f : TrainFrame) (inv : Bool) (b : List Byte), (Instr.trainingFrame h l f).wellFormed = true → l < s.laneCount h →
      frameIn f.bytes = some (inv, b) → s.link h = 1 → infoMismatch s h l (frameSays b).info = true →
      exec (.trainingFrame h l f) s = .next (finish s
        (attemptFailed h false (linkEvent h 0x01 0 (infoBytes (ownInfo s h l) ++ (b.drop 16).take 16) s)))) ∧
  (∀ (s : State) (h l c : Nat), (s.lane h l).counted = false → ∃ b : List Byte, b.length = 680 ∧ beNat (b.take 8) = 0xFFFFFFFF00000000 ∧
      (sendFrame h l c s).out = s.out ++ [.frameOut h l b]) ∧
  (∀ (s : State) (h l : Nat), h < 16 → l < 16 → s.link h = 1 → (s.lane h l).pendPreset = 0 →
      exec (.tapUpdate h l) s = .next (finish s (s.setLane h l
        (let m := moveTaps (s.lane h l).taps (s.lane h l).pend (s.lane h l).status
         { s.lane h l with taps := m.1, status := m.2, pend := [0, 0, 0, 0, 0] })))) ∧
  (∀ (s : State) (h l : Nat), h < 16 → l < 16 → s.link h = 1 → (s.lane h l).pendPreset ≠ 0 →
      exec (.tapUpdate h l) s = .next (finish s (s.setLane h l { s.lane h l with
        taps := presetTaps (s.lane h l).pendPreset, status := [1, 1, 1, 1, 1], pend := [0, 0, 0, 0, 0], pendPreset := 0 }))) ∧
  (∀ (s : State) (h t : Nat), h < 16 → (s.half h).restartAt = some t → t ≤ s.now → s.link h = 0 → s.edborHalf h = true →
      (s.half h).stayDown = false → exec (.trainRestart h) s = .next (finish s (enterTrain h s)))

/-- PHASE_TIMEOUT of TRAIN after 60 ms, ALIGN after 200 µs (outside a relink) or KEY after 20 ms: the link is in DOWN, TRAIN_FAILS is one more, and training restarts 1 ms later, or, once TRAIN_FAILS is 3 or more, not before PH_CTRL.RETRAIN is written. -/
def Obligations.PhaseTimeoutFailsTheAttempt : Prop :=
  ∀ (s : State) (h : Nat), h < 16 → (s.link h = 1 ∨ s.link h = 2 ∨ s.link h = 3) →
    (s.half h).since + 16000 * (if s.link h = 1 then 60000 else if s.link h = 2 then 200 else 20000) ≤ s.now →
    (s.half h).relinkTry = none → s.fld F.PH_LINK_TRAIN_FAILS (hp h) < 255 →
    ∃ t, exec (.phaseTimeout h) s = .next t ∧ t.link h = 0 ∧
      t.fld F.PH_LINK_TRAIN_FAILS (hp h) = s.fld F.PH_LINK_TRAIN_FAILS (hp h) + 1 ∧
      (if s.fld F.PH_LINK_TRAIN_FAILS (hp h) < 2 then (t.half h).restartAt = some (s.now + 16000000)
       else (t.half h).stayDown = true ∧ (t.half h).restartAt = none)

/-- ALIGN_UNIT in ALIGN, before the row with LAST has come: this end sends a row, with LAST once its receiver is deskewed and RX_READY has come in 16 consecutive rows. A received row on which the lanes are deskewed, with a skew of at most 1,280 units, is noted with its skew and the run of RX_READY, capped at 16; its LAST ends the receiving direction, and starts the lanes' scramblers. When both directions have ended, so does ALIGN. -/
def Obligations.AlignRowCompletes : Prop :=
  (∀ (s : State) (h : Nat) (row : List AlignLane), (Instr.alignUnit h row).wellFormed = true → s.link h = 2 → (s.half h).lastRcvd = false →
    rowAligned s h row = true →
    exec (.alignUnit h row) s = .next (finish s
      (let u := sendAlignRow h s
       let last := row.all (fun x => (unitArg x.unit).testBit 2)
       let v := (u.setHalf h { u.half h with
         deskewed := true, readyRun := if row.all (fun x => (unitArg x.unit).testBit 3) then min 16 ((s.half h).readyRun + 1) else 0, lastRcvd := last,
         rxPos := 0, rowBlocks := [], scram := if last then (List.range (s.laneCount h)).map (fun n => ([n], scramStart n)) else [] }).setFld
         F.PH_LINK_SKEW_UNITS (rowSkew row) (hp h)
       if (v.half h).lastSent = true ∧ last = true then alignDone h v else v))) ∧
  (∀ (s : State) (h : Nat), (s.half h).lastSent = false →
    ((sendAlignRow h s).half h).lastSent = ((s.half h).deskewed && decide (16 ≤ (s.half h).readyRun)))

/-- BLOCK_RECEIVE on a lane of a link whose unit positions have begun: a block that decodes ends the lane's run of failures and counts in CORRECTED where a symbol was corrected; one that does not is handled as a failed block. Either waits for its row under the logical lane that its lane carries, and the block that completes the row has every position of the row processed. -/
def Obligations.BlockReceiveCompletes : Prop :=
  ∀ (s : State) (h l : Nat) (levels : List Nat), (Instr.blockReceive h l levels).wellFormed = true → l < s.laneCount h →
    s.isEth h = false → (s.link h = 3 ∨ s.link h = 4) →
    exec (.blockReceive h l levels) s = .next (finish s
      (let ln := s.lane h l
       let b := receiveBlock ln.inverted ln.wantPre ln.prevRx levels
       let s1 := s.setLane h l { ln with prevRx := if ln.inverted then 3 - levels.getLastD 0 else levels.getLastD 0 }
       let u := match b with
         | none => failedBlock h l s1
         | some x =>
           let v := if x.2 then s1.bump F.LK_FEC_CORRECTED (hp h) else s1
           v.setLane h l { v.lane h l with failRun := 0 }
       let n := u.logical h l
       let w := u.setHalf h { u.half h with rowBlocks := (u.half h).rowBlocks.filter (fun e => e.1 ≠ [n]) ++ [([n], b.map (·.1))] }
       if (w.half h).rowBlocks.length = w.laneCount h then
         let x := processRow h w
         if x.link h = 2 then alignEnds h (sendAlignRow h x) else x
       else w))

/-- A failed block counts once in UNCORRECTABLE; the loss of the link is due after it exactly when it was due before, it is the fourth or a later one in a row on its lane, or with it 64 blocks have failed within 1 µs. -/
def Obligations.FailedBlocksMakeLossDue : Prop :=
  ∀ (s : State) (h l : Nat),
    (failedBlock h l s).fld F.LK_FEC_UNCORRECTABLE (hp h) = min (s.fld F.LK_FEC_UNCORRECTABLE (hp h) + 1) (2 ^ 32 - 1) ∧
    ((failedBlock h l s).half h).lossDue =
      ((s.half h).lossDue || decide (3 ≤ (s.lane h l).failRun) ||
        decide (63 ≤ ((s.half h).failTimes.filter (fun t => decide (s.now < t + 16000))).length))

/-- LINK_LOSS with loss due or lock lost takes a fixed link from UP to DOWN and a circuit link to RELINK; DOWN_UNIT_RECEIVE takes a link that is neither DOWN nor SILENT to DOWN with the reason logged; a training frame in UP takes the link to DOWN. SEAL_UNIT for the SEAL unit that blocks have brought first gives each control packet it covers the verdict of its tag, while the link is in UP. -/
def Obligations.LinkLeavesUp : Prop :=
  (∀ (s : State) (h : Nat) (lost : Bool), h < 16 → s.link h = 4 → (lost = true ∨ (s.half h).lossDue = true) →
      exec (.linkLoss h lost) s = .next (finish s (goDown h (if s.isCircuit h then 5 else 0) (linkEvent h 0x05 0 [] s)))) ∧
  (∀ (s : State) (h : Nat) (u : List Byte), h < 16 → u.length = 64 → s.link h ≠ 6 → s.link h ≠ 0 → s.isEth h = false → unitType u = 2 →
      exec (.downUnitReceive h u) s = .next (finish s (goDown h 0 (linkEvent h 0x03 (unitArg u) [] s)))) ∧
  (∀ (s : State) (h l : Nat) (f : TrainFrame), (Instr.trainingFrame h l f).wellFormed = true → l < s.laneCount h → (frameIn f.bytes).isSome = true →
      s.isEth h = false → s.link h = 4 → exec (.trainingFrame h l f) s = .next (finish s (goDown h 0 (linkEvent h 0x06 0 [] s)))) ∧
  (∀ (s : State) (h at_ : Nat) (u : List Byte) (rest : List Nat), h < 16 → u.length = 64 → s.link h = 4 → s.isEth h = false →
      unitType u = 1 → 1 ≤ unitArg u → unitArg u ≤ 3 → (s.half h).seals = at_ :: rest →
      exec (.sealUnit h u) s = .next (finish s
        (let mine (x : RxPacket) : Bool := decide (x.sealAt = some at_) && x.control
         let q := ((s.half h).rxq.filter (fun x => !(mine x && x.pid.isSome))).map (fun x => if mine x then { x with bad := true } else x)
         (s.setHalf h { s.half h with seals := rest, rxq := q }).forAll ((s.half h).rxq.filter (fun x => mine x && !x.bad)) (fun x v =>
           match x.pid with
           | some pid => if v.link h ≠ 4 then v else tagVerdict h pid (decide (unitTag u (x.pos + unitArg u - at_) = x.want)) v
           | none => v))))

/-- RELINK_SIGNAL in RELINK: the first ready entry, from the one used last, whose settings find the marker is the one tried, with its cached taps on every lane and 63 frames to count; with none, full training starts and a relink miss is logged. A relink frame that names a ready entry is answered by one of this end, and once that of COUNT = 0 has gone on every lane takes the link to ALIGN under that entry. RELINK_TIMEOUT 10 ms after the loss, with no entry tried, takes the link to DOWN. -/
def Obligations.RelinkCompletes : Prop :=
  (∀ (s : State) (h : Nat) (found : List Nat), h < 16 → (∀ e ∈ found, e < 8) → s.link h = 5 →
      exec (.relinkSignal h found) s = .next (finish s
        (let u := abandonRelay h found s
         match ((List.range 8).map (fun i => (s.fld F.PH_LINK_RELINK_ENTRY (hp h) + i) % 8)).find?
             (fun e => relinkReady u h e && decide (e ∈ found)) with
         | some e => loadEq h e (u.setHalf h { u.half h with relinkTry := some e })
         | none => relinkMiss h u))) ∧
  (∀ (s : State) (h l e : Nat) (f : TrainFrame) (inv : Bool) (b : List Byte) (i : LinkInfo), (Instr.trainingFrame h l f).wellFormed = true →
      l < s.laneCount h → frameIn f.bytes = some (inv, b) → i = (frameSays b).info → s.link h = 5 → (s.half h).relinkTry ≠ none → i.relink = true →
      (List.range 8).find? (fun e => relinkReady s h e && relinkNames s h e i) = some e →
      exec (.trainingFrame h l f) s = .next (finish s
        (let u := sendFrame h l 0 (s.setLane h l { s.lane h l with info := some i, inverted := inv, wantPre := f.wantPre })
         let v := enterAlign h (showPartner h i (abandonRelay h [e] u))
         if countdownDone u h then v.setHalf h { v.half h with relinkTry := some e } else u))) ∧
  (∀ (s : State) (h : Nat), h < 16 → s.link h = 5 → (s.half h).relinkTry = none → (s.half h).since + 160000000 ≤ s.now →
      exec (.relinkTimeout h) s = .next (finish s (goDown h 0 s)))

/-- ETH_LINK_UP on an enabled Ethernet half-port that is neither UP nor SILENT enters UP, fills the control tokens, forms PTP's d_ref anew and starts a tunnel's handshake. ETH_LINK_DOWN takes it to DOWN. ETH_FRAME_RECEIVE of more than 9,216 bytes only counts; a good frame of a VLAN of which the half-port is a member is bridged. MAC_AGE_EXPIRE drops an entry not seen for MAC_AGE_S seconds. TUNNEL_DATAGRAM from the configured peer, on an Ethernet half-port in UP, with a key the receiver holds, the tag that its SEQ and bytes call for under that key and a SEQ neither stale nor accepted before: the SEQ is kept, the phase is taken, an outer CE turns TAILBACK from none to marked, and the packet meets the arrival checks with its tag known. -/
def Obligations.EthernetCompletes : Prop :=
  (∀ (s : State) (h : Nat), h < 16 → s.ethHalf h = true → s.link h ≠ 4 → s.link h ≠ 6 →
      exec (.ethLinkUp h) s = .next (finish s
        (let u := setLink h 4 s
         let v : State := { u with gran := { u.gran with tokens := tabSet none u.gran.tokens (hp h) (some (65536, u.now)) } }
         let w : State := { v with time := { v.time with ptp := tabSet {} v.time.ptp [h] { tabGet {} v.time.ptp [h] with dSamples := [], dRef := none } } }
         if (w.tunnelOf h).isSome then startHandshake h w else w))) ∧
  (∀ (s : State) (h : Nat), h < 16 → s.isEth h = true → s.link h = 4 →
      exec (.ethLinkDown h) s = .next (finish s (goDown h 0 s))) ∧
  (∀ (s : State) (h : Nat) (b : List Byte), h < 16 → s.isEth h = true → s.link h = 4 → 9216 < b.length →
      exec (.ethFrameReceive h b) s = .next (finish s
        { s with bridge := { s.bridge with tooLong := tabSet 0 s.bridge.tooLong [h] (tabGet 0 s.bridge.tooLong [h] + 1) } })) ∧
  (∀ (s : State) (h : Nat) (b : List Byte) (v : VlanRec), h < 16 → s.isEth h = true → s.link h = 4 → 64 ≤ b.length → b.length ≤ 9216 →
      b.drop (b.length - 4) = leBytes 4 (crc32 (b.take (b.length - 4))) → s.fld F.LK_ETH_CFG_BRIDGE_EN = 1 →
      notBridged s h (ethFrameOf (b.take (b.length - 4))) = false → isReservedGroup (ethFrameOf (b.take (b.length - 4))).dst = false →
      s.bridge.vlans.find? (fun x => x.vlan = frameVlan s h (ethFrameOf (b.take (b.length - 4)))) = some v → v.member.testBit h = true →
      exec (.ethFrameReceive h b) s = .next (finish s (bridgeFrame h v (ethFrameOf (b.take (b.length - 4))) s))) ∧
  (∀ (s : State) (vlan mac : Nat), vlan < 4096 → mac < 2 ^ 48 →
      ∃ t, exec (.macAgeExpire vlan mac) s = .next t ∧ ∀ e, e ∈ t.bridge.macs ↔ e ∈ s.bridge.macs ∧
        ¬ (e.vlan = vlan ∧ e.mac = mac ∧ e.seen + s.fld F.LK_ETH_CFG_MAC_AGE_S * 16000000000 ≤ s.now)) ∧
  (∀ (s : State) (h n : Nat) (g : Datagram), h < 16 → g.wellFormed = true → s.tunnelOf h = some n → s.link h = 4 →
    fromPeer s n g = true → linkLocal g.p.h.typ = false → s.kpHeld h g.p.h.kp = true → g.tag = hopTag s h g.seq g.p →
    g.p.h.kp = (s.half h).keys.rxKp → staleSeq s h g.seq = false →
    exec (.tunnelDatagram h g) s = .next (finish s
      (let u := keepSeqs h (seenSeqs s h ++ [g.seq]) (takePhase h g.p.h.kp s)
       let p := { g.p with h := { g.p.h with tailback := if g.ecn = 3 ∧ g.p.h.tailback = 0 then 1 else g.p.h.tailback } }
       tagVerdict h (arrive h p u).1 true (arrive h p u).2)))

/-! ## Routing, delivery and the switch core (chapters 4 and 5) -/

/-- PACKET_ARRIVAL on a link in UP, of the packet whose header is awaited: a packet that is routed and granted cells is stored, and the record of its reception notes its number and the tag that its position and bytes call for under the key its KP names; one refused with a NAK code is held until its tag passes. PACKET_ELIGIBLE of a packet made here makes it ready once its cells are written. Of a data packet whose last unit has come it gives the tag's verdict: another tag is a cipher failure and frees the packet, and by the tag awaited a refused packet is counted and answered with its NAK, and a stored one may become eligible. -/
def Obligations.PacketsAreStoredAndLinked : Prop :=
  (∀ (s u v : State) (h pid : Nat) (p q : Packet) (r : RouteTo) (x : RxPacket), h < 16 → p.wellFormed = true → HeaderComes s h p x u →
      arrivalDecision u h p = .route q r → storeAt q r (.half h) false (chosen (h / 2) q.h r u) = some (pid, v) →
      exec (.packetArrival h p) s = .next (finish s (noteHeader h x.pos pid (awaitedTag s u h x p) v))) ∧
  (∀ (s u : State) (h c : Nat) (p : Packet) (x : RxPacket), h < 16 → p.wellFormed = true → HeaderComes s h p x u → arrivalDecision u h p = .nak c →
      exec (.packetArrival h p) s = .next (finish s
        (noteHeader h x.pos (holdRefused h p c u).1 (awaitedTag s u h x p) (holdRefused h p c u).2))) ∧
  (∀ (s : State) (pid : Nat) (tag : List Byte) (k : Pkt), tag.length = 16 → s.rxOf pid = none → s.pkt pid = some k → k.stage = .filling →
      k.tagOk = true → k.cells.length ≤ k.written → k.rbSlot = none →
      exec (.packetEligible pid tag) s = .next (finish s (linkInput k.input (s.setPkt pid (some { k with stage := .ready }))))) ∧
  (∀ (s : State) (h pid : Nat) (tag : List Byte) (x : RxPacket) (k : Pkt), tag.length = 16 → s.rxOf pid = some (h, x) → x.control = false → x.left = 0 →
      x.bad = false → s.pkt pid = some k → tag ≠ x.want →
      exec (.packetEligible pid tag) s = .next (finish s (cipherFail h (discardPkt pid (2 + h % 2) (removeRx h x.pos s))))) ∧
  (∀ (s : State) (h pid c : Nat) (x : RxPacket) (k : Pkt), x.want.length = 16 → s.rxOf pid = some (h, x) → x.control = false → x.left = 0 →
      x.bad = false → s.pkt pid = some k → k.stage = .refused c → c ≠ 0 →
      exec (.packetEligible pid x.want) s = .next (finish s
        (sendNak (h / 2) k.p c 0 .mgmt (countNak k.die c ((removeRx h x.pos s).setPkt pid none))))) ∧
  (∀ (s : State) (h pid : Nat) (x : RxPacket) (k : Pkt), x.want.length = 16 → s.rxOf pid = some (h, x) → x.control = false → x.left = 0 →
      x.bad = false → s.pkt pid = some k → k.stage = .filling →
      exec (.packetEligible pid x.want) s = .next (finish s (eligible pid ((removeRx h x.pos s).setPkt pid (some { k with tagOk := true })))))

/-- PACKET_ARRIVAL of a well-formed packet, whose header is awaited, of a Field that the arriving half-port's map grants. While time is invalid it counts in NI_DROP_A.NO_TIME; where it is more than 4 ns ahead of no one and older than the age limit, in NI_DROP_A.AGED; where it is translated already, its version is held, it is for another device and HOP_LIMIT is 0, in LK_DROPh.HOP_LIMIT. The checks change no cell and no byte of memory. -/
def Obligations.DiscardsOnArrivalStoreNothing : Prop :=
  ∀ (s u : State) (h : Nat) (p : Packet) (x : RxPacket), h < 16 → p.wellFormed = true → HeaderComes s h p x u → formatOk p = true →
    linkLocal p.h.typ = false → fieldless p.h.typ = false → u.map1 h p.h.field = true →
    (let drops (f : Fld) (k : List Nat) : Prop := ∃ t, exec (.packetArrival h p) s = .next t ∧
        t.fld f k = min (u.fld f k + 1) (2 ^ f.width - 1) ∧ t.gran.cells = u.gran.cells ∧ ∀ a, tabGet 0 t.mem a = tabGet 0 u.mem a
     (u.timeValid = false → drops F.NI_DROP_A_NO_TIME [h / 2]) ∧
     (u.timeValid = true → u.ahead p.h = false → u.aged p.h = true → drops F.NI_DROP_A_AGED [h / 2]) ∧
     (u.timeValid = true → u.ahead p.h = false → u.aged p.h = false → p.h.tr = 1 → u.verUsable p.h.tv = true →
       p.h.dstDevice ≠ u.device → p.h.hop = 0 → drops F.LK_DROP_HOP_LIMIT (hp h)))

/-- OUTPUT_START: the packet next in turn is freed and counted as aged or fenced, is taken by the tile NI or engine slice of outputs 2 to 4, or starts on the link of outputs 0 and 1, where a control packet spends a token. PACKET_DEPARTED frees the cells of a packet that has left. TILE_ALLOC_TIMEOUT after 2 µs ends a tile's request that holds a tag as by a BUSY NAK, and drops a response. -/
def Obligations.OutputsCompletes : Prop :=
  (∀ (s : State) (d o pid : Nat) (k : Pkt), d < 8 → 2 ≤ o → o < 5 → nextPacket s d o = some pid → s.pkt pid = some k →
      mgrType k.p.h.typ = false → k.frame = [] → s.aged k.p.h = true →
      exec (.outputStart d o) s = .next (finish s ((freePkt pid 8 s).bump F.NI_DROP_A_AGED [k.die]))) ∧
  (∀ (s : State) (d o pid : Nat) (k : Pkt), d < 8 → 2 ≤ o → o < 5 → nextPacket s d o = some pid → s.pkt pid = some k →
      s.aged k.p.h = false → fencedHere s k = true →
      exec (.outputStart d o) s = .next (finish s ((freePkt pid 8 s).bump F.GK_DROP_FENCED [k.die]))) ∧
  (∀ (s : State) (d o pid : Nat) (k : Pkt), d < 8 → 2 ≤ o → o < 5 → nextPacket s d o = some pid → s.pkt pid = some k →
      s.aged k.p.h = false → fencedHere s k = false → k.out = o →
      exec (.outputStart d o) s = .next (finish s ((s.setPkt pid (some { k with stage := .taken })).setQueue k.die k.out k.q
        ((s.queue k.die k.out k.q).filter (· ≠ pid))))) ∧
  (∀ (s : State) (d o pid : Nat) (k : Pkt), d < 8 → o < 2 → s.link (d * 2 + o) = 4 → (s.half (d * 2 + o)).sending = none →
      nextPacket s d o = some pid → s.pkt pid = some k → s.aged k.p.h = false → fencedHere s k = false → k.die = d → k.out = o →
      exec (.outputStart d o) s = .next (finish s
        (let u := (s.setPkt pid (some { k with stage := .taken })).setQueue d o k.q ((s.queue d o k.q).filter (· ≠ pid))
         let v := if k.q = 1 then spendToken d o u else u
         putOut (d * 2 + o) k (v.setHalf (d * 2 + o) { v.half (d * 2 + o) with sending := some pid })))) ∧
  (∀ (s : State) (pid : Nat) (k : Pkt), s.pkt pid = some k → k.stage = .done → 2 ≤ k.out →
      exec (.packetDeparted pid) s = .next (finish s (freePkt pid (k.out + 2) s))) ∧
  (∀ (s : State) (pid : Nat) (k : Pkt), s.pkt pid = some k → k.stage = .taken → k.out ≤ 1 → (s.half (k.die * 2 + k.out)).sending = some pid →
      exec (.packetDeparted pid) s = .next (finish s (freePkt pid k.out
        (s.setHalf (k.die * 2 + k.out) { s.half (k.die * 2 + k.out) with sending := none })))) ∧
  (∀ (s : State) (id d t i : Nat) (w : Wait), s.gran.waits.find? (fun w => w.id = id) = some w → w.since + 32000 ≤ s.now →
      w.kind = .request d t i → i < 4096 → exec (.tileAllocTimeout id) s = .next (finish s (nakAction d t i 3 0
        { s with gran := { s.gran with waits := s.gran.waits.filter (fun x => x.id ≠ id) } }))) ∧
  (∀ (s : State) (id : Nat) (w : Wait), s.gran.waits.find? (fun w => w.id = id) = some w → w.since + 32000 ≤ s.now →
      w.kind = .response → exec (.tileAllocTimeout id) s = .next (finish s (State.bump
        { s with gran := { s.gran with waits := s.gran.waits.filter (fun x => x.id ≠ id) } } F.GK_DROP_CONTROL [w.pk.die])))

/-- Where the shared pool of a slice is not overdrawn and the managed region has at most 24,576 cells, a request granted to an owner from 1 to 255 charges it exactly the cells asked for, charges no other owner, and leaves the pool not overdrawn. -/
def Obligations.GrantsKeepTheReserves : Prop :=
  ∀ (s t : State) (d o n out q : Nat) (cs : List Nat), 1 ≤ o → o ≤ 255 → s.managed d ≤ 24576 → s.held d o + n < 65536 →
    0 ≤ s.sharedFree d → allocate d o n out q s = some (cs, t) →
    cs.length = n ∧ t.held d o = s.held d o + n ∧ (∀ o', o' ≠ o → t.held d o' = s.held d o') ∧
      t.heldAll d = s.heldAll d + n ∧ 0 ≤ t.sharedFree d

/-- From slots used within the capacities of *Switch core capacities*, any round of the matcher leaves them within those capacities. -/
def Obligations.MatcherKeepsTheCapacities : Prop :=
  ∀ (s : State) (u : FrameUse) (n : Nat),
    (∀ q, tabGet 0 u.writes [q] ≤ 12 ∧ ∀ d, d ≠ q → tabGet 0 u.cross [d, q] ≤ 2) →
    ∀ q, tabGet 0 (matcherRound n (u, s)).1.writes [q] ≤ 12 ∧ ∀ d, d ≠ q → tabGet 0 (matcherRound n (u, s)).1.cross [d, q] ≤ 2

/-- MATCHER_FRAME has whoever was refused cells ask again, runs a frame of every slice's matcher and lets waiting tile NIs send. TALLY_SCAN reports the side records found in error and then scans every owner. The scan of an owner whose recount agrees sets OLDEST_AGE_US to the greatest age of its held cells, and raises a leak when it finds that age above a TALLY_AGE_US that is not zero and the scan before did not. -/
def Obligations.ScansComplete : Prop :=
  (∀ s : State, exec .matcherFrame s = .next (finish s (pumpAll (matcherFrame (retryWaits s))))) ∧
  (∀ (s : State) (d : Nat) (l : List (Nat × Bool)), d < 8 → (∀ e ∈ l, e.1 < 24576) →
      exec (.tallyScan d l) s = .next (finish s ((s.forAll l (sideError d)).forAll (List.range 256) (scanOwner d)))) ∧
  (∀ (s : State) (d o : Nat), (heldCells s d o).length = s.held d o →
      (s.fld F.GK_OWNER_TALLY_AGE_US [d, o] = 0 ∨ ∀ c ∈ heldCells s d o, cellAgeUs s c.2 ≤ s.fld F.GK_OWNER_TALLY_AGE_US [d, o]) →
      ∃ a, scanOwner d o s = { s.setFld F.GK_TALLY_OLDEST_AGE_US a [d, o] with gran := { s.gran with leaking := tabSet 0 s.gran.leaking [d, o] 0 } } ∧ (∀ c ∈ heldCells s d o, cellAgeUs s c.2 ≤ a) ∧
        (heldCells s d o ≠ [] → ∃ c ∈ heldCells s d o, a = cellAgeUs s c.2)) ∧
  (∀ (s : State) (d o c : Nat) (r : CellRec), heldCells s d o = [(c, r)] → s.held d o = 1 →
      s.fld F.GK_OWNER_TALLY_AGE_US [d, o] ≠ 0 → s.fld F.GK_OWNER_TALLY_AGE_US [d, o] < cellAgeUs s r →
      tabGet 0 s.gran.leaking [d, o] = 0 →
      scanOwner d o s = raiseLeak d o c
        { s.setFld F.GK_TALLY_OLDEST_AGE_US (cellAgeUs s r) [d, o] with gran := { s.gran with leaking := tabSet 0 s.gran.leaking [d, o] 1 } })

/-- TILE_DELIVERY of a packet whose CHECK passes, at a tile of its Field. A data packet (of MX elements: whole segments) or a PUT_SHORT with the tile's role epoch, within a window that permits writes and a reference that is none or current, and not aged, has its bytes committed at BASE_BLK × 64 + OFFSET, then its reference credited, then its ACK sent. A GET_REQ has the bytes of its window sent back. A request with another role epoch is answered ROLE_CHANGED with the tile's own, one that its window refuses MALFORMED, and every byte of memory reads as before. -/
def Obligations.TileDeliveryCompletes : Prop :=
  (∀ (s : State) (pid a n : Nat) (k : Pkt), Handed s pid k 2 → k.p.h.typ ∈ [0x80, 0x83, 0x85] →
      s.ownsTile2 k.die k.dstTile k.p.h.field = true → k.p.h.roleEpoch = s.roleEpoch k.die k.dstTile → k.p.offset % 64 = 0 → mxWhole k.p = true →
      windowAt s k.die k.dstTile k.p.window k.p.offset k.p.data.length true = some a →
      refSlot s k.die k.dstTile k.p.waybillRef = some n → s.aged k.p.h = false →
      exec (.tileDelivery pid) s = .next (finish s (sendAck k.die k.dstTile k.p (.tile k.die k.dstTile)
        (creditRef k.die k.dstTile n false (commit k.die k.dstTile a k.p.data (taking s pid k)))))) ∧
  (∀ (s : State) (pid a n : Nat) (k : Pkt), Handed s pid k 2 → k.p.h.typ = 0x02 →
      s.ownsTile2 k.die k.dstTile k.p.h.field = true → k.p.h.roleEpoch = s.roleEpoch k.die k.dstTile →
      k.p.pay 1 5 / 64 = (k.p.pay 1 5 + k.p.pay 6 1 - 1) / 64 →
      windowAt s k.die k.dstTile (k.p.pay 0 1) (k.p.pay 1 5) ((k.p.body.drop 16).take (k.p.pay 6 1)).length true = some a →
      refSlot s k.die k.dstTile (k.p.pay 8 4) = some n → s.aged k.p.h = false →
      exec (.tileDelivery pid) s = .next (finish s (sendAck k.die k.dstTile k.p (.tile k.die k.dstTile)
        (creditRef k.die k.dstTile n false (commit k.die k.dstTile a ((k.p.body.drop 16).take (k.p.pay 6 1)) (taking s pid k)))))) ∧
  (∀ (s : State) (pid a : Nat) (k : Pkt), Handed s pid k 2 → k.p.h.typ = 0x01 →
      s.ownsTile2 k.die k.dstTile k.p.h.field = true → k.p.h.roleEpoch = s.roleEpoch k.die k.dstTile →
      k.p.pay 1 5 % 64 = 0 → k.p.pay 9 5 % 64 = 0 →
      windowAt s k.die k.dstTile (k.p.pay 0 1) (k.p.pay 1 5) (k.p.pay 6 2 * 64) false = some a → s.aged k.p.h = false →
      exec (.tileDelivery pid) s = .next (finish s (answer k.die k.dstTile k.p 0x81 1 (k.p.pay 6 2)
        (dataBody (k.p.pay 8 1) (k.p.pay 9 5) (k.p.pay 14 4) 0 0 0 0 0 0) (s.readMem k.die k.dstTile a (k.p.pay 6 2 * 64))
        (.tile k.die k.dstTile) (taking s pid k)))) ∧
  (∀ (s : State) (pid : Nat) (k : Pkt), Handed s pid k 2 → k.p.h.typ ∈ [0x01, 0x02, 0x80, 0x83, 0x85] →
      s.ownsTile2 k.die k.dstTile k.p.h.field = true → k.p.h.roleEpoch ≠ s.roleEpoch k.die k.dstTile →
      exec (.tileDelivery pid) s = .next (finish s (refuse k.die k.dstTile k.p 2 (s.roleEpoch k.die k.dstTile)
        (.tile k.die k.dstTile) (taking s pid k)))) ∧
  (∀ (s : State) (pid : Nat) (k : Pkt), Handed s pid k 2 → k.p.h.typ ∈ [0x80, 0x83, 0x85] →
      s.ownsTile2 k.die k.dstTile k.p.h.field = true → k.p.h.roleEpoch = s.roleEpoch k.die k.dstTile →
      (k.p.offset % 64 ≠ 0 ∨ mxWhole k.p = false ∨ windowAt s k.die k.dstTile k.p.window k.p.offset k.p.data.length true = none) →
      ∃ t, exec (.tileDelivery pid) s = .next t ∧
        t = finish s (refuse k.die k.dstTile k.p 4 0 (.tile k.die k.dstTile) (countRef k.die k.dstTile k.p.waybillRef (taking s pid k))) ∧
        ∀ a, tabGet 0 t.mem a = tabGet 0 s.mem a)

/-- RESPONSE_RECEIVE: an ACK whose epoch is that of an OPEN tag whose request it answers completes the tag; a GET_RESP is written and credited first; one of a stale epoch is only counted. NAK_RECEIVE acts under *NAK actions*. BUSY_BACKOFF_EXPIRE resends. E2E_TIMEOUT resends a resendable request while resends are left and gives up otherwise. TAG_QUARANTINE_END frees the tag in its next epoch after twice the largest age limit. An echo that the response carries acts first, and a marked response owes one whatever becomes of it. ECHO_SEND: the echo owed to a pair leaves in an ECHO packet. ECHO_RECEIVE: the flow's rate falls to three quarters, not under 1/256 of the full rate, at most once in 4 µs. RATE_RECOVER at each whole 8,000 ns of the flow: with no echo in those 8,000 ns the rate rises by 25 GB/s, and at the full rate the limit ends. -/
def Obligations.TagsAndEchoesComplete : Prop :=
  (∀ (s : State) (pid : Nat) (k : Pkt) (q : Packet), Handed s pid k 2 → k.p.h.typ = 0x03 → k.p.h.tailback ≠ 2 →
      s.ownsTile2 k.die k.dstTile k.p.h.field = true → s.aged k.p.h = false →
      (s.tagOf k.die k.dstTile k.p.h.tagIndex).epoch = k.p.h.tagEpoch → (s.tagOf k.die k.dstTile k.p.h.tagIndex).st = .opened →
      (s.tagOf k.die k.dstTile k.p.h.tagIndex).req = some q → q.h.typ ≠ 0x01 → q.h.typ ≠ 0x86 →
      exec (.responseReceive pid) s = .next (finish s (completeTag k.die k.dstTile k.p.h.tagIndex 0 0 (noteMark k.die k.dstTile k.p (taking s pid k))))) ∧
  (∀ (s : State) (pid a n : Nat) (k : Pkt) (q : Packet), Handed s pid k 2 → k.p.h.typ = 0x81 → k.p.h.tailback = 0 →
      s.ownsTile2 k.die k.dstTile k.p.h.field = true → s.aged k.p.h = false →
      (s.tagOf k.die k.dstTile k.p.h.tagIndex).epoch = k.p.h.tagEpoch → (s.tagOf k.die k.dstTile k.p.h.tagIndex).st = .opened →
      (s.tagOf k.die k.dstTile k.p.h.tagIndex).req = some q → q.h.typ = 0x01 → k.p.offset % 64 = 0 → mxWhole k.p = true →
      windowAt s k.die k.dstTile k.p.window k.p.offset k.p.data.length true = some a →
      refSlot s k.die k.dstTile k.p.waybillRef = some n →
      exec (.responseReceive pid) s = .next (finish s (completeTag k.die k.dstTile k.p.h.tagIndex 0 0
        (creditRef k.die k.dstTile n false (commit k.die k.dstTile a k.p.data (taking s pid k)))))) ∧
  (∀ (s : State) (pid : Nat) (k : Pkt), Handed s pid k 2 → k.p.h.typ ∈ [0x03, 0x81, 0x87] → k.p.h.tailback ≠ 2 →
      s.ownsTile2 k.die k.dstTile k.p.h.field = true → s.aged k.p.h = false →
      (s.tagOf k.die k.dstTile k.p.h.tagIndex).epoch ≠ k.p.h.tagEpoch →
      exec (.responseReceive pid) s = .next (finish s ((noteMark k.die k.dstTile k.p (taking s pid k)).bump F.NI_TAG_STAT_STALE [k.die, k.dstTile]))) ∧
  (∀ (s : State) (pid : Nat) (k : Pkt), Handed s pid k 2 → k.p.h.typ = 0x04 → k.p.h.tailback ≠ 2 →
      s.ownsTile2 k.die k.dstTile k.p.h.field = true → s.aged k.p.h = false →
      (s.tagOf k.die k.dstTile k.p.h.tagIndex).epoch = k.p.h.tagEpoch → (s.tagOf k.die k.dstTile k.p.h.tagIndex).st = .opened →
      exec (.nakReceive pid) s = .next (finish s
        (nakAction k.die k.dstTile k.p.h.tagIndex (k.p.pay 0 1) (k.p.pay 3 1) (taking s pid k)))) ∧
  (∀ (s : State) (d t i m : Nat), d < 8 → t < 2048 → i < 4096 → (s.tagOf d t i).backoffAt = some m → m ≤ s.now →
      (s.tagOf d t i).st = .opened → exec (.busyBackoffExpire d t i) s = .next (finish s (resend d t i s))) ∧
  (∀ (s : State) (d t i : Nat), d < 8 → t < 2048 → i < 4096 → (s.tagOf d t i).st = .opened → unsent s d t i = false →
      (s.tagOf d t i).timerAt + 16000 * s.fld F.NI_E2E_TIMEOUT_US ≤ s.now →
      exec (.e2eTimeout d t i) s = .next (finish s
        (if (s.tagOf d t i).resend = true ∧ (s.tagOf d t i).resends < s.fld F.NI_E2E_MAX_RESENDS then resend d t i s
         else completeTag d t i 0x08 0 (s.bump F.NI_TAG_STAT_GIVEUPS [d, t])))) ∧
  (∀ (s : State) (d t i : Nat), d < 8 → t < 2048 → i < 4096 → s.tileExists d t = true → (s.tagOf d t i).st = .quarantine →
      (s.tagOf d t i).since + 2 * (16000 * s.maxAgeSince (s.tagOf d t i).since) ≤ s.now →
      exec (.tagQuarantineEnd d t i) s = .next (finish s
        (pump d t (s.setTag d t i { st := .free, epoch := ((s.tagOf d t i).epoch + 1) % 16, since := s.now })))) ∧
  (∀ (s : State) (d u f r m : Nat) (h : Hdr), d < 8 → u ≤ 2048 → f < 4096 → r < 2 ^ 20 → tabGet none s.ni.echoOwed [d, u, f, r] = some (h, m) →
      exec (.echoSend d u f r) s = .next (finish s (sendResponse d
        { h := { respHdr s h 0x05 0 0 with tailback := 2 }, body := List.replicate 32 0 } (if u < 2048 then .tile d u else .engine d)
        (echoGone d u h s)))) ∧
  (∀ (s : State) (pid : Nat) (k : Pkt) (f : Flow), Handed s pid k 2 → k.p.h.typ = 0x05 → k.p.h.tailback = 2 →
      s.ownsTile2 k.die k.dstTile k.p.h.field = true →
      tabGet none s.ni.flows [k.die, k.dstTile, k.p.h.field, k.p.h.srcRank] = some f → f.lastCut + 4000 ≤ ((s.now / 16 : Nat) : Int) →
      exec (.echoReceive pid) s = .next (finish s
        (let u := taking s pid k
         { u with ni := { u.ni with flows := tabSet none u.ni.flows [k.die, k.dstTile, k.p.h.field, k.p.h.srcRank] (some
           { f with rate := max (f.rate * 3 / 4) 3125, lastCut := ((s.now / 16 : Nat) : Int), lastEcho := s.now / 16, tokens := flowTokens s f, filledAt := s.now }) } }))) ∧
  (∀ (s : State) (d t fd r : Nat) (f : Flow), d < 8 → t ≤ 2048 → fd < 4096 → r < 2 ^ 20 → tabGet none s.ni.flows [d, t, fd, r] = some f →
      f.created + 8000 * (f.steps + 1) ≤ s.now / 16 → f.lastEcho + 8000 ≤ f.created + 8000 * (f.steps + 1) →
      exec (.rateRecover d t fd r) s = .next (finish s
        (let g : Flow := { f with steps := f.steps + 1, tokens := flowTokens s f, filledAt := s.now, rate := f.rate + 25000 }
         pump d t { s with ni := { s.ni with flows := tabSet none s.ni.flows [d, t, fd, r] (if 800000 ≤ g.rate then none else some g) } })))

/-- GATE_RELEASE of a switch or age gate acts as SIGNPOST_SWITCH or AGE_LIMIT_CHANGE, and of a Waybill's start gate on a die whose gate may release at GATE lets it start. SIGNPOST_SWITCH at M makes the SEALED version CURRENT and the other HELD, with SG_HOLD_END one age limit after M. HELD_VERSION_EXPIRE at SG_HOLD_END empties the held version. AGE_LIMIT_CHANGE at its count puts NEXT_US in force. HEDGE_COPY_COMPARE reports a Hedge fault on the Field of every map bit in which the copies differ, and on each Field that either copy names as the owner of a row in which they differ; with no difference it changes nothing. DRAIN_END of a closed domain, one age limit on or with none left, discards and counts as aged every packet still past the gate, and lets what waits for the drain begin. -/
def Obligations.SwitchOversComplete : Prop :=
  (∀ s : State, exec (.gateRelease .sgSwitch) s = exec .signpostSwitch s ∧ exec (.gateRelease .niAge) s = exec .ageLimitChange s) ∧
  (∀ (s : State) (d t n m : Nat), (GateId.wbStart d t n).wellFormed = true → s.gateAt (.wbStart d t n) = some m → s.gateOpen d m = true →
      exec (.gateRelease (.wbStart d t n)) s = .next (finish s (startGate d t n s))) ∧
  (∀ s : State, s.launchDue .sgSwitch = true → s.verState s.otherVer = 2 →
      exec .signpostSwitch s = .next (finish s
        (let u := (((s.dropGate .sgSwitch).setFld F.SG_CTRL_PENDING 0).setVerState (1 - s.otherVer) 4).setVerState s.otherVer 3
         let v := u.setFld F.SG_CTRL_CURRENT s.otherVer
         let w := { v with ni := { v.ni with switchedAt := v.fld F.SG_SWITCH_AT_COUNT } }
         w.setFld F.SG_HOLD_END_COUNT (w.fld F.SG_SWITCH_AT_COUNT + 16000 * w.maxAgeSince (w.fld F.SG_SWITCH_AT_COUNT))))) ∧
  (∀ s : State, s.verState s.otherVer = 4 → s.fld F.SG_HOLD_END_COUNT ≤ s.now →
      exec .heldVersionExpire s = .next (finish s (((clearVer s.otherVer s).setVerState s.otherVer 0).setFld F.SG_HOLD_END_COUNT 0))) ∧
  (∀ s : State, s.launchDue .niAge = true →
      exec .ageLimitChange s = .next (finish s
        (setAgeLimit (s.fld F.NI_AGE_NEXT_US) s.now ((s.dropGate .niAge).setFld F.NI_AGE_PENDING 0)))) ∧
  (∀ s : State, exec .hedgeCopyCompare s = .next (finish s
      (let u := s.forAll (List.range 16) (fun h v => v.forAll (mapDiffs v h) (fun f w => copyFault (h / 2) 0x04 f h none w))
       u.forAll (rowDiffs u) (fun x v => v.forAll ([v.rowOwner1 x.1 x.2, v.rowOwner2 x.1 x.2].filterMap id) (fun n w =>
         copyFault x.1 0x05 (w.fld F.DV_FIELD_SLOT_FIELD_ID [n]) (x.2 * 64) (some x.2) w))))) ∧
  (∀ s : State, (∀ h, h < 16 → mapDiffs s h = []) → rowDiffs s = [] → exec .hedgeCopyCompare s = .next (finish s s)) ∧
  (∀ (s : State) (x : Domain) (m : Nat), x.wellFormed = true → s.ni.closed.find? (fun e => e.1 = x) = some (x, m) →
      x ∉ s.ni.drained → (pastGate s x = [] ∨ m ≤ s.now) →
      exec (.drainEnd x) s = .next (finish s
        (let u := s.forAll (pastGate s x) (fun e v => (failPkt e.1 8 v).bump F.NI_DROP_A_AGED [e.2.die])
         afterDrain x { u with ni := { u.ni with drained := u.ni.drained ++ [x] } })))

/-! ## The Road Book (chapter 6) -/

/-- SCHED_DEPARTURE of packet POS of a slot at x sixteenths of a nanosecond after the departure window of its step opened, while time is valid and not before its due instant: one that finishes in its window, eligible, the first of its step's train still here, on a die at its floor and with its output idle starts, and counts in LATE_SENT where it leaves more than a tick after due; one that cannot finish is discarded and counted, towards the report of its step. SLOT_SHORTFALL_CHECK at A + LEN + G reports a slot with EXPECT once, with the packets missing. DEPARTURE_WINDOW_END at D + LEN, once a step, discards what that step or an earlier one has left, reports all late discards of the step in one late-slot fault, and reports any cell of the slot's range that is still held but for those of a later step. -/
def Obligations.ScheduledDeparturesComplete : Prop :=
  (∀ (s : State) (i pos x pid : Nat) (r : RbRecord) (k : Pkt), i < 16384 → s.fld F.SM_STATUS_STATE ≠ 2 → s.record i = some r →
      (slotPackets s i).find? (fun e => trainPos r e.2 = pos) = some (pid, k) → s.timeValid = true →
      s.fld F.RB_EPOCH_COUNT + k.rbStep * s.periodUnits + 16 * r.dep + x = s.now →
      16 * trainStart r pos * unitTime s r.outKind r.outUnit ≤ 100 * x →
      100 * x + 16 * r.units * unitTime s r.outKind r.outUnit ≤ 1600 * r.len →
      k.stage = .queued → s.atFloor r.outDie = true → outputIdle s r = true →
      (slotPackets s i).any (fun e => e.2.rbStep = k.rbStep && decide (trainPos r e.2 < pos)) = false →
      exec (.schedDeparture i pos) s = .next (finish s
        (let u := startPacket pid k s
         if 16 * trainStart r pos * unitTime s r.outKind r.outUnit + 100 < 100 * x ∧ (u.pkt pid).isSome = true
         then u.bump F.RB_LATE_LATE_SENT [r.outDie] else u))) ∧
  (∀ (s : State) (i pos x pid : Nat) (r : RbRecord) (k : Pkt), i < 16384 → s.fld F.SM_STATUS_STATE ≠ 2 → s.record i = some r →
      (slotPackets s i).find? (fun e => trainPos r e.2 = pos) = some (pid, k) → s.timeValid = true →
      s.fld F.RB_EPOCH_COUNT + k.rbStep * s.periodUnits + 16 * r.dep + x = s.now →
      16 * trainStart r pos * unitTime s r.outKind r.outUnit ≤ 100 * x →
      1600 * r.len < 100 * x + 16 * r.units * unitTime s r.outKind r.outUnit →
      exec (.schedDeparture i pos) s = .next (finish s
        (let u := freePkt pid 7 (s.bump F.RB_LATE_LATE_DISCARD [r.outDie])
         u.setRun r.index { u.runOf r.index k.rbStep with late := (u.runOf r.index k.rbStep).late + 1 }))) ∧
  (∀ (s : State) (i n x : Nat) (r : RbRecord), i < 16384 → s.record i = some r →
      s.stepOf s.now (16 * (r.arr + r.len + s.guardNs) : Nat) = some (n, x) → s.recLive r = true → (s.runOf i n).shortDone = false →
      exec (.slotShortfallCheck i) s = .next (finish s
        (let u := s.setRun i { s.runOf i n with shortDone := true }
         if r.expect = true ∧ (s.runOf i n).eligible < r.pkts
         then lateSlotFault r.inDie i (r.pkts - (s.runOf i n).eligible) r.field 0x01 (u.bump F.RB_LATE_SHORTFALL [r.inDie]) else u))) ∧
  (∀ (s : State) (i n x : Nat) (r : RbRecord), i < 16384 → s.record i = some r →
      s.stepOf s.now (16 * (r.dep + r.len) : Nat) = some (n, x) → (s.runOf i n).windowDone = false →
      exec (.departureWindowEnd i) s = .next (finish s
        (let u := s.forAll ((slotPackets s i).filter (fun e => decide (e.2.rbStep ≤ n))) (fun e v => lateDiscard r n e.1 v)
         let v := u.setRun i { u.runOf i n with windowDone := true }
         let w := if 0 < (u.runOf i n).late then lateSlotFault r.outDie i (u.runOf i n).late r.field 0x02 v else v
         w.forAll (((List.range r.cells).map (· + r.base)).filter (· ∉ (slotPackets w i).flatMap (fun e => e.2.cells))) (windowLeak r.outDie))))

/-- When no seal check fails: every record's windows lie within the period on the 16 ns grid, its departure comes after arrival by the lag the planning pace needs, and its cells lie in the scheduled region of its OUT die; of two records, the one listed first has the smaller index, and they have no shared instant of arrival on one input or of departure on one output, and no shared cell of one slice while both may hold it. -/
def Obligations.SealChecksKeepSlotsApart : Prop :=
  ∀ (s : State) (l : List Byte), sealCheckBank s l = none →
    (∀ r ∈ (bankOf l).recs, r.arr % 16 = 0 ∧ r.dep % 16 = 0 ∧ r.arr + r.len ≤ (headerOf l).period ∧ r.dep + r.len ≤ (headerOf l).period ∧
      lagHolds s (headerOf l).guardNs (headerOf l).floor.tproc r = true ∧
      24576 - (headerOf l).sched.getD r.outDie 0 ≤ r.base ∧ r.base + r.pkts * r.perPkt ≤ 24576) ∧
    (bankOf l).recs.Pairwise (fun r q => r.index < q.index ∧
      (r.inKind = q.inKind → r.inUnit = q.inUnit → r.arr + r.len ≤ q.arr ∨ q.arr + q.len ≤ r.arr) ∧
      (r.outKind = q.outKind → r.outUnit = q.outUnit → r.dep + r.len ≤ q.dep ∨ q.dep + q.len ≤ r.dep) ∧
      (r.outDie = q.outDie → r.base + r.cells ≤ q.base ∨ q.base + q.cells ≤ r.base ∨
        r.dep + r.len ≤ q.arr ∨ q.dep + q.len ≤ r.arr))

/-- BANK_SEAL_DONE of a SEALING bank: SEALED with its cells asked of every Keeper, or EMPTY with RB_LOAD_ERR naming the first check that fails and its records. BANK_SWAP at the armed count, time valid: with no die's CEDE_PENDING the sealed bank becomes ACTIVE with its epoch at the count, and otherwise nothing swaps, SWAP_FAILED is set and the failure logged. -/
def Obligations.BanksComplete : Prop :=
  (∀ (s : State) (b : Nat), b < 2 → s.bankState b = 2 → sealCheckBank s (s.bankBytes b) = none →
      exec (.bankSealDone b) s = .next (finish s (setPendingSched (s.setBankState b 3)))) ∧
  (∀ (s : State) (b c i j : Nat), b < 2 → s.bankState b = 2 → sealCheckBank s (s.bankBytes b) = some (c, i, j) →
      exec (.bankSealDone b) s = .next (finish s
        (((((s.setBankState b 0).setBankBytes b []).setFld F.RB_LOAD_ERR_CODE c).setFld F.RB_LOAD_ERR_BANK b).setFld
          F.RB_LOAD_ERR_SLOT_INDEX i |>.setFld F.RB_LOAD_ERR_OTHER_INDEX j))) ∧
  (∀ (s : State) (m : Nat), s.gateAt .rbSwap = some m → m ≤ s.now → s.timeValid = true →
      (∀ d, d < 8 → s.fld F.GK_REGIONS_CEDE_PENDING [d] ≠ 1) →
      exec .bankSwap s = .next (finish s (activateBank m ((s.dropGate .rbSwap).setFld F.RB_BANKS_PENDING 0)))) ∧
  (∀ (s : State) (m d : Nat), s.gateAt .rbSwap = some m → m ≤ s.now → s.timeValid = true → d < 8 →
      s.fld F.GK_REGIONS_CEDE_PENDING [d] = 1 →
      exec .bankSwap s = .next (finish s
        (let u := (s.dropGate .rbSwap).setFld F.RB_BANKS_PENDING 0
         (u.setFld F.RB_BANKS_SWAP_FAILED 1).log 0x05 0x03 8 (roadDetail (u.setFld F.RB_BANKS_SWAP_FAILED 1) 0 0 0))))

/-- After activation at M: EPOCH is M, PERIOD_NS the header's, ANY_ACTIVE 1 with the bank's STATE 4, on every die SCHED_CELLS is the header's and MANAGED_CELLS the other cells, PENDING_SCHED is what the other bank asks where it is SEALED and else 0, and no record is dead through an eviction. -/
def Obligations.ActivationSetsTheRegions : Prop :=
  ∀ (s : State) (m d : Nat), d < 8 → m < 2 ^ 64 → (headerOf (s.bankBytes s.swapBank)).period ≤ 10000000 →
    (∀ n ∈ (headerOf (s.bankBytes s.swapBank)).sched, n ≤ 22528) →
    let h := headerOf (s.bankBytes s.swapBank)
    let t := activateBank m s
    t.fld F.RB_EPOCH_COUNT = m ∧ t.fld F.RB_PERIOD_PERIOD_NS = h.period ∧ t.fld F.RB_BANKS_ANY_ACTIVE = 1 ∧
      t.bankState s.swapBank = 4 ∧ t.fld F.RB_BANKS_ACTIVE_BANK = s.swapBank ∧
      t.fld F.GK_REGIONS_SCHED_CELLS [d] = h.sched.getD d 0 ∧
      t.fld F.GK_REGIONS_MANAGED_CELLS [d] = 24576 - h.sched.getD d 0 ∧
      t.fld F.GK_REGIONS_PENDING_SCHED [d] =
        (if t.bankState (1 - s.swapBank) = 3 then (headerOf (t.bankBytes (1 - s.swapBank))).sched.getD d 0 else 0) ∧
      t.road.evicted = []

/-- FLOOR_ALARM with a lead of at least 2 ms and the period, and FLOOR_BREACH that leaves the floor with no alarm standing, on a die with SCHED_LIVE: FLOOR_ALARM is set with its lead, logged (a forecast while the package is over its power cap as such), and a suspension set for the first step boundary at least 1 µs later. SUSPEND once that has come, with no swap armed: the Fields with live records on the die are suspended. RESUME at its count with no swap armed: each suspended Field of the mask resumes where the conditions hold, and is otherwise only logged. -/
def Obligations.FloorAlarmsSuspend : Prop :=
  (∀ (s : State) (d lead : Nat), d < 8 → s.schedLive d = true → 2000000 ≤ 1000 * lead → s.fld F.RB_PERIOD_PERIOD_NS ≤ 1000 * lead →
      exec (.floorAlarm d lead) s = .next (finish s
        (let u := (s.setFld F.RB_ALARM_FLOOR_ALARM 1 [d]).setFld F.RB_ALARM_LEAD_US (min lead 65535) [d]
         raiseAlarm d 1 (u.log 0x0A (if s.overCap then 0x05 else 0x01) d (powerDetail u d lead))))) ∧
  (∀ (s : State) (d v tj : Nat), d < 8 → v < 65536 → tj < 4096 →
      let u := (s.setFld F.PW_DIE_STATE_VCORE_MV v [d]).setFld F.PW_DIE_STATE_TJ tj [d]
      u.schedLive d = true → u.atFloor d = false → u.fld F.RB_ALARM_FLOOR_ALARM [d] = 0 →
      exec (.floorBreach d v tj) s = .next (finish s
        (let w := (u.setFld F.RB_ALARM_FLOOR_ALARM 1 [d]).setFld F.RB_ALARM_LEAD_US 0 [d]
         raiseAlarm d 1 (w.log 0x0A 0x02 d (powerDetail w d 0))))) ∧
  (∀ (s : State) (d c m : Nat), d < 8 → tabGet [] s.road.suspends [d] = [(c, m)] → s.nextBoundary m ≤ s.now → s.gateAt .rbSwap = none →
      exec (.suspend d) s = .next (finish s
        (let u := s.forAll (alarmFields s d c) (suspendField d c)
         ({ u with road := { u.road with suspends := tabSet [] u.road.suspends [d] [] } } : State).setFld F.RB_ALARM_SUSPEND_PENDING 0 [d]))) ∧
  (∀ (s : State), s.launchDue .rbResume = true → (s.dropGate .rbResume).gateAt .rbSwap = none →
      exec .resume s = .next (finish s (resumeFields s.road.resumeMask (s.dropGate .rbResume)))) ∧
  (∀ (s : State) (f n : Nat), s.road.suspended = [f] → s.slotOf f = some n → s.road.resumeMask.testBit n = true →
      resumeFields s.road.resumeMask s = clearAlarms (if s.timeValid = true ∧ (∀ d ∈ dies, (∀ r ∈ s.records, r.field = f → r.touches d = false) ∨
          (s.fld F.RB_ALARM_FLOOR_ALARM [d] = 0 ∧ s.fld F.RB_ALARM_PACE_ALARM [d] = 0 ∧ s.atFloor d = true))
        then (unsuspend f s).log 0x05 0x0A 8 (roadDetail (unsuspend f s) 0 0 0) f
        else s.log 0x05 0x09 8 (roadDetail s 0 0 0) f))

/-! ## Tiles, Waybills and the Almanac (chapters 7 and 8) -/

/-- DISPATCH takes the head of the ready queue to its unit's issue queue; a full issue queue is counted once and nothing passes; a Waybill that is not to run finishes with its status. WAYBILL_START starts the head of a free unit's issue queue. INSTANCE_DONE moves the loop nest on, and after the last instance, or a fault, ends the run. JOIN at the head finishes. WAYBILL_COMPLETE of a finished Waybill without a release gate takes its completion effects. -/
def Obligations.WaybillsMoveThroughTheQueues : Prop :=
  (∀ (s : State) (d t n u : Nat) (l : List Nat), d < 8 → t < 2048 → s.readyQ d t = n :: l → s.overQ d t = [] → (s.slot d t n).fail = none →
      unitOf (wbOpcode (s.slot d t n).armed) = some u → u ≠ 4 → s.tileFenced d t = false → (s.issueQ d t u).length < 4 →
      exec (.dispatch d t) s = .next (finish s (setBlocked d t false ((s.setReadyQ d t l).setIssueQ d t u (s.issueQ d t u ++ [n]))))) ∧
  (∀ (s : State) (d t n u : Nat) (l : List Nat), d < 8 → t < 2048 → s.readyQ d t = n :: l → (s.slot d t n).fail = none →
      unitOf (wbOpcode (s.slot d t n).armed) = some u → u ≠ 4 → s.tileFenced d t = false → 4 ≤ (s.issueQ d t u).length →
      tabGet 0 s.tiles.blocked [d, t] ≠ 1 →
      exec (.dispatch d t) s = .next (finish s (setBlocked d t true (s.bump F.TL_STALL_ISSUE_FULL [d, t])))) ∧
  (∀ (s : State) (d t n st : Nat) (l : List Nat), d < 8 → t < 2048 → s.readyQ d t = n :: l → s.overQ d t = [] →
      (s.slot d t n).fail = some st →
      exec (.dispatch d t) s = .next (finish s ((s.setReadyQ d t l).setSlot d t n { s.slot d t n with finished := some (st, 0) }))) ∧
  (∀ (s : State) (d t u n : Nat) (l : List Nat), d < 8 → t < 2048 → u < 4 → s.running d t u = none → s.issueQ d t u = n :: l →
      s.tileFenced d t = false →
      exec (.waybillStart d t u) s = .next (finish s (((s.setIssueQ d t u l).setRunning d t u (some n)).setSlot d t n
        { s.slot d t n with st := .running, k := 0, ran := false, allDone := false }))) ∧
  (∀ (s : State) (d t u n : Nat), d < 8 → t < 2048 → u < 3 → s.running d t u = some n → s.tileHanding d t = false →
      (s.slot d t n).st = .running → (s.slot d t n).ran = true → (s.slot d t n).status = none →
      exec (.instanceDone d t u) s = .next (finish s
        (if (s.slot d t n).k + 1 < wbInstances (s.slot d t n).armed
         then s.setSlot d t n { s.slot d t n with k := (s.slot d t n).k + 1, ran := false } else endRun d t u n s))) ∧
  (∀ (s : State) (d t n : Nat) (l : List Nat), d < 8 → t < 2048 → s.readyQ d t = n :: l → s.overQ d t = [] → (s.slot d t n).fail = none →
      wbOpcode (s.slot d t n).armed = 0 → s.tileFenced d t = false →
      exec (.join d t) s = .next (finish s ((s.setReadyQ d t l).setSlot d t n
        { s.slot d t n with finished := some (if (s.slot d t n).late then 1 else 0, 0) }))) ∧
  (∀ (s : State) (d t n st det : Nat), d < 8 → t < 2048 → n < 1024 → (s.slot d t n).finished = some (st, det) →
      wbGateKind (s.slot d t n).armed ≠ 2 → exec (.waybillComplete d t n) s = .next (finish s (completeSlot d t n st det s)))

/-- A Waybill without successors, notice or pending arm completes with any status: its slot is IDLE with POISON clear, its generation and what credits are left; the eight bytes of the status record stand at STATUS_OFF, and every other byte of memory is as it was; COMPLETED, and LATE or FAULTED by the status, are one more. -/
def Obligations.CompletionTakesItsEffects : Prop :=
  ∀ (s : State) (d t n st det : Nat), d < 8 → t < 2048 → n < 1024 → st < 256 →
    let r := s.slot d t n
    let u := completeSlot d t n st det s
    (∀ i ∈ [16, 18, 20, 22], wbLe r.armed i 2 / 2 ^ 14 = 0) → wbNotify r.armed = false → r.pendingArm = false →
    wbStatusOff r.armed + 8 ≤ tileSize →
    u.slot d t n = { credits := if r.absent then r.nextCredits else r.credits - wbWait r.armed + r.nextCredits, gen := r.gen } ∧
      (∀ i, i < 8 → u.memByte d t (wbStatusOff r.armed + i) = (statusRecord st (wbOpcode r.armed) n r.gen det).getD i 0) ∧
      (∀ a, (∀ i, i < 8 → a ≠ tileBase d t + wbStatusOff r.armed + i) → tabGet 0 u.mem a = tabGet 0 s.mem a) ∧
      u.fld F.TL_WB_STAT_COMPLETED [d, t] = min (s.fld F.TL_WB_STAT_COMPLETED [d, t] + 1) (2 ^ 32 - 1) ∧
      u.fld F.TL_WB_STAT_LATE [d, t] = (if st = 1 ∨ st = 2 then min (s.fld F.TL_WB_STAT_LATE [d, t] + 1) 255 else s.fld F.TL_WB_STAT_LATE [d, t]) ∧
      u.fld F.TL_WB_STAT_FAULTED [d, t] = (if st ≤ 1 then s.fld F.TL_WB_STAT_FAULTED [d, t] else min (s.fld F.TL_WB_STAT_FAULTED [d, t] + 1) 255)

/-- With no checker failing and O in tile memory, the instance k that a unit has to run: MATMUL writes 64 rows of 64 dot products; VFLOAT the rounded function of each element, with the lane cores' flags raised; VINT the integer function, wrapped or saturated; VREDUCE one element; the loads and stores of these three meet the store buffers; COPY the bytes, or their zero-run form, or the elements of one; FILL the pattern. The instance has then run. -/
def Obligations.InstancesComplete : Prop :=
  (∀ (s : State) (d t n : Nat) (w : List Byte) (ea eb eo : Elem) (ra cb : List (List Machine.Num)), d < 8 → t < 2048 → presentRun s d t 0 0x10 = some (n, w) →
      elemOf (opA w).fmt = some ea → elemOf (opB w).fmt = some eb → elemOf (opO w).fmt = some eo → (opO w).target = 0 →
      rowsA s d t w (s.slot d t n).k ea = some ra → colsB s d t w (s.slot d t n).k eb = some cb →
      exec (.matmul d t 0) s = .next (finish s
        (let at_ := placeOf w (opO w) (s.slot d t n).k
         let u := s.forAll (List.range 64) (fun r v => v.writeMem d t (at_ + r * mmPitchO w)
           (eo.bytes ⟨.even, wbSat w (opO w).fmt, wbWrap w, true, ea.isInt⟩ ((List.range 64).map (fun j =>
             dotOf ea eo (wbSat w (opO w).fmt) (if mmAcc w then (eo.read (memFrom s d t (at_ + r * mmPitchO w)) j).norm else .zero)
               (List.zip (ra.getD r []) (cb.getD j []))))).1)
         u.setSlot d t n { s.slot d t n with ran := true }))) ∧
  (∀ (s : State) (d t n : Nat) (w : List Byte) (ea eb eo : Elem), d < 8 → t < 2048 → presentRun s d t 1 0x20 = some (n, w) →
      elemOf (opA w).fmt = some ea → elemOf (opB w).fmt = some eb → usesB w = true → elemOf (opO w).fmt = some eo → (opO w).target = 0 → pFn w ≠ 0x09 →
      exec (.vfloat d t 0) s = .next (finish s
        (let k := (s.slot d t n).k
         let vals := (List.range (pLength w)).map (fun j => vfloatFn (pFn w) (Rnd.ofCode (wbRnd w)) (workFmt w)
           (ea.read (memFrom s d t (placeOf w (opA w) k)) j) (eb.read (memFrom s d t (placeOf w (opB w) k)) j) (eo.read (memFrom s d t (placeOf w (opO w) k)) j))
         let r := eo.bytes ⟨.even, wbSat w (opO w).fmt, wbWrap w, false, false⟩ (vals.map (fun v => (workFmt w).decode v.1))
         (laneBuffers d t w k (raiseFlags d t 1 (vals.foldl (fun a v => a ||| v.2) r.2) (s.writeMem d t (placeOf w (opO w) k) r.1))).setSlot d t n
           { s.slot d t n with ran := true }))) ∧
  (∀ (s : State) (d t n na no : Nat) (w : List Byte) (sa so : Bool), d < 8 → t < 2048 → presentRun s d t 1 0x21 = some (n, w) →
      elemOf (opA w).fmt = some (.int sa na) → pImm w = true → elemOf (opO w).fmt = some (.int so no) → (opO w).target = 0 →
      exec (.vint d t 0) s = .next (finish s
        (let k := (s.slot d t n).k
         let vals := (List.range (pLength w)).map (fun j => vintFn (pFn w) sa
           (intOf sa na (leNat ((List.range na).map (fun i => s.memByte d t (placeOf w (opA w) k + (j * na + i)))))) (intOf sa na (pScalar w % 2 ^ (8 * na))))
         (laneBuffers d t w k (raiseFlags d t 1 0 (s.writeMem d t (placeOf w (opO w) k) (vals.flatMap (fun v => leBytes no (intPattern (wbWrap w) so no v)))))).setSlot
           d t n { s.slot d t n with ran := true }))) ∧
  (∀ (s : State) (d t n : Nat) (w : List Byte) (ea eo : Elem), d < 8 → t < 2048 → presentRun s d t 1 0x22 = some (n, w) →
      elemOf (opA w).fmt = some ea → elemOf (opO w).fmt = some eo → ea.isInt = false → pFn w = 1 → (opO w).target = 0 →
      exec (.vreduce d t 0) s = .next (finish s
        (let k := (s.slot d t n).k
         let r := eo.bytes ⟨Rnd.ofCode (wbRnd w), wbSat w (opO w).fmt, wbWrap w, false, false⟩
           [sumAll ((List.range (pLength w)).map (ea.read (memFrom s d t (placeOf w (opA w) k))))]
         (laneBuffers d t w k (raiseFlags d t 1 r.2 (s.writeMem d t (placeOf w (opO w) k) r.1))).setSlot d t n
           { s.slot d t n with ran := true }))) ∧
  (∀ (s : State) (d t n : Nat) (w l : List Byte), d < 8 → t < 2048 → presentRun s d t 3 0x30 = some (n, w) → (opO w).target = 0 →
      elemOf (opA w).fmt = none →
      (let a := placeOf w (opA w) (s.slot d t n).k
       let len := pLength w
       let x := cpWidth w
       (cpForm w = 0 ∧ l = s.readMem d t a (len * x)) ∨ (cpForm w = 1 ∧ l = zeroRunForm x (elemsOf x (s.readMem d t a (len * x)))) ∨
       (cpForm w = 2 ∧ s.readMem d t a 8 = leBytes 4 len ++ leBytes 1 x ++ [0, 0, 0] ∧ len < 2 ^ 32 ∧ x < 256 ∧
         unRun (memFrom s d t a) (min (packedMax len x) (tileSize - a)) x len len 8 = some l)) →
      exec (.copy d t 0) s = .next (finish s ((s.writeMem d t (placeOf w (opO w) (s.slot d t n).k) l).setSlot d t n
        { s.slot d t n with ran := true }))) ∧
  (∀ (s : State) (d t n : Nat) (w : List Byte) (eo : Elem), d < 8 → t < 2048 → presentRun s d t 3 0x31 = some (n, w) → (opO w).target = 0 →
      elemOf (opO w).fmt = some eo →
      exec (.fill d t 0) s = .next (finish s ((s.writeMem d t (placeOf w (opO w) (s.slot d t n).k)
        (List.replicate (pLength w) (leBytes eo.size (pScalar w))).flatten).setSlot d t n { s.slot d t n with ran := true })))

/-- VFLOAT, VINT, COPY without a form and FILL change at most the bytes of LENGTH elements from O.inst of their own tile, and VREDUCE those of one element; every other byte of every tile reads as before. -/
def Obligations.InstancesWriteOnlyTheirOutput : Prop :=
  ∀ (s u : State) (d t n a : Nat) (w : List Byte), d < 8 → t < 2048 → (opO w).target = 0 →
    let o := tileBase d t + placeOf w (opO w) (s.slot d t n).k
    let len := spanBytes (opO w).fmt (cpWidth w) (pLength w)
    (presentRun s d t 1 0x20 = some (n, w) → exec (.vfloat d t 0) s = .next u → (a < o ∨ o + len ≤ a) → tabGet 0 u.mem a = tabGet 0 s.mem a) ∧
    (presentRun s d t 1 0x21 = some (n, w) → exec (.vint d t 0) s = .next u → (a < o ∨ o + len ≤ a) → tabGet 0 u.mem a = tabGet 0 s.mem a) ∧
    (presentRun s d t 3 0x30 = some (n, w) → cpForm w = 0 → (elemOf (opA w).fmt = none ↔ elemOf (opO w).fmt = none) →
      exec (.copy d t 0) s = .next u → (a < o ∨ o + len ≤ a) → tabGet 0 u.mem a = tabGet 0 s.mem a) ∧
    (presentRun s d t 3 0x31 = some (n, w) → (elemOf (opO w).fmt).all (fun e => !e.isMx) = true →
      exec (.fill d t 0) s = .next u → (a < o ∨ o + len ≤ a) → tabGet 0 u.mem a = tabGet 0 s.mem a) ∧
    (presentRun s d t 1 0x22 = some (n, w) → exec (.vreduce d t 0) s = .next u →
      (a < o ∨ o + spanBytes (opO w).fmt (cpWidth w) 1 ≤ a) → tabGet 0 u.mem a = tabGet 0 s.mem a)

/-- A PUT instance reads its payload and gives the tile NI one PUT with its window, offset, reference and role epoch, resendable where it credits nothing. A GET instance whose landing range lies in RESP_WINDOW gives it one GET_REQ; one whose range does not ends the Waybill with BOUNDS and sends nothing. A COPY of raw elements to an engine streams them from index O.inst and writes no memory. A failed checker makes the run POISONED. -/
def Obligations.MovesAndStreamsComplete : Prop :=
  (∀ (s : State) (d t n : Nat) (w : List Byte), d < 8 → t < 2048 → presentRun s d t 3 0x32 = some (n, w) →
      exec (.put d t 0) s = .next (finish s
        (let k := (s.slot d t n).k
         let p : Packet := { h := { reqHdr s d t 0x80 (if pgSched w then 3 else 1) (pgUnits w) ((s.tileField d t).getD 0) (pgRank w) with ord := b2n (pgOrd w), roleEpoch := pgEpoch w }, body := dataBody (pgWindow w) (farOffset w k) (wbLe w 92 4) 0 0 0 0 0 (if pgSched w then (opO w).tid else 0), data := s.readMem d t (placeOf w (opA w) k) (pgUnits w * 64) }
         countTagWait d t n (submitRun d t n p (decide (wbLe w 92 4 = noRef)) 0 (s.setSlot d t n { s.slot d t n with ran := true }))))) ∧
  (∀ (s : State) (d t n : Nat) (w : List Byte), d < 8 → t < 2048 → presentRun s d t 3 0x33 = some (n, w) →
      let base := s.fld F.NI_WINDOW_BASE_BLK [d, t, wbByte w 92] * 64
      let a := placeOf w (opA w) (s.slot d t n).k
      exec (.get d t 0) s = .next (finish s
        (let u := s.setSlot d t n { s.slot d t n with ran := true }
         if base ≤ a ∧ a + pgUnits w * 64 ≤ base + s.fld F.NI_WINDOW_LENGTH_BLK [d, t, wbByte w 92] * 64 then
           countTagWait d t n (submitRun d t n
             { h := { reqHdr u d t 0x01 0 0 ((u.tileField d t).getD 0) (pgRank w) with ord := b2n (pgOrd w), roleEpoch := pgEpoch w }, body := beBytes 1 (pgWindow w) ++ beBytes 5 (farOffset w (s.slot d t n).k) ++ beBytes 2 (pgUnits w) ++ beBytes 1 (wbByte w 92) ++ beBytes 5 (a - base) ++ beBytes 4 noRef ++ List.replicate 14 0 } true 0 u)
         else failRun d t n 0x06 0 u))) ∧
  (∀ (s : State) (d t n : Nat) (w : List Byte) (e : Elem), d < 8 → t < 2048 → presentRun s d t 3 0x30 = some (n, w) → (opO w).target ≠ 0 →
      cpForm w = 0 → (opA w).fmt = (opO w).fmt → elemOf (opA w).fmt = some e →
      exec (.copy d t 0) s = .next (finish s (streamOut d t n (opO w) (placeOf w (opO w) (s.slot d t n).k)
        (s.readMem d t (placeOf w (opA w) (s.slot d t n).k) (e.span (pLength w))) (s.setSlot d t n { s.slot d t n with ran := true })))) ∧
  (∀ (s : State) (d t n f : Nat) (w : List Byte), d < 8 → t < 2048 → (f = 1 ∨ f = 2) → presentRun s d t 3 0x32 = some (n, w) →
      exec (.put d t f) s = .next (finish s (poisonRun d t 3 n f s)))

/-- After a residue check of unit U fails in a run: RESIDUE.COUNT is one more and names U, the slot's status is POISONED where no earlier cause had decided it, the instance counts as run, and the last report waiting for the Safety Monitor is of row 1 of the fault domains, of this die and of the tile's Field and logical row. -/
def Obligations.ResidueFailurePoisons : Prop :=
  ∀ (s : State) (d t u n : Nat), d < 8 → t < 2048 → u < 4 → n < 1024 → (opO (s.slot d t n).armed).target = 0 →
    let v := poisonRun d t u n 1 s
    v.fld F.TL_RESIDUE_COUNT [d, t] = min (s.fld F.TL_RESIDUE_COUNT [d, t] + 1) (2 ^ F.TL_RESIDUE_COUNT.width - 1) ∧
      v.fld F.TL_RESIDUE_LAST_UNIT [d, t] = u ∧
      (v.slot d t n).status = some ((s.slot d t n).status.getD 0x05) ∧ (v.slot d t n).ran = true ∧
      ∃ x, v.safe.reports = s.safe.reports ++ [x] ∧ x.row = 1 ∧ x.die = d ∧ x.field = (s.tileField d t).getD 0xFFFF ∧ x.lrow = some (t / 64)

/-- CALL looks its routine up, and an unknown one ends with DETAIL 0x01. In a call of each routine with arguments in range: WINDOW_SET sets the window; ROLE_DECLARE advances the role epoch and answers it; TILE_RESET starts the reset of another tile of the Field and waits; TILE_RESET_DONE after the drain resets the tile and opens its gate; WB_ARM arms slots in ascending order; WB_BCAST over a row that the Field does not hold is refused with 0x03; WB_RENEW of an IDLE slot answers the new generation; WB_QUERY answers the slot's state. In a call with arguments in range: FLAGS_READ answers the Steward's and the lane cores' flags, and clears them when asked; TIME_READ the count and TK_STATUS.VALID; PATCH adds to the word and answers its old value; BRANCH arms the slot its test names; SCALAR_F answers the rounded result's bits and raises the Steward's flags. -/
def Obligations.RoutinesComplete : Prop :=
  (∀ (s : State) (d t n : Nat) (w : List Byte), d < 8 → t < 2048 → stewardRun s d t 0x40 = some (n, w) → (s.slot d t n).calling = false →
      exec (.call d t 0) s = .next (finish s
        (if knownRoutine (callRoutine w) then s.setSlot d t n { s.slot d t n with calling := true } else endCall d t n (some 0x01) [] s))) ∧
  (∀ (s : State) (d t n : Nat) (w : List Byte), d < 8 → t < 2048 → inCall s d t 0x0001 = some (n, w) → resOk w 0 = true →
      arg w 0 < 256 → arg w 1 < 32768 → arg w 2 ≤ 32768 → arg w 3 < 4 → argsZero w 4 = true →
      exec (.windowSet d t) s = .next (finish s (endCall d t n none []
        ((((s.setFld F.NI_WINDOW_BASE_BLK (arg w 1) [d, t, arg w 0]).setFld F.NI_WINDOW_LENGTH_BLK (arg w 2) [d, t, arg w 0]).setFld
          F.NI_WINDOW_RD (arg w 3 % 2) [d, t, arg w 0]).setFld F.NI_WINDOW_WR (arg w 3 / 2) [d, t, arg w 0])))) ∧
  (∀ (s : State) (d t n : Nat) (w : List Byte), d < 8 → t < 2048 → inCall s d t 0x0002 = some (n, w) → resOk w 1 = true → argsZero w 0 = true →
      exec (.roleDeclare d t) s = .next (finish s (endCall d t n none [(advanceRole d t s).roleEpoch d t] (advanceRole d t s)))) ∧
  (∀ (s : State) (d t n e u : Nat) (w : List Byte), d < 8 → t < 2048 → inCall s d t 0x0003 = some (n, w) → arg w 0 < 2 ^ 20 → argsZero w 1 = true →
      rankHere s d t (arg w 0) = some (e, u) → ¬ (e = d ∧ u = t) → s.dieFenced e = false → s.tileFenced e u = false → tabGet none s.tiles.resets [e, u] = none →
      exec (.tileReset d t) s = .next (finish s
        (let v := (closeGate (.tile e u) s).setFld F.TL_CTRL_RESET_BUSY 1 [e, u]
         { v with tiles := { v.tiles with resets := tabSet none v.tiles.resets [e, u] (some { callers := [(d, t)] }) } }))) ∧
  (∀ (s : State) (d t : Nat) (r : ResetRec), d < 8 → t < 2048 → tabGet none s.tiles.resets [d, t] = some r → r.callers = [] → Domain.tile d t ∈ s.ni.drained →
      exec (.tileResetDone d t) s = .next (finish s
        (let v := (openGate (.tile d t) (resetTile d t s)).setFld F.TL_CTRL_RESET_BUSY 0 [d, t]
         { v with tiles := { v.tiles with resets := tabSet none v.tiles.resets [d, t] none } }))) ∧
  (∀ (s : State) (d t n : Nat) (w : List Byte), d < 8 → t < 2048 → inCall s d t 0x0004 = some (n, w) → resOk w 0 = true →
      1 ≤ arg w 1 → arg w 1 ≤ 64 → arg w 0 + arg w 1 ≤ 1024 → argsZero w 2 = true →
      exec (.wbArm d t) s = .next (finish s (endCall d t n none [] (s.forAll (List.range (arg w 1)) (fun i v => armSlot d t (arg w 0 + i) v))))) ∧
  (∀ (s : State) (d t n : Nat) (w : List Byte), d < 8 → t < 2048 → inCall s d t 0x0006 = some (n, w) → resOk w 1 = true → arg w 0 < 1024 → argsZero w 1 = true →
      (s.slot d t (arg w 0)).st = .idle → (s.slot d t (arg w 0)).pendingArm = false →
      exec (.wbRenew d t) s = .next (finish s (endCall d t n none [((s.slot d t (arg w 0)).gen + 1) % 256] (s.setSlot d t (arg w 0)
        { s.slot d t (arg w 0) with gen := ((s.slot d t (arg w 0)).gen + 1) % 256, credits := 0, nextCredits := 0, poison := false })))) ∧
  (∀ (s : State) (d t n : Nat) (w : List Byte), d < 8 → t < 2048 → inCall s d t 0x0007 = some (n, w) → resOk w 1 = true → arg w 0 < 1024 → argsZero w 1 = true →
      exec (.wbQuery d t) s = .next (finish s (endCall d t n none
        [(s.slot d t (arg w 0)).st.code + 8 * b2n (s.slot d t (arg w 0)).poison + 16 * b2n (s.slot d t (arg w 0)).pendingArm + 256 * (s.slot d t (arg w 0)).gen +
          65536 * ((s.slot d t (arg w 0)).credits + (s.slot d t (arg w 0)).nextCredits)] s))) ∧
  (∀ (s : State) (d t n : Nat) (w : List Byte), d < 8 → t < 2048 → inCall s d t 0x0008 = some (n, w) → resOk w 1 = true → arg w 0 < 2 → argsZero w 1 = true →
      exec (.flagsRead d t) s = .next (finish s (endCall d t n none
        [tabGet 0 s.tiles.flags [d, t, 0] + 32 * tabGet 0 s.tiles.flags [d, t, 1]]
        (if arg w 0 = 1 then { s with tiles := { s.tiles with flags := tabSet 0 (tabSet 0 s.tiles.flags [d, t, 0] 0) [d, t, 1] 0 } } else s)))) ∧
  (∀ (s : State) (d t n : Nat) (w : List Byte), d < 8 → t < 2048 → inCall s d t 0x0009 = some (n, w) → resOk w 2 = true → argsZero w 0 = true →
      exec (.timeRead d t) s = .next (finish s (endCall d t n none [s.now, if s.timeValid then 1 else 0] s))) ∧
  (∀ (s : State) (d t n : Nat) (w : List Byte), d < 8 → t < 2048 → inCall s d t 0x000A = some (n, w) → resOk w 1 = true → arg w 1 ∈ [1, 2, 4, 8] →
      arg w 0 % arg w 1 = 0 → arg w 0 + arg w 1 ≤ tileSize → argsZero w 3 = true →
      exec (.patch d t) s = .next (finish s (endCall d t n none [s.memWord d t (arg w 0) (arg w 1)]
        (stewardWrite d t (arg w 0) (leBytes (arg w 1) ((s.memWord d t (arg w 0) (arg w 1) + arg w 2) % 2 ^ (8 * arg w 1)))
          (loadCompare d t false (arg w 0) (arg w 1) s))))) ∧
  (∀ (s : State) (d t n : Nat) (w : List Byte), d < 8 → t < 2048 → inCall s d t 0x000B = some (n, w) → resOk w 1 = true → arg w 0 + 8 ≤ tileSize →
      arg w 1 ≤ 4 → arg w 3 < 1024 → (arg w 4 < 1024 ∨ arg w 4 = 0xFFFF) → argsZero w 5 = true →
      exec (.branch d t) s = .next (finish s
        (if branchTest (arg w 1) (s.memWord d t (arg w 0) 8) (arg w 2) then endCall d t n none [1] (armSlot d t (arg w 3) s)
         else endCall d t n none [0] (if arg w 4 = 0xFFFF then s else armSlot d t (arg w 4) s)))) ∧
  (∀ (s : State) (d t n : Nat) (w : List Byte), d < 8 → t < 2048 → inCall s d t 0x000C = some (n, w) → resOk w 1 = true → 1 ≤ arg w 0 → arg w 0 ≤ 6 →
      arg w 1 = 2 → arg w 2 ≤ 4 → argsZero w 6 = true →
      exec (.scalarF d t) s = .next (finish s
        (let r := scalarOp (arg w 0) (Rnd.ofCode (arg w 2)) fp32 (fp32.decode (arg w 3 % 2 ^ 32)) (fp32.decode (arg w 4 % 2 ^ 32)) (fp32.decode (arg w 5 % 2 ^ 32))
         endCall d t n none [r.1] (raiseFlags d t 0 r.2 s)))) ∧
  (∀ (s : State) (d t n : Nat) (w : List Byte), d < 8 → t < 2048 → inCall s d t 0x0009 = some (n, w) → argsZero w 0 = false → resOk w 2 = true →
      exec (.timeRead d t) s = .next (finish s (endCall d t n (some 0x02) [] s)))

/-- A rectangle of one tile (E, U): where its row is the caller's and exists, and the destination slot is IDLE without a pending arm, the 128 bytes stand in the slot, the slot is armed under ARM, and the results are 1 and 0; where the slot is busy nothing changes and they are 0 and 1; where the row is not the caller's the call ends with DETAIL 0x03. -/
def Obligations.BroadcastCompletes : Prop :=
  ∀ (s : State) (d t n e r c : Nat) (w : List Byte), d < 8 → t < 2048 → e < 8 → r < 32 → c < 64 →
    inCall s d t 0x0005 = some (n, w) → resOk w 2 = true → arg w 0 % 128 = 0 → arg w 0 + 128 ≤ tileSize → arg w 1 < 1024 →
    arg w 2 = r + 32 * r + 1024 * c + 65536 * c + 2 ^ 22 * e → arg w 3 < 2 → argsZero w 4 = true →
    (s.tileSlot d t ≠ none → r < s.rowsPerDie → s.rowOwner1 e r = s.tileSlot d t →
      (s.slot e (r * 64 + c) (arg w 1)).st = .idle → (s.slot e (r * 64 + c) (arg w 1)).pendingArm = false →
      exec (.wbBcast d t) s = .next (finish s (endCall d t n none [1, 0]
        (let v := s.writeMem e (r * 64 + c) (wbOffset (arg w 1)) (s.readMem d t (arg w 0) 128)
         if arg w 3 = 1 then armSlot e (r * 64 + c) (arg w 1) v else v)))) ∧
    (s.tileSlot d t ≠ none → r < s.rowsPerDie → s.rowOwner1 e r = s.tileSlot d t →
      ((s.slot e (r * 64 + c) (arg w 1)).st ≠ .idle ∨ (s.slot e (r * 64 + c) (arg w 1)).pendingArm = true) →
      exec (.wbBcast d t) s = .next (finish s (endCall d t n none [0, 1] s))) ∧
    ((s.rowsPerDie ≤ r ∨ s.rowOwner1 e r ≠ s.tileSlot d t) →
      exec (.wbBcast d t) s = .next (finish s (endCall d t n (some 0x03) [] s)))

/-- PACKED scans the stream and records every bundle's start, with x1 to x8 loaded and every other register 0; without an END within 4,096 bundles it ends with FORMAT. PACKED_BUNDLE under a valid bundle without memory slots or CREDIT: every slot acts on the registers as they were, the flags are raised, and the next bundle follows, or the Waybill completes after END or HALT; an invalid bundle ends it with FORMAT before any effect, and a bundle beyond MAX_BUNDLES with BUDGET. -/
def Obligations.PackedRunsComplete : Prop :=
  (∀ (s : State) (d t n : Nat) (w : List Byte), d < 8 → t < 2048 → stewardRun s d t 0x41 = some (n, w) → (s.slot d t n).packed = none →
      exec (.packed d t) s = .next (finish s
        (match scanBundles s d t 4096 (pkOffset w) with
         | none => endRun d t 2 n (failRun d t n 0x07 0 s)
         | some l => s.setSlot d t n { s.slot d t n with packed := some ⟨0 :: (List.range 8).map (arg w) ++ List.replicate 23 0, List.replicate 16 (List.replicate 64 0), l, pkOffset w, 0, false⟩ }))) ∧
  (∀ (s : State) (d t n : Nat) (w : List Byte) (p : PackedRun) (ins : List PkIns) (o : PkOut), d < 8 → t < 2048 → stewardRun s d t 0x41 = some (n, w) →
      (s.slot d t n).packed = some p → p.count < pkMax w →
      ins = (List.range (maskSlots (s.memWord d t p.next_ 4 % 256)).length).map (fun j =>
        pkIns ((maskSlots (s.memWord d t p.next_ 4 % 256)).getD j 0) (s.memWord d t (p.next_ + 4 + 4 * j) 4)) →
      pkRefuse p p.next_ (s.memWord d t p.next_ 4) ins = none → ins.any (fun i => i.slot = 3 || i.slot = 4) = false →
      o = ins.foldl (pkStep s d t p.next_ p) { x := p.x, v := p.v } → o.stores = [] → o.credit = none →
      exec (.packedBundle d t 0) s = .next (finish s
        (let u := raiseFlags d t 1 o.fl1 (raiseFlags d t 0 o.fl0 s)
         let ended := o.halt || (s.memWord d t p.next_ 4).testBit 8
         let v := u.setSlot d t n { u.slot d t n with packed := some ⟨o.x, o.v, p.starts, o.jump.getD (p.next_ + 4 + 4 * (maskSlots (s.memWord d t p.next_ 4 % 256)).length), p.count + 1, ended⟩ }
         if ended then endRun d t 2 n v else v))) ∧
  (∀ (s : State) (d t n : Nat) (w : List Byte) (p : PackedRun), d < 8 → t < 2048 → stewardRun s d t 0x41 = some (n, w) →
      (s.slot d t n).packed = some p → pkMax w ≤ p.count →
      exec (.packedBundle d t 0) s = .next (finish s (endRun d t 2 n (failRun d t n 0x10 0 s)))) ∧
  (∀ (s : State) (d t n : Nat) (w : List Byte) (p : PackedRun), d < 8 → t < 2048 → stewardRun s d t 0x41 = some (n, w) →
      (s.slot d t n).packed = some p → p.count < pkMax w → 512 ≤ s.memWord d t p.next_ 4 →
      exec (.packedBundle d t 0) s = .next (finish s (endRun d t 2 n (failRun d t n 0x07 0 s))))

/-- After the reset of a tile: every byte of it reads 0 and every byte of any other tile as before; every slot is IDLE without credits, poison or a pending arm, with its generation one on modulo 256; every window is absent; every tag is in quarantine since now; the IEEE flags and every counter of TL_WB_STAT, TL_STALL, TL_RESIDUE and TM_STAT are 0. -/
def Obligations.TileResetLeavesNothing : Prop :=
  ∀ (s : State) (d t : Nat), d < 8 → t < 2048 →
    let u := resetTile d t s
    (∀ a, a < tileSize → u.memByte d t a = 0) ∧
    (∀ e v a, v < 2048 → a < tileSize → (e ≠ d ∨ v ≠ t) → u.memByte e v a = s.memByte e v a) ∧
    (∀ n, n < 1024 → u.slot d t n = { gen := ((s.slot d t n).gen + 1) % 256 }) ∧
    (∀ x, x < 256 → u.fld F.NI_WINDOW_LENGTH_BLK [d, t, x] = 0) ∧
    (∀ i, i < 4096 → (u.tagOf d t i).st = .quarantine) ∧
    tabGet 0 u.tiles.flags [d, t, 0] = 0 ∧ tabGet 0 u.tiles.flags [d, t, 1] = 0 ∧
    u.fld F.TL_WB_STAT_COMPLETED [d, t] = 0 ∧ u.fld F.TL_RESIDUE_COUNT [d, t] = 0 ∧ u.fld F.TL_STALL_ISSUE_FULL [d, t] = 0 ∧ u.fld F.TM_STAT_INSTANCES [d, t] = 0

/-! ## Sheaves (chapter 9) -/

/-- SHEAF_DEFINE of a plan that no check refuses leaves the node with CUR_ROUND 0; SHEAF_QUERY answers its state, and SHEAF_UNDEFINE of a node whose round is closed removes it. SHEAF_CONTRIB_RECEIVE in an open or the next round, within the horizon and with no chunk received: received bits set, ACK, the packet held; one of another round or wholly received before is acknowledged and only counted. SHEAF_COUNT_COVER records new ranges; SHEAF_COUNT_POISON at a tile gives poisoned credits; SHEAF_RESULT_RECEIVE from the parent is passed on; CHUNK_ACCUMULATE adds the next chunk of a held packet in the window; SHEAF_DEADLINE closes the round as poisoned. -/
def Obligations.SheafCommandsComplete : Prop :=
  (∀ (s : State) (d t n slot : Nat) (w : List Byte), d < 8 → t < 2048 → inCall s d t 0x0010 = some (n, w) → resOk w 0 = true → argsZero w 1 = true →
      arg w 0 % 64 = 0 → arg w 0 + 64 ≤ tileSize → arg w 0 + planBytes (s.readMem d t (arg w 0) 64) ≤ tileSize →
      let l := s.readMem d t (arg w 0) (planBytes (s.readMem d t (arg w 0) 64))
      let p := sheafPlanOf l
      let f := (s.tileField d t).getD 0
      s.tileSlot d t = some slot → sheafPlanOk l p = true → deadlineFits s d slot p.deadlineUs = true →
      s.fld F.SH_GRANT_ID_BASE [d, slot] ≤ p.id → p.id < s.fld F.SH_GRANT_ID_BASE [d, slot] + s.fld F.SH_GRANT_ID_COUNT [d, slot] →
      s.node d f p.id = none → (nodesOf s d f).length < s.fld F.SH_GRANT_NODES [d, slot] →
      chunksHeld s d f p.wide + p.laneChunks ≤ (if p.wide then s.fld F.SH_GRANT_WIDE_CHUNKS [d, slot] else s.fld F.SH_GRANT_NARROW_CHUNKS [d, slot]) →
      exec (.sheafDefine d t) s = .next (finish s (endCall d t n none []
        (s.setNode d f p.id (some { field := f, tile := t, rank := (s.tileRank d t).getD 0, plan := p }))))) ∧
  (∀ (s : State) (d t n f : Nat) (w : List Byte) (nd : SheafNode), d < 8 → t < 2048 → inCall s d t 0x0011 = some (n, w) → resOk w 0 = true → arg w 0 < 2 ^ 16 →
      argsZero w 1 = true → ownNode s d t (arg w 0) = some (f, nd) →
      exec (.sheafUndefine d t) s = .next (finish s
        (if nd.openedAt.isSome then endCall d t n (some 0x03) [] s else endCall d t n none [] (removeNode d f (arg w 0) s)))) ∧
  (∀ (s : State) (d t n f : Nat) (w : List Byte) (nd : SheafNode), d < 8 → t < 2048 → inCall s d t 0x0012 = some (n, w) → resOk w 3 = true → arg w 0 < 2 ^ 16 →
      argsZero w 1 = true → ownNode s d t (arg w 0) = some (f, nd) →
      exec (.sheafQuery d t) s = .next (finish s (endCall d t n none
        [nd.cur + 16 * (if nd.openedAt.isSome then 1 else 0) + 256 * chunksOpen nd, nd.completed, nd.poisonedEver] s))) ∧
  (∀ (s : State) (pid i c0 cn : Nat) (k : Pkt) (nd : SheafNode) (x : SheafInput) (next : Bool), Handed s pid k 3 → k.p.h.typ = 0x82 →
      s.ownsTile2 k.die k.dstTile k.p.h.field = true → s.fieldFenced k.p.h.field = false → s.node k.die k.p.h.field k.p.sheafId = some nd → nd.tile = k.dstTile →
      inputOf nd.plan k.p.h.srcRank = some i → nd.plan.inputs[i]? = some x → contribChunks nd.plan x k.p = some (c0, cn) →
      roundOf nd (k.p.elemBase / 2 ^ 28) = some next → (∀ j, j < cn → x.var = true → covers nd.plan (nd.round next) i (c0 + j) = true) →
      (∀ j, j < cn → c0 + j < nd.low next + 256) → 0 < cn →
      (∀ j, j < cn → tabGet 0 (nd.round next).recv [i, c0 + j] = 0 ∧ (next = false → (nd.chunkRec (c0 + j)).done = false)) →
      exec (.sheafContribReceive pid) s = .next (finish s
        (let u := noteMark k.die 2048 k.p (taking s pid k)
         let v := match u.pkt pid with
           | some y => u.setPkt pid (some { y with stage := .held })
           | none => u
         touchRound k.die k.p.h.field k.p.sheafId next (fun r =>
           { r with recv := ((List.range cn).map (fun j => c0 + j)).foldl (fun t c => tabSet 0 t [i, c] 1) r.recv, held := r.held ++ [⟨pid, i, c0, cn, 0⟩] }) (nodeAck k v)))) ∧
  (∀ (s : State) (pid i c0 cn : Nat) (k : Pkt) (nd : SheafNode) (x : SheafInput), Handed s pid k 3 → k.p.h.typ = 0x82 →
      s.ownsTile2 k.die k.dstTile k.p.h.field = true → s.fieldFenced k.p.h.field = false → s.node k.die k.p.h.field k.p.sheafId = some nd → nd.tile = k.dstTile →
      inputOf nd.plan k.p.h.srcRank = some i → nd.plan.inputs[i]? = some x → contribChunks nd.plan x k.p = some (c0, cn) →
      roundOf nd (k.p.elemBase / 2 ^ 28) = none →
      exec (.sheafContribReceive pid) s = .next (finish s (nodeAck k ((taking s pid k).bump F.SH_STAT_STALE [k.die])))) ∧
  (∀ (s : State) (pid i : Nat) (k : Pkt) (nd : SheafNode) (x : SheafInput) (next : Bool), Handed s pid k 3 → k.p.h.typ = 0x07 → k.p.pay 0 1 = 1 →
      s.ownsTile2 k.die k.dstTile k.p.h.field = true → s.fieldFenced k.p.h.field = false → s.node k.die k.p.h.field (k.p.pay 2 2) = some nd → nd.tile = k.dstTile →
      inputOf nd.plan k.p.h.srcRank = some i → nd.plan.inputs[i]? = some x → x.var = true → roundOf nd (k.p.pay 1 1 % 16) = some next →
      tabGet [] (nd.round next).covers [i] = [] → coverRanges k.p ≠ [] → apart (coverRanges k.p) = true →
      (∀ g ∈ coverRanges k.p, g.1 + g.2 ≤ nd.plan.chunks) → i ∉ (nd.round next).finals → (k.p.pay 1 1).testBit 4 = false →
      exec (.sheafCountCover pid) s = .next (finish s (touchRound k.die k.p.h.field (k.p.pay 2 2) next
        (fun r => { r with covers := tabSet [] r.covers [i] (coverRanges k.p) }) (nodeAck k (taking s pid k))))) ∧
  (∀ (s : State) (pid n : Nat) (k : Pkt), Handed s pid k 2 → k.p.h.typ = 0x07 → k.p.pay 0 1 = 2 → s.ownsTile2 k.die k.dstTile k.p.h.field = true →
      k.p.h.roleEpoch = s.roleEpoch k.die k.dstTile → refSlot s k.die k.dstTile (k.p.pay 16 4) = some n → n < 1024 → s.aged k.p.h = false →
      exec (.sheafCountPoison pid) s = .next (finish s (sendAck k.die k.dstTile k.p (.tile k.die k.dstTile)
        ((taking s pid k).forAll (List.range (k.p.pay 20 2)) (fun _ v => creditSlot k.die k.dstTile n true v))))) ∧
  (∀ (s : State) (pid : Nat) (k : Pkt) (nd : SheafNode), Handed s pid k 3 → k.p.h.typ = 0x83 → s.ownsTile2 k.die k.dstTile k.p.h.field = true → s.fieldFenced k.p.h.field = false →
      s.node k.die k.p.h.field k.p.sheafId = some nd → nd.tile = k.dstTile → nd.plan.root = false → k.p.h.srcRank = nd.plan.parent →
      k.p.elemBase / 2 ^ 28 = nd.cur → nd.plan.outMx = false → mxWhole k.p = true →
      exec (.sheafResultReceive pid) s = .next (finish s
        (let u := openRound k.die k.p.h.field k.p.sheafId false (nodeAck k (taking s pid k))
         settleNode k.die k.p.h.field k.p.sheafId (u.forAll ((List.range nd.plan.targets.length).zip nd.plan.targets) (fun x v =>
           if k.p.elemBase % 2 ^ 28 ∈ blocksOf nd.plan x.2 then
             sendOnce k.die k.p.h.field k.p.sheafId x.1 (k.p.elemBase % 2 ^ 28) x.2
               (some (k.p.data.take (blockLen nd.plan x.2 (k.p.elemBase % 2 ^ 28) * nd.plan.outSize))) v
           else v))))) ∧
  (∀ (s : State) (d f id pid c : Nat) (bad : Bool) (nd : SheafNode) (h : HeldContrib), d < 8 → s.node d f id = some nd →
      nd.now_.held.find? (fun h => h.pid = pid) = some h → nd.openedAt ≠ none → h.first + h.taken = c → c ∈ nd.window →
      exec (.chunkAccumulate d f id pid c bad) s = .next (finish s (settleNode d f id (takeChunk d f id h bad s)))) ∧
  (∀ (s : State) (d f id m : Nat) (nd : SheafNode), d < 8 → s.node d f id = some nd → nd.openedAt = some m → m + 16000 * nd.plan.deadlineUs ≤ s.now →
      exec (.sheafDeadline d f id) s = .next (finish s (settleNode d f id
        (closePoisoned d f id ((s.bump F.SH_STAT_B_DEADLINES [d]).log 0x0E 0x02 d (engineDetail id nd.rank) f)))))

/-- At a SMALL node of a Field that is not fenced, in its open round: SMALL_CONTRIB from a LEAF not yet received is held, and SMALL_PIECE of a CHILD not yet received is kept, each with the fault of adding it, if one comes; a packet of another round is only counted. SMALL_DOWN from the parent is sent on. SMALL_RESULT at a window target writes as many of its 16 bytes as a result has and credits the reference once, or, with POISONED set, gives one poisoned credit and writes nothing. -/
def Obligations.SmallPathComplete : Prop :=
  (∀ (s : State) (pid i : Nat) (k : Pkt) (nd : SheafNode) (x : SheafInput) (fault : Bool), Handed s pid k 3 → k.p.h.typ = 0x06 → k.p.pay 0 1 = 1 → s.ownsTile2 k.die k.dstTile k.p.h.field = true → s.fieldFenced k.p.h.field = false →
      s.node k.die k.p.h.field (k.p.pay 2 2) = some nd → nd.tile = k.dstTile → nd.plan.small = true → k.p.pay 1 1 % 16 = nd.cur →
      inputOf nd.plan k.p.h.srcRank = some i → nd.plan.inputs[i]? = some x → x.child = false → tabGet 0 nd.now_.recv [i, 0] = 0 →
      exec (.smallContrib pid fault) s = .next (finish s (touchRound k.die k.p.h.field (k.p.pay 2 2) false
        (fun r => { r.faulty i fault with recv := tabSet 0 r.recv [i, 0] 1, held := r.held ++ [⟨pid, i, 0, 1, 0⟩] })
        ((taking s pid k).setPkt pid (some { k with stage := .held }))))) ∧
  (∀ (s : State) (pid i : Nat) (k : Pkt) (nd : SheafNode) (x : SheafInput) (fault : Bool), Handed s pid k 3 → k.p.h.typ = 0x06 → k.p.pay 0 1 = 2 → s.ownsTile2 k.die k.dstTile k.p.h.field = true → s.fieldFenced k.p.h.field = false →
      s.node k.die k.p.h.field (k.p.pay 2 2) = some nd → nd.tile = k.dstTile → nd.plan.small = true → k.p.pay 1 1 % 16 = nd.cur →
      inputOf nd.plan k.p.h.srcRank = some i → nd.plan.inputs[i]? = some x → x.child = true →
      k.p.pay 5 1 = (16 + 8 * nd.plan.words.1 * nd.plan.n + 23) / 24 → k.p.pay 4 1 < k.p.pay 5 1 → tabGet none nd.now_.pieces [i, k.p.pay 4 1] = none →
      exec (.smallPiece pid fault) s = .next (finish s (touchRound k.die k.p.h.field (k.p.pay 2 2) false
        (fun r =>
          let r := { r.faulty i fault with pieces := tabSet none r.pieces [i, k.p.pay 4 1] (some (k.p.pay 5 1, k.p.body.drop 8)) }
          if (wholeRecord nd.plan r i).isSome then { r with recv := tabSet 0 r.recv [i, 0] 1 } else r) (taking s pid k)))) ∧
  (∀ (s : State) (pid : Nat) (k : Pkt) (nd : SheafNode) (fault : Bool), Handed s pid k 3 → k.p.h.typ = 0x06 → k.p.pay 0 1 = 1 → s.ownsTile2 k.die k.dstTile k.p.h.field = true → s.fieldFenced k.p.h.field = false →
      s.node k.die k.p.h.field (k.p.pay 2 2) = some nd → nd.tile = k.dstTile → nd.plan.small = true → roundOf nd (k.p.pay 1 1 % 16) = none →
      exec (.smallContrib pid fault) s = .next (finish s ((taking s pid k).bump F.SH_STAT_STALE [k.die]))) ∧
  (∀ (s : State) (pid : Nat) (k : Pkt) (nd : SheafNode), Handed s pid k 3 → k.p.h.typ = 0x06 → k.p.pay 0 1 = 4 → s.ownsTile2 k.die k.dstTile k.p.h.field = true → s.fieldFenced k.p.h.field = false →
      s.node k.die k.p.h.field (k.p.pay 2 2) = some nd → nd.tile = k.dstTile → nd.plan.small = true → k.p.pay 1 1 % 16 = nd.cur →
      nd.plan.root = false → k.p.h.srcRank = nd.plan.parent →
      exec (.smallDown pid) s = .next (finish s
        (let u := openRound k.die k.p.h.field (k.p.pay 2 2) false (taking s pid k)
         settleNode k.die k.p.h.field (k.p.pay 2 2) (u.forAll ((List.range nd.plan.targets.length).zip nd.plan.targets) (fun x v =>
           v.forAll (blocksOf nd.plan x.2) (fun e v => sendOnce k.die k.p.h.field (k.p.pay 2 2) x.1 e x.2
             (if (k.p.pay 1 1).testBit 4 then none else some (k.p.body.drop 16)) v)))))) ∧
  (∀ (s : State) (pid a n : Nat) (k : Pkt), Handed s pid k 2 → k.p.h.typ = 0x06 → s.ownsTile2 k.die k.dstTile k.p.h.field = true →
      k.p.h.roleEpoch = s.roleEpoch k.die k.dstTile → oneBlock (k.p.pay 5 5) 16 = true →
      windowAt s k.die k.dstTile (k.p.pay 4 1) (k.p.pay 5 5) (smallLen s k.p.h.field (k.p.pay 2 2)) true = some a → refSlot s k.die k.dstTile (k.p.pay 10 4) = some n → s.aged k.p.h = false →
      exec (.smallResult pid) s = .next (finish s
        (if (k.p.pay 1 1).testBit 4 then creditRef k.die k.dstTile n true (taking s pid k)
         else creditRef k.die k.dstTile n false (commit k.die k.dstTile a ((k.p.body.drop 16).take (smallLen s k.p.h.field (k.p.pay 2 2))) (taking s pid k)))))

/-- For SUM, MEAN, ISUM, AND, OR and XOR: adding the same LEAF elements into a cleared lane in two orders leaves the same lane. -/
def Obligations.LanesIgnoreTheOrder : Prop :=
  ∀ (p : SheafPlan) (l m : List (Nat × Machine.Num)), (opSum p.op = true ∨ p.op = 3 ∨ opBits p.op = true) → l.Perm m →
    let add (a : Lane320 × Nat) (x : Nat × Machine.Num) : Lane320 × Nat := (mergeLane p (a.2 = 0) a.1 (leafLane p x.1 x.2), a.2 + 1)
    l.foldl add ({}, 0) = m.foldl add ({}, 0)

/-! ## The Winnower and the Gleaner (chapter 10) -/

/-- WINNOW_DEFINE of a plan that no check refuses leaves the job with CUR_ROUND 0; WINNOW_QUERY answers its state; WINNOW_UNDEFINE removes it, or is refused with 0x03 while its round is open. WINNOW_IN with none of its blocks received: its bits and end are recorded and it is acknowledged, and it is taken into the open round, opened if need be, or held for the next; one of another round or wholly received before is acknowledged and counted. WINNOW_ROUND_PROCESS of an intact complete round, with MERGE inputs in order, writes a SCATTER's table, sends every output block and advances the round; after a checker failure the round closes poisoned. WINNOW_DEADLINE closes an incomplete round as poisoned. -/
def Obligations.WinnowerCommandsComplete : Prop :=
  (∀ (s : State) (d t n slot : Nat) (w : List Byte), d < 8 → t < 2048 → inCall s d t 0x0020 = some (n, w) → resOk w 0 = true → argsZero w 1 = true →
      arg w 0 % 64 = 0 → arg w 0 + 64 ≤ tileSize →
      let h := s.readMem d t (arg w 0) 64
      let len := 64 + 16 * (h.getD 6 0).toNat + 32 * (h.getD 7 0).toNat
      let l := s.readMem d t (arg w 0) len
      let p := winnowPlanOf l
      let f := (s.tileField d t).getD 0
      arg w 0 + len ≤ tileSize → s.tileSlot d t = some slot → winnowPlanOk l p = true → engineFits s d slot p.deadlineUs = true →
      s.job f p.job = none → jobsUsed s d f < s.fld F.WN_GRANT_JOBS [d, slot] →
      exec (.winnowDefine d t) s = .next (finish s (endCall d t n none []
        (s.setJob f p.job (some { die := d, tile := t, rank := (s.tileRank d t).getD 0, plan := p }))))) ∧
  (∀ (s : State) (d t n f : Nat) (w : List Byte) (x : WinnowJob), d < 8 → t < 2048 → inCall s d t 0x0021 = some (n, w) → resOk w 0 = true → arg w 0 < 256 →
      argsZero w 1 = true → ownJob s d t (arg w 0) = some (f, x) →
      exec (.winnowUndefine d t) s = .next (finish s
        (if x.openedAt.isSome then endCall d t n (some 0x03) [] s else endCall d t n none [] (removeJob f (arg w 0) s)))) ∧
  (∀ (s : State) (d t n f : Nat) (w : List Byte) (x : WinnowJob), d < 8 → t < 2048 → inCall s d t 0x0022 = some (n, w) → resOk w 2 = true → arg w 0 < 256 →
      argsZero w 1 = true → ownJob s d t (arg w 0) = some (f, x) →
      exec (.winnowQuery d t) s = .next (finish s (endCall d t n none
        [x.cur + 16 * (if x.openedAt.isSome then 1 else 0) + 32 * (if x.now_.poisoned then 1 else 0), x.recs.length] s))) ∧
  (∀ (s : State) (pid i : Nat) (k : Pkt) (x : WinnowJob), Handed s pid k 4 → k.p.h.typ = 0x84 → s.ownsTile2 k.die k.dstTile k.p.h.field = true → s.fieldFenced k.p.h.field = false →
      s.job k.p.h.field k.p.window = some x → x.die = k.die → x.tile = k.dstTile → winInput x.plan k.p = some i → k.p.elemBase / 2 ^ 28 = x.cur →
      tabGet 0 x.now_.ends [i] = 0 → 0 < winNelem k.p →
      let bs := (List.range ((winNelem k.p + 63) / 64)).map (fun b => k.p.elemBase % 2 ^ 28 / 64 + b)
      (∀ b ∈ bs, tabGet 0 x.now_.recv [i, b] ≠ 1) →
      exec (.winnowIn pid) s = .next (finish s (winnowTake k.p.h.field k.p.window pid (openJob k.p.h.field k.p.window
        (modJob k.p.h.field k.p.window
          (fun y => { y with now_ := { x.now_ with recv := bs.foldl (fun (tb : Tab Nat) (b : Nat) => tabSet 0 tb [i, b] 1) x.now_.recv, ends := if winLast k.p then tabSet 0 x.now_.ends [i] (k.p.elemBase % 2 ^ 28 + winNelem k.p + 1) else x.now_.ends } })
          (sendAck k.die 2048 k.p (.engine k.die) (noteMark k.die 2048 k.p (taking s pid k)))))))) ∧
  (∀ (s : State) (pid i : Nat) (k : Pkt) (x : WinnowJob), Handed s pid k 4 → k.p.h.typ = 0x84 → s.ownsTile2 k.die k.dstTile k.p.h.field = true → s.fieldFenced k.p.h.field = false →
      s.job k.p.h.field k.p.window = some x → x.die = k.die → x.tile = k.dstTile → winInput x.plan k.p = some i →
      k.p.elemBase / 2 ^ 28 ≠ x.cur → k.p.elemBase / 2 ^ 28 ≠ (x.cur + 1) % 16 →
      exec (.winnowIn pid) s = .next (finish s (sendAck k.die 2048 k.p (.engine k.die) ((taking s pid k).bump F.WN_STAT_STALE [k.die])))) ∧
  (∀ (s : State) (pid i : Nat) (k : Pkt) (x : WinnowJob), Handed s pid k 4 → k.p.h.typ = 0x84 → s.ownsTile2 k.die k.dstTile k.p.h.field = true → s.fieldFenced k.p.h.field = false →
      s.job k.p.h.field k.p.window = some x → x.die = k.die → x.tile = k.dstTile → winInput x.plan k.p = some i →
      k.p.elemBase / 2 ^ 28 = x.cur → tabGet 0 x.now_.ends [i] = 0 → 0 < winNelem k.p →
      (∀ b, b < (winNelem k.p + 63) / 64 → tabGet 0 x.now_.recv [i, k.p.elemBase % 2 ^ 28 / 64 + b] = 1) →
      exec (.winnowIn pid) s = .next (finish s (sendAck k.die 2048 k.p (.engine k.die) ((taking s pid k).bump F.WN_STAT_DUPLICATE [k.die])))) ∧
  (∀ (s : State) (pid i : Nat) (k : Pkt) (x : WinnowJob), Handed s pid k 4 → k.p.h.typ = 0x84 → s.ownsTile2 k.die k.dstTile k.p.h.field = true → s.fieldFenced k.p.h.field = false →
      s.job k.p.h.field k.p.window = some x → x.die = k.die → x.tile = k.dstTile → winInput x.plan k.p = some i →
      k.p.elemBase / 2 ^ 28 ≠ x.cur → k.p.elemBase / 2 ^ 28 = (x.cur + 1) % 16 → tabGet 0 x.next_.ends [i] = 0 → 0 < winNelem k.p → winLast k.p = false →
      k.p.h.tailback = 0 →
      let bs := (List.range ((winNelem k.p + 63) / 64)).map (fun b => k.p.elemBase % 2 ^ 28 / 64 + b)
      (∀ b ∈ bs, tabGet 0 x.next_.recv [i, b] ≠ 1) →
      exec (.winnowIn pid) s = .next (finish s
        (let u := modJob k.p.h.field k.p.window
          (fun y => { y with next_ := { x.next_ with recv := bs.foldl (fun (tb : Tab Nat) (b : Nat) => tabSet 0 tb [i, b] 1) x.next_.recv, held := x.next_.held ++ [pid] } })
          (sendAck k.die 2048 k.p (.engine k.die) (taking s pid k))
         match u.pkt pid with
         | some y => u.setPkt pid (some { y with stage := .held })
         | none => u))) ∧
  (∀ (s : State) (f j : Nat) (x : WinnowJob), f < 4096 → s.job f j = some x → x.openedAt ≠ none → inputComplete x = true → s.fieldFenced f = false →
      x.now_.poisoned = false → workIntact s x = true → (x.plan.op = 6 → mergeOrdered x.plan x.recs = true) →
      let o := (winnowResult x.plan x.recs (tableElems x.plan x.table)).tidy x.plan
      exec (.winnowRoundProcess f j false) s = .next (finish s (advanceJob f j
        ((if x.plan.op = 5 then s.writeMem x.die x.tile x.plan.tableOff (o.vals.flatMap (leBytes (unitBytes x.plan.tableFmt 1))) else s).forAll
          x.plan.targets (fun t u => u.forAll (winBlocks x.plan t) (fun b v => sendOut f x t o b.1 b.2 v)))))) ∧
  (∀ (s : State) (f j : Nat) (x : WinnowJob), f < 4096 → s.job f j = some x → x.openedAt ≠ none → inputComplete x = true → s.fieldFenced f = false →
      exec (.winnowRoundProcess f j true) s = .next (finish s (poisonJob f j true s))) ∧
  (∀ (s : State) (f j m : Nat) (x : WinnowJob), f < 4096 → s.job f j = some x → x.openedAt = some m → m + 16000 * x.plan.deadlineUs ≤ s.now → inputComplete x = false →
      exec (.winnowDeadline f j) s = .next (finish s (poisonJob f j false (s.log 0x0E 0x04 x.die (beBytes 2 j ++ beBytes 3 x.rank) f))))

/-- For records that no two of share stream, source rank and element index, all of stream 0 unless OP is SCATTER: two orders of arrival give the same output elements, tags and counts for every operation. -/
def Obligations.WinnowerIgnoresTheOrder : Prop :=
  ∀ (p : WinnowPlan) (l m : List WinnowRec) (table : List Nat), l.Perm m → (l.map (fun r => (r.stream, r.rank, r.idx))).Nodup →
    (p.op ≠ 5 → ∀ r ∈ l, r.stream = 0) → winnowResult p l table = winnowResult p m table

/-- GL_DEFINE of a descriptor that no check refuses zeroes the context's Bales and defines it; GL_UNDEFINE removes a context without queries; GL_STATUS answers its state. GLEAN_KV that breaks no rule is committed into its Bale and acknowledged. GLEAN_QUERY that passes the home slice's checks is held. GLEAN_BATCH_START starts whole queries up to 64 heads and selects their Bales. BALE_TASK_DONE keeps a tile's partials, and a checker failure poisons the query. GLEAN_RESULT_FORM sends the result once every tile has yielded, or STATUS LOST or POISONED at once; GLEAN_DEADLINE sends STATUS DEADLINE. GLEAN_RESULT_RECEIVE of an OPEN tag commits the payload and credits once, or commits 192 bytes with a poisoned credit where STATUS is not OK. -/
def Obligations.GleanerCommandsComplete : Prop :=
  (∀ (s : State) (d t n slot : Nat) (w : List Byte), d < 8 → t < 2048 → inCall s d t 0x0030 = some (n, w) → resOk w 0 = true → argsZero w 1 = true →
      arg w 0 % 64 = 0 → arg w 0 + 64 ≤ tileSize →
      let len := 64 + 8 * ((s.readMem d t (arg w 0) 64).getD 6 0).toNat
      let l := s.readMem d t (arg w 0) len
      let c := ctxOf ((s.tileField d t).getD 0) d t ((s.tileRank d t).getD 0) l
      let no := leNat (l.take 2)
      arg w 0 + len ≤ tileSize → s.tileSlot d t = some slot → ctxOk s c l = true → engineFits s d slot c.deadlineUs = true →
      s.fld F.GL_GRANT_CTX_BASE [slot] ≤ no → no < s.fld F.GL_GRANT_CTX_BASE [slot] + s.fld F.GL_GRANT_CTX_COUNT [slot] → s.ctx no = none →
      (homedOn s d).length < 512 → (∀ r ∈ c.rows, s.rowOwner1 r.1 r.2 = some slot) → c.rows.Nodup →
      exec (.glDefine d t) s = .next (finish s (endCall d t n none [] ((zeroBales c s).setCtx no (some c))))) ∧
  (∀ (s : State) (d t n : Nat) (w : List Byte) (c : GlCtx), d < 8 → t < 2048 → inCall s d t 0x0031 = some (n, w) → resOk w 0 = true → arg w 0 < 4096 →
      argsZero w 1 = true → s.ctx (arg w 0) = some c → c.die = d → c.tile = t →
      exec (.glUndefine d t) s = .next (finish s
        (if c.queries ≠ [] then endCall d t n (some 0x03) [] s else endCall d t n none [] (s.setCtx (arg w 0) none)))) ∧
  (∀ (s : State) (d t n : Nat) (w : List Byte) (c : GlCtx), d < 8 → t < 2048 → inCall s d t 0x0032 = some (n, w) → resOk w 2 = true → arg w 0 < 4096 →
      argsZero w 1 = true → s.ctx (arg w 0) = some c → s.tileField d t = some c.field →
      exec (.glStatus d t) s = .next (finish s (endCall d t n none
        [(if c.lost then 1 else 0) + 2 * (if c.queries.any (·.started) then 1 else 0) + 256 * min (c.queries.filter (fun q => !q.started)).length 255, c.completed] s))) ∧
  (∀ (s : State) (pid d t off : Nat) (k : Pkt) (l : List Byte), Handed s pid k 2 → k.p.h.typ = 0x88 → s.ownsTile2 k.die k.dstTile k.p.h.field = true →
      kvPlace s k.p = some (d, t, off, l) → s.aged k.p.h = false →
      exec (.gleanKv pid) s = .next (finish s (sendAck k.die k.dstTile k.p (.tile k.die k.dstTile) (commit k.die k.dstTile off l (taking s pid k))))) ∧
  (∀ (s : State) (pid : Nat) (k : Pkt) (c : GlCtx), Handed s pid k 4 → k.p.h.typ = 0x86 → s.ownsTile2 k.die k.dstTile k.p.h.field = true → s.fieldFenced k.p.h.field = false → s.ctx k.p.glContext = some c →
      c.field = k.p.h.field → c.die = k.die → c.tile = k.dstTile → queryOk c k.p = true → k.p.h.tailback = 0 →
      exec (.gleanQuery pid) s = .next (finish s (((taking s pid k).setPkt pid (some { k with stage := .held })).setCtx k.p.glContext
        (some { c with queries := c.queries ++ [{ id := pid, p := k.p, acceptedAt := s.now }] })))) ∧
  (∀ (s : State) (n : Nat) (c : GlCtx), n < 4096 → s.ctx n = some c → c.lost = false → (∀ q ∈ c.queries, q.started = false) → s.fieldFenced c.field = false →
      exec (.gleanBatchStart n) s = .next (finish s (s.setCtx n (some { c with queries := c.queries.map (fun q =>
        if q.id ∈ batchOf 64 c.queries then { q with started := true, bales := selectBales s c (askOf q.p.data) (headsOf c q) } else q) })))) ∧
  (∀ (s : State) (n id t : Nat) (c : GlCtx) (q : GlQuery) (fault : Bool), n < 4096 → liveQuery s n id = some (c, q) → c.lost = false → balesOn c q t ≠ [] → tabGet [] q.parts [t] = [] →
      exec (.baleTaskDone n id t fault) s = .next (finish s
        (let u := modQuery n id (fun q' => { q' with parts := tabSet [] q'.parts [t] ((headsOf c q).map (fun h => tilePart s c (askOf q.p.data) h (balesOn c q t))) }) s
         if fault then poisonQuery n id true u else u))) ∧
  (∀ (s : State) (n id : Nat) (c : GlCtx) (q : GlQuery), n < 4096 → s.ctx n = some c → c.queries.find? (fun q => q.id = id) = some q →
      (c.lost = true ∨ q.poisoned = true ∨ (q.started = true ∧ allYielded c q = true)) →
      exec (.gleanResultForm n id) s = .next (finish s (sendResult n id (if c.lost then 2 else if q.poisoned then 1 else 0) s))) ∧
  (∀ (s : State) (n id : Nat) (c : GlCtx) (q : GlQuery), n < 4096 → s.ctx n = some c → c.queries.find? (fun q => q.id = id) = some q →
      q.acceptedAt + 16000 * c.deadlineUs ≤ s.now →
      exec (.gleanDeadline n id) s = .next (finish s (sendResult n id 3
        ((s.log 0x0E 0x05 c.die (beBytes 2 n ++ beBytes 3 q.p.h.srcRank) c.field).report
          ⟨2, true, [32, c.die], c.die, c.die, c.field, none, false, 0x06, 0x05, true, beBytes 2 n⟩)))) ∧
  (∀ (s : State) (pid a n : Nat) (k : Pkt) (q : Packet), Handed s pid k 2 → k.p.h.typ = 0x87 → k.p.h.tailback = 0 → s.ownsTile2 k.die k.dstTile k.p.h.field = true →
      s.aged k.p.h = false → (s.tagOf k.die k.dstTile k.p.h.tagIndex).epoch = k.p.h.tagEpoch → (s.tagOf k.die k.dstTile k.p.h.tagIndex).st = .opened →
      (s.tagOf k.die k.dstTile k.p.h.tagIndex).req = some q → q.h.typ = 0x86 → k.p.offset % 64 = 0 →
      windowAt s k.die k.dstTile k.p.window k.p.offset k.p.data.length true = some a → refSlot s k.die k.dstTile k.p.waybillRef = some n →
      exec (.gleanResultReceive pid) s = .next (finish s
        (if (k.p.data.headD 0).toNat ≠ 0 then completeTag k.die k.dstTile k.p.h.tagIndex 0x05 0
            (creditRef k.die k.dstTile n true (commit k.die k.dstTile a (k.p.data.take 192) (taking s pid k)))
         else completeTag k.die k.dstTile k.p.h.tagIndex 0 0 (creditRef k.die k.dstTile n false (commit k.die k.dstTile a k.p.data (taking s pid k))))))

/-! ## Security and trust (chapter 11) -/

/-- In KEY with the Trust Core ready and fewer than eight handshakes that began before: HELLO with another NONCE, from a kind that suits the port, is answered with KEMCT where the chain is accepted and ABORT where it is not; KEMCT with FINISH, signed over the transcript; FINISH whose signature verifies forms the keys and is answered with DONE, another with ABORT 0x04; DONE after all that installs both directions and enters UP. ABORT with REASON 0x02 or 0x03 is a failed attempt, with another REASON a refusal of identity. REKEY_START marks a key after 2^31 packets or 5 minutes, KEY_INSTALLED takes the next key and inverts KP, and KEY_RETIRE after 2^32 packets or 10 minutes enters KEY. -/
def Obligations.LinkHandshakeCompletes : Prop :=
  (∀ (s : State) (h : Nat) (r : HsRec) (b : List Byte), h < 16 → s.link h = 3 → s.trustReady = true → s.hsOn h = some r → s.hsTurn r.startedAt h = true → 1 ∉ r.got → r.keys = none →
      helloForm 0 b = true → helloNonce b ≠ helloNonce r.myHello → roleOk s h (certKind ((helloChain b).take 5518)) = true →
      exec (.hello h (some b)) s = .next (finish s
        (match chainCheck s ((helloChain b).take 5518) ((helloChain b).drop 5518) with
         | .error e => abortActs h e (sendHs h 5 e [] s)
         | .ok pk =>
           let v := cacheIssuer ((helloChain b).drop 5518) s
           let ct := bytesOfLen 1088 (Config.kemCipher (helloKem b) v.fresh)
           let r1 : HsRec := { r with peerHello := b, partner := pk, kemDraw := v.fresh, myKem := ct, got := r.got ++ [1], sent := r.sent ++ [2] }
           (sendHs h 2 0 ct (v.tick.setHs h (some r1))).setHs h (some r1)))) ∧
  (∀ (s : State) (h : Nat) (r : HsRec) (b : List Byte), h < 16 → s.link h = 3 → s.trustReady = true → s.hsOn h = some r → s.hsTurn r.startedAt h = true → 1 ∈ r.got → 2 ∉ r.got → r.keys = none → b.length = 1088 →
      exec (.kemct h (some b)) s = .next (finish s
        (let r1 : HsRec := { r with peerKem := b, got := r.got ++ [2], sent := r.sent ++ [3] }
         let x := signWith "YFK LINK HS" (transcript "YFK LINK HS" r1) s
         (sendHs h 3 0 x.1 (x.2.setHs h (some r1))).setHs h (some r1)))) ∧
  (∀ (s : State) (h : Nat) (r : HsRec) (b : List Byte), h < 16 → s.link h = 3 → s.trustReady = true → s.hsOn h = some r → s.hsTurn r.startedAt h = true → 2 ∈ r.got → 3 ∉ r.got → 4 ∉ r.got →
      exec (.finish h (some b)) s = .next (finish s
        (if sigOk r.partner "YFK LINK HS" (transcript "YFK LINK HS" r) b = true then
           let r1 : HsRec := { r with keys := some (pairOf r), got := r.got ++ [3], sent := r.sent ++ [4] }
           (sendHs h 4 0 [] (s.setHs h (some r1))).setHs h (some r1)
         else abortActs h 0x04 (sendHs h 5 0x04 [] s)))) ∧
  (∀ (s : State) (h : Nat) (r : HsRec) (tx rx : LinkSecret), h < 16 → s.link h = 3 → s.trustReady = true → s.hsOn h = some r → s.hsTurn r.startedAt h = true → s.isEth h = false → 1 ∈ r.got → 4 ∉ r.got →
      4 ∈ r.sent → r.keys = some (tx, rx) →
      exec (.done h) s = .next (finish s (installBoth h (enterUp h
        ((((s.setHs h (some { r with got := r.got ++ [4] })).setHs h none).setSecret h 0 (some tx)).setSecret h 1 (some rx)))))) ∧
  (∀ (s : State) (h reason : Nat) (r : HsRec), h < 16 → reason < 256 → s.keyPhase h = true → s.hsOn h = some r → s.isEth h = false →
      exec (.abort h reason) s = .next (finish s (if reason = 2 ∨ reason = 3 then attemptFailed h true s else refuseIdentity h reason s))) ∧
  (∀ (s : State) (h : Nat), h < 16 → s.link h = 4 → (s.half h).keys.txValid = true →
      (2 ^ 31 ≤ (s.half h).keys.txCount ∨ (s.half h).keys.txAt + 16000 * 300000000 ≤ s.now) →
      exec (.rekeyStart h) s = .next (finish s (s.setFld F.LC_STATUS_REKEY_PENDING 1 (hp h)))) ∧
  (∀ (s : State) (h : Nat) (x : LinkSecret), h < 16 → s.link h = 4 → s.fld F.LC_STATUS_REKEY_PENDING (hp h) = 1 → s.secret h 0 = some x →
      exec (.keyInstalled h) s = .next (finish s
        ((((s.setHalf h { s.half h with keys := { (s.half h).keys with txKp := 1 - (s.half h).keys.txKp, txCount := 0, txAt := s.now } }).setSecret h 0
            (some (nextSecret x.peer x.chain x.nextKey x.nextSalt))).setFld F.LC_STATUS_REKEY_PENDING 0 (hp h)).setFld F.PH_LINK_TX_KP (1 - (s.half h).keys.txKp) (hp h)))) ∧
  (∀ (s : State) (h : Nat), h < 16 → s.link h = 4 → s.isEth h = false → (s.half h).keys.txValid = true →
      (2 ^ 32 ≤ (s.half h).keys.txCount ∨ (s.half h).keys.txAt + 16000 * 600000000 ≤ s.now) →
      exec (.keyRetire h) s = .next (finish s (enterKey h s)))

/-- ATTEST signs the Field's report into tile memory. FUSE_ORDER begins programming, or is refused with the code of the first rule broken; FUSE_ORDER_DONE writes the Season or spoils it. RELAY_START makes a HELLO wait in the mailbox; RELAY of the peer's message leaves the next one there; RELAY_TIMEOUT fails the relay after 100 ms. SESSION's HELLO from a manager key is answered with HELLO and KEMCT, unless its NONCE or Key ID is the device's own. DEBUG_TOKEN opens extended debug exactly when the lock is open, the plan permits it, no slot is held and the token holds; a fresh challenge follows either way. -/
def Obligations.TrustCommandsComplete : Prop :=
  (∀ (s : State) (d t n f : Nat) (w rep : List Byte) (v : State), d < 8 → t < 2048 → inCall s d t 0x0040 = some (n, w) → resOk w 1 = true → arg w 0 % 8 = 0 → arg w 0 + 32 ≤ tileSize →
      arg w 1 % 64 = 0 → arg w 1 + 3789 ≤ tileSize → arg w 2 = 0 → argsZero w 3 = true → s.tileSlot d t = some f →
      signReport 2 f (s.readMem d t (arg w 0) 32) s = some (rep, v) →
      exec (.attest d t) s = .next (finish s (endCall d t n none [3789] (stewardWrite d t (arg w 1) rep v)))) ∧
  (∀ (s u : State) (pid : Nat) (k : Pkt) (x : Xfer) (l : List Byte), Filled s pid k x l u → x.target = 5 →
      exec (.fuseOrder pid) s = .next (finish s (ended k x
        (let v := u.setFld F.FS_ORDER_GROUP (byteNat l 3 1)
         if orderBar u l = 0 then ((stOk, 0), { v.setFld F.FS_ORDER_BUSY 1 with trust := { v.trust with order := some (l.take 128) } })
         else ((stTarget, orderBar u l), orderOutcome (orderBar u l) v))))) ∧
  (∀ (s : State) (ok : Bool) (l : List Byte), s.trust.order = some l →
      exec (.fuseOrderDone ok) s = .next (finish s
        (let u : State := { s.setFld F.FS_ORDER_BUSY 0 with trust := { s.trust with order := none } }
         if ok then orderOutcome 1 ((orderApply l u).bump F.FS_ORDER_ORDERS) else orderOutcome 7 (orderSpoil l u)))) ∧
  (∀ (s u v : State) (pid : Nat) (k : Pkt) (y : RegSpec) (q : List Nat), AskedWrite s pid k u y q → y.reg = .TC_RELAY → (reqOf k.p).value / 128 % 2 = 1 → u.trustReady = true →
      plainWrite y q (reqOf k.p).value u = .ok v →
      exec (.relayStart pid) s = .next (finish s
        (let r := newHandshake 1 0 ((v.setFld F.TC_RELAY_START 0).setFld F.TC_RELAY_STATE 1)
         let t : State := { r.2 with trust := { r.2.trust with relay := some r.1, mailbox := some r.1.myHello } }
         told k stOk (t.regWord y q) t))) ∧
  (∀ (s u v : State) (pid : Nat) (k : Pkt) (x : Xfer) (l : List Byte) (r r1 : HsRec) (m : Nat × List Byte), Filled s pid k x l u → x.target = 7 → u.trust.relay = some r → u.hsTurn r.startedAt 16 = true →
      relayStep r l u = .go r1 [m] v → r1.over = false →
      exec (.relay pid) s = .next (finish s (ended k x ((stOk, 0), { v with trust := { v.trust with relay := some r1, mailbox := some m.2 } })))) ∧
  (∀ (s : State) (r : HsRec), s.trust.relay = some r → r.startedAt + 16000 * 100000 ≤ s.now →
      exec .relayTimeout s = .next (finish s { s.setFld F.TC_RELAY_STATE 3 with trust := { s.trust with relay := none, mailbox := none } })) ∧
  (∀ (s : State) (pid key : Nat) (k : Pkt) (m : List Byte), mgrPkt s pid 0x8F = some k → checkOk k.p = true → sessionWaits s k.p = false → dataHdrOf k.p = ⟨1, 1, key, 0, 0, 3366⟩ → dataMalformed k.p = false → allZero (k.p.body.drop 24) = true →
      (freePkt pid 8 s).trustReady = true → m = k.p.data.take 3366 → m.length = 3366 → m.take 4 = [1, 2, 0, 0] →
      let r := newHandshake 2 0 (freePkt pid 8 s)
      r.2.trust.image.mgrKeys[key]?.map keyId = some (keyId (helloChain m)) →
      exec (.session pid) s = .next (finish s
        (if helloNonce m = helloNonce r.1.myHello then r.2.setMgrHs key none
         else if keyId (helloChain m) = ownId then (r.2.bump F.TC_STATUS_REFUSALS).setMgrHs key none
         else
         let ct := bytesOfLen 1088 (Config.kemCipher (helloKem m) r.2.fresh)
         (sendSession k.die k.p key ct (sendSession k.die k.p key r.1.myHello r.2.tick)).setMgrHs key
           (some { r.1 with peerHello := m, partner := helloChain m, kemDraw := r.2.fresh, myKem := ct, got := [1], sent := [1, 2] })))) ∧
  (∀ (s : State) (b : List Byte), s.fld F.TC_STATUS_STATE = 1 →
      exec (.debugToken b) s = .next (finish s (issueChallenge
        (if s.fld F.FS_SEASONS_DEBUG_LOCK = 0 ∧ planDebugPermit s = true ∧ s.heldSlots = [] ∧ tokenOk s b = true then
           (s.setFld F.TC_STATUS_DEBUG_OPENED 1).log 0x0B 0x05 8 (trustDetail s 0 0)
         else s.log 0x0B 0x06 8 (trustDetail s 0 0)))))

/-! ## Start-up, power and the board (chapters 12 to 14) -/

/-- VAUX_UP starts the VAUX domain; VAUX_LOSS empties the device but for its fuses; PWR_GOOD rises and falls; RESET_N low begins a sample of every die. BOOT_START from device reset samples the straps, ramps and powers every die and checks the fuses; contradicting straps give result 0x0E, a fuse fault 0x0F, and either leaves the device unseeded. MEMORY_SELF_TEST_DONE of boot tests every die and the Trust Core and goes on to wait for an image; of a die in reset, it ends the reset, loads its Almanac stores and opens its gate where no fenced Field has rows there. IMAGE_STAGED at the head logs the source's result and goes to the next source where a check fails, and else streams and applies the image; at a follower it applies the stream and answers with STATUS. CHAIN_FRAME_RECEIVE at a follower forwards and stages; STATUS of a position at the head is noted; CHAIN_STATUS_TIMEOUT notes 0x0C and FOLLOWER_TIMEOUT unseeds with 0x0D. VCORE_SETTLE notes the package's power and gives a powered die no region of which reads pace 0 its voltage: within 650 and 850 mV, not raised above 95 °C or over the power cap (model's choices, logs 164 and 190), and with live scheduled traffic not below the floor in force. The SMBus target answers a read of a register or snapshot bank, or FORMAT, in ten bytes, most significant first, and its own address to ALERT_RESPONSE. THERMAL_TRIP logs and takes every supply away; OVERCURRENT_TRIP logs, fences the die's Fields, takes its supply away and closes its gate. -/
def Obligations.BootCommandsComplete : Prop :=
  (∀ (s : State), s.boot.vaux = false →
      exec .vauxUp s = .next (finish s { s with boot := { s.boot with vaux := true }, time := { s.time with trimSeason := s.fld F.FS_SEASONS_TRIM } })) ∧
  (∀ (s : State), ∃ t, exec .vauxLoss s = .next t ∧ t.boot.vaux = false ∧ t.boot.pwrGood = false ∧ t.mem = [] ∧ t.tiles = {} ∧ t.gran = {} ∧ t.ni = {} ∧ t.halves = [] ∧
      t.recorder = {} ∧ t.time = {} ∧ t.sheaf = {} ∧ t.engine = {} ∧ t.pending = s.pending ∧
      (s.trust.order = none → t.trust.trims = s.trust.trims ∧ (∀ n w, t.fld F.FS_OWNER_HASH_HASH [n, w] = s.fld F.FS_OWNER_HASH_HASH [n, w]) ∧
        (∀ n w, t.fld F.FS_HEDGE_HASH_HASH [n, w] = s.fld F.FS_HEDGE_HASH_HASH [n, w]) ∧ t.fld F.FS_SEASONS_OWNER = s.fld F.FS_SEASONS_OWNER)) ∧
  (∀ (s : State), s.boot.vaux = true → exec .pwrGoodRise s = .next (finish s { s with boot := { s.boot with pwrGood := true } })) ∧
  (∀ (s : State), s.boot.pwrGood = true →
      exec .pwrGoodFall s = .next (finish s
        (let u := (deviceReset false (cutSample ((linksDown (List.range 16) 3 s).forAll dies dieOff))).setFld F.PW_CAP_THERM_TRIPPED 0
         { u with boot := { u.boot with pwrGood := false } }))) ∧
  (∀ (s : State), s.boot.resetN = true →
      exec .resetNFall s = .next (finish s
        (let v : State := { s with boot := { s.boot with resetN := false, byMessage := false } }
         let cut := match s.safe.request with
           | some r => r.kind == 2 && !r.begun
           | none => false
         let u := beginSample 1 0xFF cut (linksDown (List.range 16) 3 v)
         if s.boot.pwrGood = false ∨ s.fld F.SL_STATUS_STATE = 0 then v else { u with safe := { u.safe with request := none } }))) ∧
  (∀ (s base : State) (head fuseOk : Bool) (pos : Nat), pos < 4 → s.boot.vaux = true → s.boot.pwrGood = true → s.fld F.PW_CAP_THERM_TRIPPED ≠ 1 →
      ((s.recorder.sample = none ∧ s.fld F.SL_STATUS_STATE = 0 ∧ base = s) ∨ (∃ x, s.recorder.sample = some x ∧ x.cause = 1 ∧ base = deviceReset false (cutSample s))) →
      exec (.bootStart head pos fuseOk) s = .next (finish s
        (let u := if base.boot.byMessage = true then base else (base.setFld F.SL_STATUS_ROLE (b2n head)).setFld F.SL_STATUS_POS pos
         let v : State := { u with boot := { u.boot with resetN := true, byMessage := false, bootAt := u.now } }
         let w := (v.forAll dies rampDie).setFld F.SL_STATUS_STATE 1
         let x := if fuseOk = true then w else w.setFld F.FS_SEASONS_FUSE_FAULT 1
         if (x.fld F.SL_STATUS_ROLE = 1 ↔ x.fld F.SL_STATUS_POS = 0) then (if fuseOk = true then x else (sourceResult 0 0x0F x).setFld F.SL_STATUS_STATE 5)
         else (sourceResult 0 0x0E x).setFld F.SL_STATUS_STATE 5))) ∧
  (∀ (s : State) (failed : List Nat) (trustOk codeOk : Bool), (∀ x ∈ failed, x < 272) → s.fld F.SL_STATUS_STATE = 1 →
      exec (.memorySelfTestDone none failed trustOk codeOk) s = .next (finish s
        (let u := trustTest trustOk (s.forAll dies (testRows failed))
         issueChallenge ((u.setFld F.SL_TIMES_TESTED_MS (bootMs u)).setFld F.SL_STATUS_STATE 2)))) ∧
  (∀ (s : State) (d : Nat) (failed : List Nat) (trustOk codeOk : Bool) (r : ResetReq), d < 8 → (∀ x ∈ failed, x < 272) → s.safe.request = some r → r.begun = true → r.target = d →
      r.kind = 2 ∨ r.kind = 5 →
      exec (.memorySelfTestDone (some d) failed trustOk codeOk) s = .next (finish s
        (let u := (((testRows failed d s).setFld F.SM_DIE_STATE_FENCED 0 [d]).setFld F.SM_DIE_STATE_CAUSE 0 [d]).setFld F.SM_DIE_STATE_FIRST_SEQ 0 [d]
         let v := endRecovery [2, 2 * d + 1] (endRecovery [2, 2 * d] (endRecovery [1, d] (u.setBit F.SM_STATUS_DIES_FENCED d false)))
         let w := syncMaps d (reloadFlds r.regs v)
         reopenDies (endRequest 1 (if codeOk = true then loadAlmanac w d
           else w.report { row := 12, consequential := false, unit := [30], die := d, die2 := d, field := 0xFFFF, lrow := none, stall := false, cls := 0, code := 0, poisoned := false, detail := [] }))))) ∧
  (∀ (s : State) (src : Nat) (r : NvmRead), src < 2 → r.densityLog2 < 64 → r.jedec < 2 ^ 24 → s.fld F.SL_STATUS_ROLE = 1 →
      (s.fld F.SL_STATUS_STATE = 2 ∨ (s.boot.applied = true ∧ (s.fld F.SL_STATUS_STATE = 3 ∨ s.fld F.SL_STATUS_STATE = 4))) → s.boot.trying = src → s.boot.endAt = none →
      let absent := r.sfdpOk = false ∨ nvmMode r = 0 ∨ 2 ^ r.densityLog2 < 64 + 5518
      let u := ((s.setFld F.SL_NVM_MODE (if absent then 0 else nvmMode r) [src]).setFld F.SL_NVM_DENSITY_LOG2 r.densityLog2 [src]).setFld F.SL_NVM_JEDEC_ID r.jedec [src]
      let hdr := bytesOfLen 64 r.bytes
      let sig := bytesOfLen 5518 (r.bytes.drop (imageLen hdr))
      let img := bytesOfLen (imageLen hdr) r.bytes
      let bar := if absent then 2 else if headerOk hdr = true ∧ 2 ^ r.densityLog2 < imageLen hdr + 5518 then 3 else blockBar u hdr sig
      exec (.imageStaged src r) s = .next (finish s
        (if bar ≠ 0 then nextSource (sourceResult src bar u)
         else
         let v := streamImage src img sig u
         let w := if v.boot.applied = true then v else match applyImage img sig v with
           | .error 7 => nextSource (sourceResult src 7 v)
           | .error e => nextSource (sourceResult src e (v.setFld F.SL_TIMES_VERIFIED_MS (bootMs v)))
           | .ok t => seedWith img.length (src + 1) 0 (sourceResult src 1 (t.setFld F.SL_TIMES_VERIFIED_MS (bootMs v)))
         if w.boot.trying = src ∧ w.boot.endAt.isNone = true then { w with boot := { w.boot with trying := 2 } } else w))) ∧
  (∀ (s : State) (r : NvmRead) (x : ChainStream), r.densityLog2 < 64 → r.jedec < 2 ^ 24 → s.fld F.SL_STATUS_ROLE = 0 → s.fld F.SL_STATUS_STATE = 2 →
      s.boot.applied = false → s.boot.stream = some x → x.ended = true →
      exec (.imageStaged 2 r) s = .next (finish s
        (let answer (code : Nat) (t : State) : State :=
           let u := sourceResult (x.source - 1) code { t with boot := { t.boot with stream := none } }
           u.emit (.chain (chainFrame 5 0 (beBytes 1 (u.fld F.SL_STATUS_POS) ++ beBytes 1 code ++ beBytes 1 x.attempt)))
         let bar := if x.bad = true then 0x0C else if x.data.take 64 ≠ x.header ∨ x.data.length ≠ imageLen x.header then 3 else blockBar s x.header x.sig
         if bar ≠ 0 then answer bar s
         else match applyImage x.data x.sig s with
           | .error 7 => answer 7 s
           | .error e => answer e (s.setFld F.SL_TIMES_VERIFIED_MS (bootMs s))
           | .ok t => seedWith x.data.length 3 x.source (answer 1 (t.setFld F.SL_TIMES_VERIFIED_MS (bootMs s)))))) ∧
  (∀ (s : State) (f : ChainFrame), f.wellFormed = true → s.fld F.SL_STATUS_ROLE = 0 → 2 ≤ s.fld F.SL_STATUS_STATE → f.typ = 1 → chainOk f = true → f.payload.length = 66 →
      exec (.chainFrameReceive f) s = .next (finish s
        (let u := (s.emit (.chain f)).setFld F.SL_STATUS_ATTEMPTS (min 7 (s.fld F.SL_STATUS_ATTEMPTS + 1))
         { u with boot := { s.boot with stream := some { source := byteNat f.payload 0 1, attempt := byteNat f.payload 1 1, header := f.payload.drop 2 } } }))) ∧
  (∀ (s : State) (f : ChainFrame) (x : ChainStream), f.wellFormed = true → s.fld F.SL_STATUS_ROLE = 0 → 2 ≤ s.fld F.SL_STATUS_STATE → s.boot.stream = some x → f.typ ≠ 1 →
      x.ended = false →
      exec (.chainFrameReceive f) s = .next (finish s
        (let u := s.emit (.chain f)
         let y : ChainStream := if chainOk f = false then { x with bad := true }
           else if f.typ = 2 then { x with sig := x.sig ++ f.payload, bad := x.bad || decide (x.sig.length ≠ 4096 * f.seq) }
           else if f.typ = 3 then { x with data := x.data ++ f.payload, bad := x.bad || decide (x.data.length ≠ 4096 * f.seq) }
           else if f.typ = 4 then { x with ended := true } else x
         if s.boot.applied = true ∧ y.ended = true then
           { u.emit (.chain (statusFrame (s.fld F.SL_STATUS_POS) 1 x.attempt)) with boot := { s.boot with stream := none } }
         else { u with boot := { s.boot with stream := some y } }))) ∧
  (∀ (s : State) (f : ChainFrame), f.wellFormed = true → s.fld F.SL_STATUS_ROLE = 1 → 2 ≤ s.fld F.SL_STATUS_STATE → s.boot.endAt ≠ none → chainOk f = false →
      exec (.chainFrameReceive f) s = .next (finish s (repeatSource s))) ∧
  (∀ (s : State) (f : ChainFrame), f.wellFormed = true → s.fld F.SL_STATUS_ROLE = 1 → 2 ≤ s.fld F.SL_STATUS_STATE → s.boot.endAt ≠ none → chainOk f = true →
      f.typ = 5 → f.payload.length = 3 → byteNat f.payload 2 1 = s.fld F.SL_STATUS_ATTEMPTS → 1 ≤ byteNat f.payload 0 1 → byteNat f.payload 0 1 < s.boot.board →
      exec (.chainFrameReceive f) s = .next (finish s (noteStatus (byteNat f.payload 0 1) (byteNat f.payload 1 1) s))) ∧
  (∀ (s : State) (pos t : Nat), pos < 4 → s.fld F.SL_STATUS_ROLE = 1 → 1 ≤ pos → pos < s.boot.board → tabGet 0 s.boot.statuses [pos] = 0 → s.boot.endAt = some t → t + 16000 * 100000 ≤ s.now →
      exec (.chainStatusTimeout pos) s = .next (finish s (noteStatus pos 0x0C s))) ∧
  (∀ (s : State), s.fld F.SL_STATUS_ROLE = 0 → s.boot.applied = false → (s.fld F.SL_STATUS_STATE = 1 ∨ s.fld F.SL_STATUS_STATE = 2) → s.boot.bootAt + 16000 * 60000000 ≤ s.now →
      exec .followerTimeout s = .next (finish s ((sourceResult 0 0x0D s).setFld F.SL_STATUS_STATE 5))) ∧
  (∀ (s : State) (d mv watts : Nat), d < 8 → mv < 65536 → watts < 65536 → s.fld F.SM_DIE_STATE_POWERED [d] = 1 →
      exec (.vcoreSettle d mv watts) s = .next (finish s
        (let u := s.setFld F.PW_CAP_PACKAGE_W watts
         if ∃ x ∈ s.safe.paceZero, x / 8 = d then u
         else
         let v := min 850 (max 650 mv)
         let held := if 760 < toSigned 12 (s.fld F.PW_DIE_STATE_TJ [d]) ∨ u.overCap = true then max 650 (min v (s.fld F.PW_DIE_STATE_VCORE_MV [d])) else v
         u.setFld F.PW_DIE_STATE_VCORE_MV (if s.schedLive d = true then max held s.floorInForce.vmin else held) [d]))) ∧
  (∀ (s : State) (data : List Byte) (pecOk : Bool), s.boot.vaux = true → 0x58 + s.fld F.SL_STATUS_POS < 128 →
      exec (.smbusRead (0x58 + s.fld F.SL_STATUS_POS) data pecOk) s = .next (finish s
        (if pecOk = true ∧ data.length = 5 then s.emit (.smbus (smbusReply (s.readReg (beNat data)))) else s.emit (.smbus (smbusReply (stFormat, 0))))) ∧
      exec (.smbusSnapRead (0x58 + s.fld F.SL_STATUS_POS) data pecOk) s = .next (finish s
        (if pecOk = true ∧ data.length = 6 then s.emit (.smbus (smbusReply (s.readSnap (byteNat data 0 1) (byteNat data 1 5))))
         else s.emit (.smbus (smbusReply (stFormat, 0))))) ∧
      exec .alertResponse s = .next (finish s (s.emit (.smbusAlert (0x58 + s.fld F.SL_STATUS_POS))))) ∧
  (∀ (s : State) (d : Nat), d < 8 → s.fld F.SM_DIE_STATE_POWERED [d] ≠ 0 →
      exec (.thermalTrip d) s = .next (finish s
        (deviceReset false (cutSample (((s.log 0x0A 0x03 d (powerDetail s d 0)).setFld F.PW_CAP_THERM_TRIPPED 1).forAll dies dieOff)))) ∧
      exec (.overcurrentTrip d) s = .next (finish s
        (let u := (s.log 0x0A 0x04 d (powerDetail s d 0)).setBit F.PW_CAP_OC_TRIPPED d true
         let v := cancelFallow d (cancelSnaps (some d) (u.forAll (slotsOnDie u d) (fun (n : Nat) (y : State) => fenceField n false y)))
         let w := closeGate (.die d) (endDieRequest d (dieOff d (resetDieUnits d (keepDie d (tripRegs v d) v))))
         { w with recorder := { w.recorder with sample := w.recorder.sample.map (fun x => if x.mask.testBit d = true then { x with missing := x.missing ||| 2 ^ d } else x) } })))

/-! ## Admission, faults and the monitors (chapters 11 and 13) -/

/-- ADMIT answers the first check that fails, or the slot is ADMITTING, rows without a clean mark are zeroised and a launch named by AT is armed. FIELD_ACTIVATE makes the Field active once its rows are clean and its AT, if any, has come; an AT that comes first is kept as due and the delay is logged. EVICT answers its refusal, or the slot is EVICTING with its gates closed. ROW_ZEROISE_DONE gives a row of zeros a clean mark, or marks it suspect with a Hedge fault. EVICTION_DONE frees the slot once its drain has ended and no row is left. -/
def Obligations.AdmissionCommandsComplete : Prop :=
  (∀ (s u : State) (pid : Nat) (k : Pkt) (x : Xfer) (l : List Byte), Filled s pid k x l u → x.target = 6 → pieceByte x.got 3 = 1 →
      exec (.admitField pid) s = .next (finish s (ended k x
        (if (admitBar u l).1 ≠ 0 then ((stTarget, (admitBar u l).1), u)
         else
         let n := (admitBar u l).2
         let v := showSlot n (byteNat l 4 2) 1 (recordRows l) u
         let w : State := { v with trust := { v.trust with admits := tabSet [] v.trust.admits [n] (l.take 576), ownerKeys := tabSet [] v.trust.ownerKeys [n] (l.drop 576) } }
         let y := addZeroing ((recordRows l).filter (fun r => !w.fbit F.SM_ROWS_CLEAN r.2 [r.1])) w
         ((stOk, 0), if byteNat l 8 8 = 0 then y else y.armGate (.admitAt n) (byteNat l 8 8)))))) ∧
  (∀ (s u : State) (pid : Nat) (k : Pkt) (x : Xfer) (l : List Byte), Filled s pid k x l u → x.target = 6 → pieceByte x.got 3 = 2 →
      exec (.evict pid) s = .next (finish s (ended k x
        (if evictBar u l ≠ 0 then ((stTarget, evictBar u l), u)
         else
         let n := byteNat l 6 1
         let v := addZeroing (u.grantRows n) ((u.dropGate (.admitAt n)).setFld F.DV_FIELD_SLOT_STATE 4 [n])
         ((stOk, 0), roadEvict (v.slotField n) (closeGate (.field n) v)))))) ∧
  (∀ (s : State) (n : Nat), n < 16 → s.fld F.DV_FIELD_SLOT_STATE [n] = 1 → byteNat (s.admitRecord n) 8 8 = 0 →
      (∀ x ∈ s.grantRows n, s.fbit F.SM_ROWS_CLEAN x.2 [x.1] = true) →
      exec (.fieldActivate n) s = .next (finish s (activate n s))) ∧
  (∀ (s : State) (n m : Nat), n < 16 → s.fld F.DV_FIELD_SLOT_STATE [n] = 1 → byteNat (s.admitRecord n) 8 8 ≠ 0 → s.gateAt (.admitAt n) = some m → s.launchDue (.admitAt n) = true →
      exec (.fieldActivate n) s = .next (finish s
        (if (s.grantRows n).all (fun x => s.fbit F.SM_ROWS_CLEAN x.2 [x.1]) = true then activate n (s.dropGate (.admitAt n))
         else if m = 0 then s else (s.armGate (.admitAt n) 0).log 0x0C 0x07 8 (resetDetail 0 n 0 0) (s.slotField n)))) ∧
  (∀ (s : State) (n : Nat), (activate n s).fld F.DV_FIELD_SLOT_STATE [n] = 2) ∧
  (∀ (s : State) (d r : Nat) (ok : Bool), d < 8 → r < 32 → (d, r) ∈ s.trust.zeroing → s.fbit F.SM_ROWS_SUSPECT r [d] = false →
      (∀ n, zeroSlot s d r = some n → (s.fld F.DV_FIELD_SLOT_STATE [n] ≠ 4 ∨ Domain.field n ∈ s.ni.drained) ∧ resetting s n = false) →
      exec (.rowZeroiseDone d r ok) s = .next (finish s
        (let f := ((zeroSlot s d r).map s.slotField).getD 0xFFFF
         let u := zeroRow d r s
         let v : State := { u with trust := { u.trust with zeroing := u.trust.zeroing.erase (d, r) } }
         let w := copyFault d 0x06 f (r * 64) (some r) (markSuspect d r s)
         let y : State := { w with trust := { w.trust with zeroing := w.trust.zeroing.erase (d, r) } }
         if ok = true then afterZero (zeroSlot s d r) (v.setBit F.SM_ROWS_CLEAN r true [d])
         else if s.fld F.SL_STATUS_STATE = 3 then afterZero (zeroSlot s d r) y else w))) ∧
  (∀ (s : State) (n : Nat), n < 16 → s.fld F.DV_FIELD_SLOT_STATE [n] = 4 → Domain.field n ∈ s.ni.drained → (∀ x ∈ s.grantRows n, x ∉ s.trust.zeroing) → resetting s n = false →
      exec (.evictionDone n) s = .next (finish s (freeSlot n (clearFieldObjects (s.slotField n) s))))

/-- FAULT_REPORT: a consequential report is counted and logged with flag 8. The first detected fault of rows 1, 2, 4 and 5 fences its Field with a hand-off, that of rows 6, 7, 8 and 10 its die; one that the same unit of a domain in recovery has reported is folded; another in a Field in recovery makes the Field fail-silent, and one in a shared domain, while anything is in recovery, makes the device so, as a second failure of a replica does. HANDOFF_END ends a hand-off that is idle or has reached its end. HANG_STALL counts and reports the stall of a unit of a powered die, a tile's while it holds work and a crossing by its index, and poisons a tile unit's Waybill. PORT_PERMIT notes a permit and a heartbeat; PERMIT_LOSS, after 4 µs, silences the half-port; HEARTBEAT_LOSS withholds permits, silences it and reports. Two comparisons of the device monitors in a row that differ make the device fail-silent. -/
def Obligations.SafetyCommandsComplete : Prop :=
  (∀ (s : State) (n : FaultNote), n.wellFormed = true → n.consequential = true →
      exec (.faultReport n) s = .next (finish s
        (faultEvent n 8 (({ s with safe := { s.safe with reports := s.safe.reports.erase n } } : State).bump F.SM_STATUS_CONSEQUENTIAL)).1)) ∧
  (∀ (s : State) (n : FaultNote) (k : Nat), n.wellFormed = true → n.consequential = false → n.row ∈ [1, 2, 4, 5] → s.slotOf n.field = some k → s.safe.faults = [] → resetting s k = false →
      exec (.faultReport n) s = .next (finish s
        (let u : State := { s with safe := { s.safe with reports := s.safe.reports.erase n } }
         let e := faultEvent n 1 (u.bump F.SM_STATUS_DETECTED)
         let v := faultMarks n e.1
         showRecovery (fenceField k true (fieldCause k n.cls e.2 { v with safe := { v.safe with faults := v.safe.faults ++ [([0, k], n.unit)] } }))))) ∧
  (∀ (s : State) (n : FaultNote), n.wellFormed = true → n.consequential = false → n.row ∈ [6, 7, 8, 10] → s.safe.faults = [] →
      (n.row = 10 → s.time.replicaFailures < 2) →
      exec (.faultReport n) s = .next (finish s
        (let u : State := { s with safe := { s.safe with reports := s.safe.reports.erase n } }
         let e := faultEvent n 1 (u.bump F.SM_STATUS_DETECTED)
         let v := faultMarks n e.1
         showRecovery (fenceDie n.die (dieCause n.die n.cls e.2 { v with safe := { v.safe with faults := v.safe.faults ++ [([1, n.die], n.unit)] } }))))) ∧
  (∀ (s : State) (n : FaultNote) (k : Nat), n.wellFormed = true → n.consequential = false → n.row ∈ [1, 2, 4, 5] → s.slotOf n.field = some k → ([0, k], n.unit) ∈ s.safe.faults →
      exec (.faultReport n) s = .next (finish s
        (let u : State := { s with safe := { s.safe with reports := s.safe.reports.erase n } }
         faultMarks n (u.log 0x0C 0x08 n.die (resetDetail 0 k 0 0) n.field)))) ∧
  (∀ (s : State) (n : FaultNote) (k : Nat) (w : List Nat), n.wellFormed = true → n.consequential = false → n.row ∈ [1, 2, 4, 5] → s.slotOf n.field = some k → ([0, k], w) ∈ s.safe.faults →
      ([0, k], n.unit) ∉ s.safe.faults →
      exec (.faultReport n) s = .next (finish s
        (let u : State := { s with safe := { s.safe with reports := s.safe.reports.erase n } }
         let v := faultMarks n (faultEvent n 5 (u.bump F.SM_STATUS_DETECTED)).1
         showRecovery (silenceField k { v with safe := { v.safe with faults := v.safe.faults ++ [([0, k], n.unit)] } })))) ∧
  (∀ (s : State) (n : FaultNote), n.wellFormed = true → n.consequential = false → n.row ∈ [6, 7, 8, 10] →
      (s.safe.faults ≠ [] ∨ (n.row = 10 ∧ 2 ≤ s.time.replicaFailures)) → ([1, n.die], n.unit) ∉ s.safe.faults →
      exec (.faultReport n) s = .next (finish s
        (let u : State := { s with safe := { s.safe with reports := s.safe.reports.erase n } }
         let v := faultMarks n (faultEvent n 5 (u.bump F.SM_STATUS_DETECTED)).1
         showRecovery (silenceDevice { v with safe := { v.safe with faults := v.safe.faults ++ [([1, n.die], n.unit)] } })))) ∧
  (∀ (s : State) (n a m : Nat), n < 16 → s.safe.handoffs.find? (fun e => e.1 = n) = some (a, m) → (handoffIdle s n = true ∨ m ≤ s.now) →
      exec (.handoffEnd n) s = .next (finish s (endHandoff n s))) ∧
  (∀ (s : State) (d t unit : Nat), d < 8 → t < 2048 → unit < 4 → s.tileExists d t = true → s.fld F.SM_DIE_STATE_POWERED [d] = 1 →
      (s.running d t unit ≠ none ∨ s.issueQ d t unit ≠ []) →
      exec (.hangStall (.tile d t unit)) s = .next (finish s
        (let g := tileRegion s d t
         let u := s.bump F.SM_HANG_TILE_STALLS [d]
         let v := match s.running d t unit with
           | some n => if (s.slot d t n).status = none then failRun d t n 0x05 0 (poisonStream d t n u) else u
           | none => u
         v.report ⟨1, false, [20, d, t], d, d, (v.tileField d t).getD 0xFFFF, some (t / 64), true, 0x07, 0x01, true, hangDetail unit g (s.pace d g) (hangBound (s.pace d g))⟩))) ∧
  (∀ (s : State) (d unit region : Nat), d < 8 → unit < 256 → region < 8 → s.fld F.SM_DIE_STATE_POWERED [d] = 1 →
      exec (.hangStall (.shared d unit region)) s = .next (finish s
        ((s.bump F.SM_HANG_SHARED_STALLS [d]).report ⟨7, false, [7, d, unit], d, d, 0xFFFF, none, true, 0x07, 0x02, false, hangDetail unit region (s.pace d region) (hangBound (s.pace d region))⟩))) ∧
  (∀ (s : State) (d e : Nat), d < 8 → e < 8 → d ≠ e → s.fld F.SM_DIE_STATE_POWERED [d] = 1 →
      exec (.hangStall (.crossing d e)) s = .next (finish s
        (let c := min d e * (15 - min d e) / 2 + (max d e - min d e - 1)
         (s.bump F.SM_HANG_SHARED_STALLS [d]).report ⟨9, false, [9, c], d, e, 0xFFFF, none, true, 0x07, 0x03, false, hangDetail c 4 (s.pace d 4) (hangBound (s.pace d 4))⟩))) ∧
  (∀ (s : State) (h : Nat) (beat : Bool), h < 16 → s.halfExists h = true → (s.half h).withheld = false → s.fld F.SM_STATUS_STATE ≠ 2 → s.fld F.SM_DIE_STATE_POWERED [h / 2] = 1 →
      exec (.portPermit h beat) s = .next (finish s
        (s.setHalf h { s.half h with permitAt := s.now, heartbeatAt := if beat = true then s.now else (s.half h).heartbeatAt }))) ∧
  (∀ (s : State) (h : Nat), h < 16 → s.halfExists h = true → s.fld F.SM_DIE_STATE_POWERED [h / 2] = 1 → (s.half h).permitAt + 64000 ≤ s.now →
      exec (.permitLoss h) s = .next (finish s
        (if s.link h = 6 then s else (goSilent h 2 s).log 0x0C 0x04 (h / 2) (resetDetail 0 h 0 0)))) ∧
  (∀ (s : State) (h : Nat), h < 16 → s.halfExists h = true → s.fld F.SM_DIE_STATE_POWERED [h / 2] = 1 → (s.half h).withheld = false → (s.half h).heartbeatAt + 64000 ≤ s.now →
      exec (.heartbeatLoss h) s = .next (finish s
        ((goSilent h 2 (s.setHalf h { s.half h with withheld := true })).report
          ⟨11, false, [11, h], h / 2, h / 2, 0xFFFF, none, false, 0x0C, 0x04, false, resetDetail 0 h 0 0⟩))) ∧
  (∀ (s : State) (agree : Bool),
      exec (.monitorCompare agree) s = .next (finish s
        (if agree = true then { s with safe := { s.safe with differ := 0 } }
         else if s.safe.differ = 0 then { s with safe := { s.safe with differ := 1 } }
         else silenceDevice (s.setFld F.SM_STATUS_MON_DISAGREE 1))))

/-! ## Resets, Fallow rows and the Recorder (chapter 13) -/

/-- A write of SM_RESET is refused with STATE, RESULT set and the outcome logged, or its request begins: a Field reset closes the gates; a die reset or power-down copies the die's registers, closes its gates, fences its Fields and cancels what is armed on it, and takes its sample at once where the die is fenced; a device reset sends DOWN units and begins the sample of every die; a power-up ramps the die's regulator and powers it. EVENT_WRITE publishes the oldest record, and the LOST records once the FIFO is empty. SM_FALLOW_AT arms the switch-in that its conditions admit; FALLOW_SWITCH_IN remaps the row, or is cancelled. SM_ADMIT is ARMED. DUMP_SAMPLE_DONE stores the dump and goes on with the reset that the sample was for. -/
def Obligations.ResetCommandsComplete : Prop :=
  (∀ (s u : State) (pid : Nat) (k : Pkt) (y : RegSpec) (q : List Nat), AskedWrite s pid k u y q → y.reg = .SM_RESET →
      let v := (reqOf k.p).value
      let begun (kind n : Nat) : State :=
        let t := ((u.setFld F.SM_RESET_SLOT (F.SM_RESET_SLOT.of v)).setFld F.SM_RESET_DIE (F.SM_RESET_DIE.of v)).setFld F.SM_RESET_RESULT 0
        { t with safe := { t.safe with request := some { kind := kind, target := n } } }
      let answer (kind n : Nat) (w : State) : State :=
        if resetBar u kind n ≠ 0 then told k stState (noValue u) (resetOutcome kind n (resetBar u kind n) u.tick) else told k stOk (w.regWord y q) w
      let slot := F.SM_RESET_SLOT.of v
      let die := F.SM_RESET_DIE.of v
      (v % 8 = 1 → exec (.fieldReset pid) s = .next (finish s (answer 1 slot (closeGate (.field slot) (endHandoff slot (begun 1 slot)))))) ∧
      (v % 8 = 2 → exec (.dieReset pid) s = .next (finish s (answer 2 die (startDieReset 2 die (begun 2 die))))) ∧
      (v % 8 = 3 → exec (.deviceReset pid) s = .next (finish s (answer 3 0
        (let t := begun 3 0
         beginSample 2 0xFF false (linksDown (List.range 16) 3 { t with ni := { t.ni with closed := [], drained := [] } }))))) ∧
      (v % 8 = 4 → exec (.diePowerDown pid) s = .next (finish s (answer 4 die (startDieReset 4 die (begun 4 die))))) ∧
      (v % 8 = 5 → exec (.diePowerUp pid) s = .next (finish s (answer 5 die
        (let t := begun 5 die
         let w : State := { t with safe := { t.safe with request := some { kind := 5, target := die, regs := t.boot.kept.filter (fun e => e.1.getD 2 0 = die), begun := true } } }
         rampDie die w))))) ∧
  (∀ (s : State) (kind d : Nat) (r : ResetReq), s.safe.request = some r →
      let t : State := { s with safe := { s.safe with request := some { r with regs := dieRegs s d } } }
      let c := closeGate (.die d) t
      let w := cancelFallow d (cancelSnaps (some d) (c.forAll (slotsOnDie c d) (fun (n : Nat) (x : State) => fenceField n false x)))
      startDieReset kind d s = if w.fld F.SM_DIE_STATE_FENCED [d] = 1 then
          (let x : State := { w with ni := { w.ni with drained := w.ni.drained ++ [.die d] } }
           beginSample (if kind = 4 then 4 else kind + 1) (2 ^ d) false (linksDown [2 * d, 2 * d + 1] (if kind = 4 then 4 else 3) x))
        else w) ∧
  (∀ (s : State) (e : Event) (l : List Event), s.recorder.fifo = e :: l →
      exec .eventWrite s = .next (finish s
        (let t : State := { s with recorder := { s.recorder with fifo := l } }
         let u := publish e (t.setFld F.EV_STATUS_FIFO_DEPTH l.length)
         let v := u.forAll ((List.range 16).filter (fun c => u.recorder.lostSince.testBit c)) lostRecord
         if l = [] then { v with recorder := { v.recorder with lostSince := 0 } } else u))) ∧
  (∀ (s u : State) (pid d : Nat) (k : Pkt) (y : RegSpec) (q : List Nat), AskedWrite s pid k u y q → y.reg = .SM_FALLOW_AT → q = [d] →
      let m := (reqOf k.p).value
      let r := u.fld F.SM_FALLOW_REQ_LROW [d]
      launchBar u m = stOk → u.boundaryOk m = true → r < u.rowsPerDie → rowActive u d r = false → (fallowEntry u d).2 = (true, false) → u.fld F.SM_FALLOW_REQ_PENDING [d] = 0 →
      exec (.smFallowAt pid) s = .next (finish s
        (let t := ((u.armGate (.fallow d) m).setFld F.SM_FALLOW_REQ_PENDING 1 [d]).setFld F.SM_FALLOW_AT_COUNT m [d]
         told k stOk (t.regWord y q) t))) ∧
  (∀ (s : State) (d m : Nat), d < 8 → s.gateAt (.fallow d) = some m → s.gateOpen d m = true →
      exec (.fallowSwitchIn d) s = .next (finish s
        (if rowActive s d (s.fld F.SM_FALLOW_REQ_LROW [d]) = true ∨ s.dieFenced d = true then cancelFallow d s
         else
         let r := s.fld F.SM_FALLOW_REQ_LROW [d]
         let t := ((s.dropGate (.fallow d)).setFld F.SM_FALLOW_REQ_PENDING 0 [d]).setBit F.SM_FALLOW_RETIRED (s.physRow d r) true [d]
         let u := if t.fld F.SM_FALLOW_REQ_ENTRY [d] = 0 then (t.setFld F.SM_FALLOW_LROW0 r [d]).setFld F.SM_FALLOW_IN_USE0 1 [d]
           else (t.setFld F.SM_FALLOW_LROW1 r [d]).setFld F.SM_FALLOW_IN_USE1 1 [d]
         let v := u.forAll (rowTiles (d, r)) (fun (x : Nat × Nat) (w : State) => resetTile x.1 x.2 w)
         (v.setBit F.SM_ROWS_SUSPECT r false [d]).log 0x0D 0x02 d (beBytes 1 d ++ beBytes 1 (fallowEntry s d).1 ++ beBytes 1 r)))) ∧
  (∀ (s u v : State) (pid : Nat) (k : Pkt) (y : RegSpec) (q : List Nat), AskedWrite s pid k u y q → y.reg = .SM_ADMIT → u.timeValid = true →
      plainWrite y q (reqOf k.p).value u = .ok v →
      exec (.smAdmit pid) s = .next (finish s
        (let t := (v.setFld F.SM_ADMIT_ARMED 1).setFld F.SM_ADMIT_RESULT 0
         told k stOk (t.regWord y q) t))) ∧
  (∀ (s : State) (x : Sample), s.recorder.sample = some x →
      exec .dumpSampleDone s = .next (finish s
        (if x.cause = 1 then deviceReset false (storeDump s) else if x.cause = 2 then deviceReset true (endRequest 1 (storeDump s)) else afterDieSample (storeDump s)))) ∧
  (∀ (s : State) (r : ResetReq), s.safe.request = some r → r.kind = 2 →
      afterDieSample s = (let t := resetDieUnits r.target s
                          { t with safe := { t.safe with request := some { r with begun := true } } })) ∧
  (∀ (s : State) (r : ResetReq), s.safe.request = some r → r.kind = 4 →
      afterDieSample s = endRequest 1 (dieOff r.target (resetDieUnits r.target (keepDie r.target r.regs s))))

/-! ## The manager's requests and transfers (chapter 14) -/

/-- READ answers the register's value, or the status that refuses it; a request that names no listed OP is answered FORMAT. WRITE of a register without an action of its own answers with the register once written, or its refusal; a location that holds no register takes zero alone. SNAP_ARM arms a bank on the group of the register named, or is refused; SNAP_READ answers what the bank holds; SNAP_LATCH latches the group once its count has come. CLOSE is answered, then the session ends. A request of no session, or whose MAC fails, is discarded and counted; one whose SEQ is lower is answered SEQ and counted; one whose SEQ is equal gets the response kept, if any. -/
def Obligations.ManagerRequestsComplete : Prop :=
  (∀ (s u : State) (pid : Nat) (k : Pkt), Asked s pid k u → (reqOf k.p).op = 1 →
      exec (.read pid) s = .next (finish s
        (let a := u.readReg (reqOf k.p).addr
         if a.1 = stOk then told k stOk a.2 u else told k a.1 (noValue u) u.tick))) ∧
  (∀ (s u : State) (pid : Nat) (k : Pkt), Asked s pid k u → ((reqOf k.p).op = 0 ∨ 7 < (reqOf k.p).op) →
      exec (.read pid) s = .next (finish s (told k stFormat (noValue u) u.tick))) ∧
  (∀ (s u : State) (pid : Nat) (k : Pkt) (y : RegSpec) (q : List Nat), AskedWrite s pid k u y q → writeRowOf y.reg (reqOf k.p).value = .plain →
      exec (.write pid) s = .next (finish s (answered k y q u (plainWrite y q (reqOf k.p).value u)))) ∧
  (∀ (s u : State) (pid : Nat) (k : Pkt), Asked s pid k u → (reqOf k.p).op = 2 → s.place (reqOf k.p).addr = .unused → u.place (reqOf k.p).addr = .unused → u.reach (reqOf k.p).addr = stOk →
      exec (.write pid) s = .next (finish s (if (reqOf k.p).value = 0 then told k stOk 0 u else told k stAccess (noValue u) u.tick))) ∧
  (∀ (s u : State) (pid : Nat) (k : Pkt) (y : RegSpec) (q : List Nat), Asked s pid k u → (reqOf k.p).op = 2 → s.place (reqOf k.p).addr = .reg y q → u.place (reqOf k.p).addr = .reg y q →
      writeRowOf y.reg (reqOf k.p).value = .plain → u.reach (reqOf k.p).addr = stOk → u.accessOk y q (reqOf k.p).value = false →
      exec (.write pid) s = .next (finish s (told k stAccess (noValue u) u.tick))) ∧
  (∀ (s u : State) (pid : Nat) (k : Pkt) (y : RegSpec) (q : List Nat), Asked s pid k u → (reqOf k.p).op = 3 → u.place (reqOf k.p).addr = .reg y q → u.reach (reqOf k.p).addr = stOk →
      let r := reqOf k.p
      let g := snapGroup y.reg
      exec (.snapArm pid) s = .next (finish s
        (if g = 0 ∨ 3 < r.bank then told k stRange (noValue u) u.tick
         else if u.fld F.DV_SNAP_STATE [r.bank] = 1 then told k stState (noValue u) u.tick
         else if launchBar u r.value ≠ stOk then told k (launchBar u r.value) (noValue u) u.tick
         else
         let t := (u.setBank r.bank []).armGate (.snap r.bank) r.value
         let v := ((t.setFld F.DV_SNAP_STATE 1 [r.bank]).setFld F.DV_SNAP_GROUP g [r.bank]).setFld F.DV_SNAP_DIE (if groupLevel g = 0 then 0 else r.addr / 2 ^ 34 % 8) [r.bank]
         told k stOk r.value ((v.setFld F.DV_SNAP_TILE (if groupLevel g = 2 then r.addr / 2 ^ 23 % 2048 else 0) [r.bank]).setFld F.DV_SNAP_AT_COUNT r.value [r.bank])))) ∧
  (∀ (s u : State) (pid : Nat) (k : Pkt), Asked s pid k u → (reqOf k.p).op = 4 →
      exec (.snapRead pid) s = .next (finish s
        (let a := u.readSnap (reqOf k.p).bank (reqOf k.p).addr
         if a.1 = stOk then told k stOk a.2 u else told k a.1 (noValue u) u.tick))) ∧
  (∀ (s : State) (b m : Nat), b < 4 → s.gateAt (.snap b) = some m → s.launchDue (.snap b) = true → (∀ g ∈ s.gates, goesFirst s m g = false) →
      exec (.snapLatch b) s = .next (finish s
        ((((s.dropGate (.snap b)).setBank b (latchGroup s (s.fld F.DV_SNAP_GROUP [b]) (s.fld F.DV_SNAP_DIE [b]) (s.fld F.DV_SNAP_TILE [b]))).setFld F.DV_SNAP_STATE 2 [b]).setFld
          F.DV_SNAP_AT_COUNT s.now [b]))) ∧
  (∀ (s u : State) (pid : Nat) (k : Pkt) (x : Session), Asked s pid k u → s.session (reqOf k.p).key = some x → (reqOf k.p).op = 7 → x.high < (reqOf k.p).seq →
      shortMac x.rxKey 1 k.p.h (k.p.body.take 24) = k.p.body.drop 24 →
      exec (.close pid) s = .next (finish s (endSession (reqOf k.p).key (told k stOk 0 u)))) ∧
  (∀ (s : State) (pid : Nat) (k : Pkt), mgrPkt s pid 0x20 = some k → checkOk k.p = true → (reqOf k.p).op = 1 → (freePkt pid 8 s).session (reqOf k.p).key = none →
      exec (.read pid) s = .next (finish s ((freePkt pid 8 s).bump F.DV_MGR_STAT_MAC_FAILS))) ∧
  (∀ (s : State) (pid : Nat) (k : Pkt) (x : Session), mgrPkt s pid 0x20 = some k → checkOk k.p = true → (reqOf k.p).op = 1 → (freePkt pid 8 s).session (reqOf k.p).key = some x →
      let u := freePkt pid 8 s
      exec (.read pid) s = .next (finish s
        (if shortMac x.rxKey 1 k.p.h (k.p.body.take 24) ≠ k.p.body.drop 24 then u.bump F.DV_MGR_STAT_MAC_FAILS
         else if (reqOf k.p).seq < x.high then mgrSend k.die (mgrResp u k.p x.txKey stSeq (noValue u)) (u.tick.bump F.DV_MGR_STAT_SEQ_REJECTS)
         else if (reqOf k.p).seq = x.high then (match x.kept with
           | some p => mgrSend k.die p u
           | none => u)
         else if reqMalformed k.p = true then
           (let v := u.setSession (reqOf k.p).key (some { x with high := (reqOf k.p).seq, kept := none })
            told k stFormat (noValue v) v.tick)
         else
           (let v := u.setSession (reqOf k.p).key (some { x with high := (reqOf k.p).seq, kept := none })
            let a := v.readReg (reqOf k.p).addr
            if a.1 = stOk then told k stOk a.2 v else told k a.1 (noValue v) v.tick))))

/-- RETRAIN retrains the half-ports written 1. TL_CTRL_RESET starts a tile reset unless one runs. BANK_SEAL and BANK_DISCARD act on a bank in the states R184 gives. RB_SWAP_AT, RB_RESUME_AT, SG_SWITCH_AT and NI_AGE_AT arm their launch inside the window of R68, else LATE or RANGE; a swap lies 1 ms ahead and on a step boundary, a resume on a step boundary, and a switch needs a SEALED version and none pending. STEP_ARM writes TK_CTRL. DM_ACK releases the dump it names. SIGNPOST_SEAL begins the seal of a LOADING version, and SIGNPOST_DISCARD empties one that is LOADING or SEALED. -/
def Obligations.RegisterActionsComplete : Prop :=
  ∀ (s u : State) (pid : Nat) (k : Pkt) (y : RegSpec) (q : List Nat), AskedWrite s pid k u y q →
    let v := (reqOf k.p).value
    let o := u.otherVer
    (∀ d, y.reg = .PH_CTRL → q = [d] → v % 4 ≠ 0 →
      exec (.retrain pid) s = .next (finish s
        (let t := if v.testBit 0 = true ∧ u.halfExists (2 * d) = true then retrain (2 * d) u else u
         let w := if v.testBit 1 = true ∧ t.halfExists (2 * d + 1) = true then retrain (2 * d + 1) t else t
         told k stOk (w.regWord y q) w))) ∧
    (∀ d t, y.reg = .TL_CTRL → q = [d, t] → v % 2 = 1 →
      exec (.tlCtrlReset pid) s = .next (finish s
        (answered k y q u (if u.fld F.TL_CTRL_RESET_BUSY [d, t] = 1 then .error stState else .ok (startTileReset d t none u))))) ∧
    (y.reg = .RB_SEAL → v / 2 % 4 = 1 →
      exec (.bankSeal pid) s = .next (finish s
        (answered k y q u (if u.bankState (v % 2) = 1 then .ok ((u.setBankState (v % 2) 2).setFld F.RB_SEAL_BANK (v % 2)) else .error stState)))) ∧
    (y.reg = .RB_SEAL → v / 2 % 4 = 2 →
      exec (.bankDiscard pid) s = .next (finish s
        (let t := ((u.setBankState (v % 2) 0).setBankBytes (v % 2) []).setFld F.RB_SEAL_BANK (v % 2)
         answered k y q u (if u.bankState (v % 2) = 1 then .ok t
           else if u.bankState (v % 2) = 3 ∧ ¬(u.fld F.RB_BANKS_PENDING = 1 ∧ u.swapBank = v % 2) then .ok (setPendingSched t) else .error stState)))) ∧
    (y.reg = .RB_SWAP_AT →
      exec (.rbSwapAt pid) s = .next (finish s
        (answered k y q u (if launchBar u v ≠ stOk then .error (launchBar u v)
           else if v < u.now + 16000 * 1000 ∨ u.boundaryOk v = false then .error stRange
           else if u.bankState u.swapBank = 3 ∧ u.fld F.RB_BANKS_PENDING = 0 then .ok (showSuspends (((u.armGate .rbSwap v).setFld F.RB_BANKS_PENDING 1).setFld F.RB_SWAP_AT_COUNT v))
           else .error stState)))) ∧
    (y.reg = .RB_RESUME_AT →
      exec (.rbResumeAt pid) s = .next (finish s
        (let t := (u.armGate .rbResume v).setFld F.RB_RESUME_AT_COUNT v
         answered k y q u (if launchBar u v ≠ stOk then .error (launchBar u v)
           else if u.activeBankNo = none then .error stState
           else if u.isBoundary v = false then .error stRange
           else .ok { t with road := { t.road with resumeMask := t.fld F.RB_RESUME_MASK } })))) ∧
    (y.reg = .SG_SWITCH_AT →
      exec (.sgSwitchAt pid) s = .next (finish s
        (answered k y q u (if launchBar u v ≠ stOk then .error (launchBar u v)
           else if u.verState o = 2 ∧ u.fld F.SG_CTRL_PENDING = 0 then .ok (((u.armGate .sgSwitch v).setFld F.SG_CTRL_PENDING 1).setFld F.SG_SWITCH_AT_COUNT v)
           else .error stState)))) ∧
    (y.reg = .NI_AGE_AT →
      exec (.niAgeAt pid) s = .next (finish s
        (answered k y q u (if launchBar u v ≠ stOk then .error (launchBar u v) else .ok (((u.armGate .niAge v).setFld F.NI_AGE_PENDING 1).setFld F.NI_AGE_AT_COUNT v))))) ∧
    (y.reg = .TK_CTRL → v % 2 = 1 → exec (.stepArm pid) s = .next (finish s (answered k y q u (plainWrite y q v u)))) ∧
    (y.reg = .DM_ACK →
      exec (.dmAck pid) s = .next (finish s
        (let n := F.DM_ACK_DUMP_SEQ.of v
         let t : State := { u with recorder := { u.recorder with dumps := u.recorder.dumps.map (fun x => if x.seq = n then { x with released := true } else x) } }
         answered k y q u (if u.recorder.dumps.any (fun x => x.seq = n) = true then .ok (t.setFld F.DM_ACK_DUMP_SEQ n) else .error stRange)))) ∧
    (y.reg = .SG_SEAL → v % 2 = 1 →
      exec (.signpostSeal pid) s = .next (finish s
        (answered k y q u (if v / 2 % 2 = 1 then .error stRange
           else if u.verState o = 1 ∧ u.fld F.SG_SEAL_BUSY = 0 then .ok (u.setFld F.SG_SEAL_BUSY 1) else .error stState)))) ∧
    (y.reg = .SG_SEAL → v % 2 = 0 → v / 2 % 2 = 1 →
      exec (.signpostDiscard pid) s = .next (finish s
        (answered k y q u (if (u.verState o = 1 ∨ u.verState o = 2) ∧ u.fld F.SG_CTRL_PENDING = 0 ∧ u.fld F.SG_SEAL_BUSY = 0 then .ok ((clearVer o u).setVerState o 0)
           else .error stState))))

/-- XFER_IN to SIGNPOST, RANK, ROAD_BOOK, ADMISSION, ATTEST or BARRIER abandons the session's unfinished transfer and opens its own; one of no bytes acts at once. XFER_OUT of DUMP, REGISTERS, EVENTS, ATTEST or BRIDGE abandons it too and sends the range that exists, then OK with its length; one that names no object, or the wrong way, is refused with TARGET. MGR_DATA that fits an open transfer adds its piece, written at once to a table or bank, and ends the transfer once the pieces cover its length: with OK for a table or bank, with a report signed for ATTEST, with the barrier opened for BARRIER; one whose MAC fails is counted. XFER_GAP_TIMEOUT ends it with GAP after 10 ms. SIGNPOST_SEAL_DONE seals the version, or empties it and names the first refused block. -/
def Obligations.TransfersComplete : Prop :=
  (∀ (s u : State) (pid : Nat) (k : Pkt) (z : Session), Asked s pid k u →
      let r := reqOf k.p
      let v := abandonXfer r.key u
      v.session r.key = some z →
      let x : Xfer := { seq := r.seq, target := r.addr % 256, arg := r.addr / 256, len := r.value % 2 ^ 32, req := k.p, at_ := v.now }
      let opened := v.setSession r.key (some { z with xfer := some x })
      let no : State := told k stTarget (noValue v) v.tick
      (r.op = 5 →
        (r.addr % 256 = 2 → x.len ≤ 2 ^ 20 → exec (.signpost pid) s = .next (finish s (if x.len = 0 then told k stOk 0 v else opened))) ∧
        (r.addr % 256 = 3 → x.len ≤ 2 ^ 24 → exec (.rank pid) s = .next (finish s (if x.len = 0 then told k stOk 0 v else opened))) ∧
        (r.addr % 256 = 4 → exec (.roadBook pid) s = .next (finish s (if x.len = 0 then told k stOk 0 v else opened))) ∧
        (r.addr % 256 = 6 → exec (.admission pid) s = .next (finish s (if x.len = 0 then told k stTarget 1 v else opened))) ∧
        (r.addr % 256 = 11 → exec (.attestTransfer pid) s = .next (finish s (if x.len = 0 then no else opened))) ∧
        (r.addr % 256 = 13 → exec (.barrier pid) s = .next (finish s (if x.len = 0 then no else opened))) ∧
        (r.addr % 256 = 2 → 2 ^ 20 < x.len → exec (.signpost pid) s = .next (finish s no)) ∧ (r.addr % 256 = 3 → 2 ^ 24 < x.len → exec (.rank pid) s = .next (finish s no)) ∧
        (r.addr % 256 = 8 → exec (.dump pid) s = .next (finish s no)) ∧ (r.addr % 256 = 9 → exec (.registers pid) s = .next (finish s no)) ∧
        (r.addr % 256 = 10 → exec (.events pid) s = .next (finish s no)) ∧ (r.addr % 256 = 12 → exec (.bridge pid) s = .next (finish s no))) ∧
      (r.op = 6 →
        (r.addr % 256 = 2 → exec (.signpost pid) s = .next (finish s no)) ∧ (r.addr % 256 = 3 → exec (.rank pid) s = .next (finish s no)) ∧
        (r.addr % 256 = 4 → exec (.roadBook pid) s = .next (finish s no)) ∧ (r.addr % 256 = 6 → exec (.admission pid) s = .next (finish s no)) ∧
        (r.addr % 256 = 13 → exec (.barrier pid) s = .next (finish s no)) ∧
        let first := r.value % 2 ^ 32
        let len := r.value / 2 ^ 32
        let sent (bytes : List Byte) : State := told k stOk bytes.length (sendRange v.leadDie k.p r.key z.txKey (r.addr % 256) r.seq first bytes v)
        (r.addr % 256 = 8 → exec (.dump pid) s = .next (finish s
          (match v.recorder.dumps.find? (fun d => d.seq = r.addr / 256) with
           | some d => sent ((d.bytes.drop first).take len)
           | none => no))) ∧
        (r.addr % 256 = 9 → exec (.registers pid) s = .next (finish s
          (let base := r.addr / 256 * 256
           let n := if 2 ^ 40 ≤ base + first then 0 else min len (2 ^ 40 - base - first)
           sent ((List.range n).map (fun i => (beBytes 8 (v.readReg (base + (first + i) / 8 * 8)).2).getD ((first + i) % 8) 0))))) ∧
        (r.addr % 256 = 10 → exec (.events pid) s = .next (finish s
          (sent ((((v.recorder.ring.filter (fun e => decide (r.addr / 256 ≤ e.seq))).flatMap eventBytes).drop first).take len)))) ∧
        (r.addr % 256 = 11 → exec (.attestTransfer pid) s = .next (finish s
          (if v.trust.report = [] then no else sent ((v.trust.report.drop first).take len)))) ∧
        (r.addr % 256 = 12 → exec (.bridge pid) s = .next (finish s (sent ((v.bridge.body.drop first).take len)))))) ∧
  (∀ (s v : State) (pid : Nat) (k : Pkt) (z : Session) (x : Xfer), mgrPkt s pid 0x8F = some k → checkOk k.p = true → (dataHdrOf k.p).target ≠ 1 → dataSession s k.p = some z →
      dataSession (freePkt pid 8 s) k.p = some z → z.xfer = some x → dataFits x k.p = true →
      earlyBytes x (dataHdrOf k.p).off (k.p.data.take (dataHdrOf k.p).len) (freePkt pid 8 s) = some v → piecesCover (addPiece x k.p v.now).got x.len = false →
      exec (.mgrDataReceive pid) s = .next (finish s (v.setSession (dataHdrOf k.p).key (some { z with xfer := some (addPiece x k.p v.now) })))) ∧
  (∀ (s : State) (pid : Nat) (k : Pkt), mgrPkt s pid 0x8F = some k → checkOk k.p = true → (dataHdrOf k.p).target ≠ 1 → dataSession s k.p = none → dataSession (freePkt pid 8 s) k.p = none →
      exec (.mgrDataReceive pid) s = .next (finish s ((freePkt pid 8 s).bump F.DV_MGR_STAT_MAC_FAILS))) ∧
  (∀ (s u : State) (pid : Nat) (k : Pkt) (x : Xfer) (l : List Byte), Filled s pid k x l u → (x.target = 2 ∨ x.target = 3 ∨ x.target = 4) →
      exec (.mgrDataReceive pid) s = .next (finish s (ended k x ((stOk, 0), u)))) ∧
  (∀ (s u : State) (pid : Nat) (k : Pkt) (x : Xfer) (l : List Byte) (b : BarrierRec), Filled s pid k x l u → x.target = 13 → barrierOf l u.now = some b →
      exec (.mgrDataReceive pid) s = .next (finish s (ended k x
        (if barrierOpen u = true then ((stState, noValue u), u.tick) else ((stOk, 0), u.setBarrier (some b)))))) ∧
  (∀ (s u v : State) (pid : Nat) (k : Pkt) (x : Xfer) (l rep : List Byte), Filled s pid k x l u → x.target = 11 → l.length = 36 → allZero ((l.drop 2).take 2) = true → (l.getD 1 0).toNat < 16 →
      signReport (l.getD 0 0).toNat (l.getD 1 0).toNat (l.drop 4) u = some (rep, v) →
      exec (.mgrDataReceive pid) s = .next (finish s (ended k x ((stOk, 0), { v with trust := { v.trust with report := rep } })))) ∧
  (∀ (s : State) (key : Nat) (z : Session) (x : Xfer), key < 4 → s.session key = some z → z.xfer = some x → x.at_ + 16000 * 10000 ≤ s.now →
      exec (.xferGapTimeout key) s = .next (finish s (endXfer s.leadDie key x stGap (noValue s) (s.tick.bump F.DV_MGR_STAT_ABANDONED)))) ∧
  (∀ (s : State), s.fld F.SG_SEAL_BUSY = 1 → s.verState s.otherVer = 1 →
      let o := s.otherVer
      let u := s.setFld F.SG_SEAL_BUSY 0
      exec .signpostSealDone s = .next (finish s
        (match u.ni.ranks.find? (fun e => e.1.headD 2 = o && blockBad u (e.1.getD 2 0) e.2) with
         | none => (u.setVerState o 2).setFld F.SG_SEAL_RESULT 1
         | some e => (((((clearVer o u).setVerState o 0).setFld F.SG_SEAL_RESULT 2).setFld F.SG_SEAL_ERR_DIE (e.1.getD 1 0)).setFld F.SG_SEAL_ERR_SLOT (e.1.getD 2 0)).setFld
             F.SG_SEAL_ERR_BLOCK (e.1.getD 3 0))))

/-! ## Two procedures, as the spec writes them -/

/-- num is (t4 − t3) − (t2 − t1) + asym, theta is num // 2, raised by one where num and theta are both odd; sum is (t2 − t1) + (t4 − t3), and d is sum // 2, raised by one where sum and d are both odd. REPLY_RECEIVE that is accepted gives these values to TK_PORT_MEAS and to the sources the half-port feeds. -/
def Obligations.OffsetAndDelayOfAReply : Prop :=
  (∀ (t1 t2 t3 t4 : Nat) (asym : Int),
      let num := ((t4 : Int) - t3) - ((t2 : Int) - t1) + asym
      let theta := num / 2
      let sum := ((t2 : Int) - t1) + ((t4 : Int) - t3)
      let d := sum / 2
      offsetOf t1 t2 t3 t4 asym = (if num % 2 = 1 ∧ theta % 2 = 1 then theta + 1 else theta) ∧
      delayOf t1 t2 t3 t4 = (if sum % 2 = 1 ∧ d % 2 = 1 then d + 1 else d)) ∧
  (∀ (s : State) (pid h : Nat) (k : Pkt) (m : TimeMsg) (t4 : Nat) (r : Int), s.pkt pid = some k → k.input = .half h → k.stage = .passed →
      isTimeMsg true k.p = true → m = timeMsgOf k.p → t4 = k.issuedAt → s.link h = 4 → s.isEth h = false → m.valid = true →
      (s.exch h).waiting = true → m.seq = (s.exch h).seq → t4 ≤ (s.exch h).t1 + 64000 → (s.exch h).dRef = some r →
      let t1 := (s.exch h).t1
      let num := ((t4 : Int) - m.tC) - ((m.tB : Int) - t1) + toSigned 32 (s.fld F.TK_PORT_CAL_ASYM (hp h))
      let theta := if num % 2 = 1 ∧ num / 2 % 2 = 1 then num / 2 + 1 else num / 2
      let sum := ((m.tB : Int) - t1) + ((t4 : Int) - m.tC)
      let d := if sum % 2 = 1 ∧ sum / 2 % 2 = 1 then sum / 2 + 1 else sum / 2
      (d - r).natAbs ≤ 16 →
      exec (.replyReceive pid) s = .next (finish s (feedSources (s.srcsOf 1 h) theta m.bound (m.hops + 1) m.srcIsYou
        (((answeredSync h m.tA (s.setPkt pid none)).setFld F.TK_PORT_MEAS_DELAY (ofSigned 32 d) (hp h)).setFld F.TK_PORT_MEAS_OFFSET (ofSigned 32 theta) (hp h)))))

/-- A zero significand gives a zero of the sign. Otherwise x is the exponent of the leading bit, q = max(x, emin) − (p − 1) the weight of the last kept bit, and kept is m scaled to q, rounded to nearest with ties to even. Where kept × 2^q exceeds maxfinite, compared exactly, the result is overflow() (R206). Where kept is 2^p it is halved and q goes up by one. Below 2^(p − 1) the result is encode(sign, 0, kept); else encode(sign, q + p − 1 + bias, kept − 2^(p − 1)). -/
def Obligations.RoundingIsTheProcedure : Prop :=
  ∀ (f : FloatFmt) (sat neg : Bool) (m : Nat) (e : Int), f ∈ [fp64, fp32, fp16, bf16, e4m3, e5m2, e2m3, e3m2, e2m1] →
    let x : Int := (m.log2 : Int) + e
    let q : Int := max x f.emin - (f.p - 1 : Nat)
    let sh := (q - e).toNat
    let low : Int := f.emin - (f.p - 1 : Nat)
    let kept :=
      if e < q then
        (if 2 ^ (sh - 1) < m % 2 ^ sh ∨ (m % 2 ^ sh = 2 ^ (sh - 1) ∧ m / 2 ^ sh % 2 = 1) then m / 2 ^ sh + 1 else m / 2 ^ sh)
      else m * 2 ^ (e - q).toNat
    (rn .even sat f neg m e).1 =
      if m = 0 then f.pack neg 0 0
      else if f.maxM * 2 ^ (f.maxE - low).toNat < kept * 2 ^ (q - low).toNat then overflowBits .even sat f neg
      else if kept = 2 ^ f.p then f.pack neg (q + 1 + (f.p - 1 : Nat) + f.bias).toNat (kept / 2 - 2 ^ (f.p - 1))
      else if kept < 2 ^ (f.p - 1) then f.pack neg 0 kept
      else f.pack neg (q + (f.p - 1 : Nat) + f.bias).toNat (kept - 2 ^ (f.p - 1))
end

