-- ==== Sys2Proof/Laws/Tab.lean ====
section
/-! SUPPORT. The laws of the sparse table: a read after a write, and the canonical form kept by every write. -/

namespace Sys2Proof.Machine

variable {κ α : Type} [DecidableEq κ] [Ord κ]

omit [Ord κ] in
theorem tabGet_erase_same (d : α) (t : List (κ × α)) (k : κ) : tabGet d (tabErase t k) k = d := by
  induction t with
  | nil => rfl
  | cons e t ih =>
    by_cases h : e.1 = k
    · simpa [tabErase, h] using ih
    · simpa [tabErase, h, tabGet] using ih

omit [Ord κ] in
theorem tabGet_erase_other (d : α) (t : List (κ × α)) {k k' : κ} (hk : k' ≠ k) :
    tabGet d (tabErase t k) k' = tabGet d t k' := by
  induction t with
  | nil => rfl
  | cons e t ih =>
    by_cases h : e.1 = k
    · have : e.1 ≠ k' := fun h' => hk (h'.symm.trans h)
      simpa [tabErase, tabGet, h, this, hk.symm] using ih
    · simp only [tabErase, List.filter_cons, h, decide_false, Bool.not_false, if_true, tabGet]
      split
      · rfl
      · simpa [tabErase] using ih

omit [DecidableEq κ] in
theorem mem_tabInsert {k : κ} {v : α} {t : List (κ × α)} {e : κ × α} :
    e ∈ tabInsert k v t ↔ e = (k, v) ∨ e ∈ t := by
  induction t with
  | nil => simp [tabInsert]
  | cons a t ih =>
    unfold tabInsert
    split
    · simp
    · simp [ih, or_left_comm]

theorem tabGet_insert_other (d : α) (t : List (κ × α)) {k k' : κ} (v : α) (hk : k' ≠ k) :
    tabGet d (tabInsert k v t) k' = tabGet d t k' := by
  induction t with
  | nil => simp [tabInsert, tabGet, hk.symm]
  | cons e t ih =>
    unfold tabInsert
    split
    · simp [tabGet, hk.symm]
    · simp [tabGet, ih]

theorem tabGet_insert_same (d : α) (t : List (κ × α)) (k : κ) (v : α) (h : ∀ e ∈ t, e.1 ≠ k) :
    tabGet d (tabInsert k v t) k = v := by
  induction t with
  | nil => simp [tabInsert, tabGet]
  | cons e t ih =>
    unfold tabInsert
    split
    · simp [tabGet]
    · have he : e.1 ≠ k := h e (by simp)
      simpa [tabGet, he] using ih (fun e' h' => h e' (by simp [h']))

omit [Ord κ] in
theorem mem_tabErase {t : List (κ × α)} {k : κ} {e : κ × α} :
    e ∈ tabErase t k ↔ e ∈ t ∧ e.1 ≠ k := by
  simp [tabErase]

variable [DecidableEq α]

/-- A read after a write to the same key gives the value written. -/
@[simp] theorem tabGet_set_same (d : α) (t : List (κ × α)) (k : κ) (v : α) :
    tabGet d (tabSet d t k v) k = v := by
  unfold tabSet
  split
  · next h => rw [tabGet_erase_same, h]
  · exact tabGet_insert_same d _ k v (fun e he => (mem_tabErase.mp he).2)

/-- A write leaves every other key alone, whatever an unlisted key of either reads as. -/
theorem tabGet_set_other (d d' : α) (t : List (κ × α)) {k k' : κ} (v : α) (hk : k' ≠ k) :
    tabGet d' (tabSet d t k v) k' = tabGet d' t k' := by
  unfold tabSet
  split
  · exact tabGet_erase_other d' t hk
  · rw [tabGet_insert_other d' _ v hk, tabGet_erase_other d' t hk]

/-- A read after a write, in one equation. -/
theorem tabGet_set (d : α) (t : List (κ × α)) (k k' : κ) (v : α) :
    tabGet d (tabSet d t k v) k' = if k' = k then v else tabGet d t k' := by
  split
  · next h => subst h; exact tabGet_set_same d t _ v
  · next h => exact tabGet_set_other d d t v h

omit [DecidableEq α] in
theorem tabErase_wf (d : α) {t : List (κ × α)} (k : κ) (h : tabWf d t) : tabWf d (tabErase t k) :=
  ⟨h.1.filter _, fun e he => h.2 e (mem_tabErase.mp he).1⟩

omit [DecidableEq κ] [DecidableEq α] in
theorem tabInsert_wf [Std.TransOrd κ] [Std.LawfulEqOrd κ] (d : α) {t : List (κ × α)} {k : κ} {v : α}
    (hv : v ≠ d) (hk : ∀ e ∈ t, e.1 ≠ k) (h : tabWf d t) : tabWf d (tabInsert k v t) := by
  refine ⟨?_, fun e he => ?_⟩
  · induction t with
    | nil => simp [tabInsert]
    | cons a t ih =>
      have h1 := List.pairwise_cons.mp h.1
      unfold tabInsert
      split
      · next hlt =>
        have hlt' : compare k a.1 = .lt := by simpa using hlt
        refine List.pairwise_cons.mpr ⟨fun b hb => ?_, h.1⟩
        rcases List.mem_cons.mp hb with rfl | hb
        · exact hlt'
        · exact Std.TransCmp.lt_trans hlt' (h1.1 b hb)
      · next hlt =>
        refine List.pairwise_cons.mpr ⟨fun b hb => ?_,
          ih (fun e he => hk e (by simp [he])) ⟨h1.2, fun e he => h.2 e (by simp [he])⟩⟩
        rcases mem_tabInsert.mp hb with rfl | hb
        · have hne : compare k a.1 ≠ .lt := by simpa using hlt
          have hneq : compare k a.1 ≠ .eq := fun he =>
            hk a (by simp) (Std.LawfulEqCmp.eq_of_compare he).symm
          have : compare k a.1 = .gt := by
            cases hc : compare k a.1 <;> simp_all
          exact Std.OrientedCmp.lt_of_gt this
        · exact h1.1 b hb
  · rcases mem_tabInsert.mp he with rfl | he
    · exact hv
    · exact h.2 e he

/-- Every write keeps the canonical form. -/
theorem tabSet_wf [Std.TransOrd κ] [Std.LawfulEqOrd κ] (d : α) {t : List (κ × α)} (k : κ) (v : α)
    (h : tabWf d t) : tabWf d (tabSet d t k v) := by
  unfold tabSet
  split
  · exact tabErase_wf d k h
  · next hv => exact tabInsert_wf d hv (fun e he => (mem_tabErase.mp he).2) (tabErase_wf d k h)

end Sys2Proof.Machine
end

