-- ==== Sys2Proof/Laws/State.lean ====
section
/-! SUPPORT. What the named updates of the state leave: one lemma per field of the state per update, and reading a register field
back after it is written. -/

namespace Sys2Proof.Machine

variable (s : State)

@[simp] theorem State.setFld_mem (f : Fld) (v : Nat) (k : List Nat) : (s.setFld f v k).mem = s.mem := rfl
@[simp] theorem State.setFld_gates (f : Fld) (v : Nat) (k : List Nat) : (s.setFld f v k).gates = s.gates := rfl
@[simp] theorem State.setFld_time (f : Fld) (v : Nat) (k : List Nat) : (s.setFld f v k).time = s.time := rfl
@[simp] theorem State.setFld_halves (f : Fld) (v : Nat) (k : List Nat) : (s.setFld f v k).halves = s.halves := rfl
@[simp] theorem State.setFld_ni (f : Fld) (v : Nat) (k : List Nat) : (s.setFld f v k).ni = s.ni := rfl
@[simp] theorem State.setFld_gran (f : Fld) (v : Nat) (k : List Nat) : (s.setFld f v k).gran = s.gran := rfl
@[simp] theorem State.setFld_road (f : Fld) (v : Nat) (k : List Nat) : (s.setFld f v k).road = s.road := rfl
@[simp] theorem State.setFld_tiles (f : Fld) (v : Nat) (k : List Nat) : (s.setFld f v k).tiles = s.tiles := rfl
@[simp] theorem State.setFld_sheaf (f : Fld) (v : Nat) (k : List Nat) : (s.setFld f v k).sheaf = s.sheaf := rfl
@[simp] theorem State.setFld_engine (f : Fld) (v : Nat) (k : List Nat) : (s.setFld f v k).engine = s.engine := rfl
@[simp] theorem State.setFld_trust (f : Fld) (v : Nat) (k : List Nat) : (s.setFld f v k).trust = s.trust := rfl
@[simp] theorem State.setFld_bridge (f : Fld) (v : Nat) (k : List Nat) : (s.setFld f v k).bridge = s.bridge := rfl
@[simp] theorem State.setFld_recorder (f : Fld) (v : Nat) (k : List Nat) : (s.setFld f v k).recorder = s.recorder := rfl
@[simp] theorem State.setFld_safe (f : Fld) (v : Nat) (k : List Nat) : (s.setFld f v k).safe = s.safe := rfl
@[simp] theorem State.setFld_boot (f : Fld) (v : Nat) (k : List Nat) : (s.setFld f v k).boot = s.boot := rfl
@[simp] theorem State.setFld_pins (f : Fld) (v : Nat) (k : List Nat) : (s.setFld f v k).pins = s.pins := rfl
@[simp] theorem State.setFld_snaps (f : Fld) (v : Nat) (k : List Nat) : (s.setFld f v k).snaps = s.snaps := rfl
@[simp] theorem State.setFld_fresh (f : Fld) (v : Nat) (k : List Nat) : (s.setFld f v k).fresh = s.fresh := rfl
@[simp] theorem State.setFld_out (f : Fld) (v : Nat) (k : List Nat) : (s.setFld f v k).out = s.out := rfl
@[simp] theorem State.setFld_pending (f : Fld) (v : Nat) (k : List Nat) : (s.setFld f v k).pending = s.pending := rfl

@[simp] theorem State.bump_mem (f : Fld) (k : List Nat) (n : Nat) : (s.bump f k n).mem = s.mem := rfl
@[simp] theorem State.bump_gates (f : Fld) (k : List Nat) (n : Nat) : (s.bump f k n).gates = s.gates := rfl
@[simp] theorem State.bump_time (f : Fld) (k : List Nat) (n : Nat) : (s.bump f k n).time = s.time := rfl
@[simp] theorem State.bump_halves (f : Fld) (k : List Nat) (n : Nat) : (s.bump f k n).halves = s.halves := rfl
@[simp] theorem State.bump_ni (f : Fld) (k : List Nat) (n : Nat) : (s.bump f k n).ni = s.ni := rfl
@[simp] theorem State.bump_gran (f : Fld) (k : List Nat) (n : Nat) : (s.bump f k n).gran = s.gran := rfl
@[simp] theorem State.bump_road (f : Fld) (k : List Nat) (n : Nat) : (s.bump f k n).road = s.road := rfl
@[simp] theorem State.bump_tiles (f : Fld) (k : List Nat) (n : Nat) : (s.bump f k n).tiles = s.tiles := rfl
@[simp] theorem State.bump_sheaf (f : Fld) (k : List Nat) (n : Nat) : (s.bump f k n).sheaf = s.sheaf := rfl
@[simp] theorem State.bump_engine (f : Fld) (k : List Nat) (n : Nat) : (s.bump f k n).engine = s.engine := rfl
@[simp] theorem State.bump_trust (f : Fld) (k : List Nat) (n : Nat) : (s.bump f k n).trust = s.trust := rfl
@[simp] theorem State.bump_bridge (f : Fld) (k : List Nat) (n : Nat) : (s.bump f k n).bridge = s.bridge := rfl
@[simp] theorem State.bump_recorder (f : Fld) (k : List Nat) (n : Nat) : (s.bump f k n).recorder = s.recorder := rfl
@[simp] theorem State.bump_safe (f : Fld) (k : List Nat) (n : Nat) : (s.bump f k n).safe = s.safe := rfl
@[simp] theorem State.bump_boot (f : Fld) (k : List Nat) (n : Nat) : (s.bump f k n).boot = s.boot := rfl
@[simp] theorem State.bump_pins (f : Fld) (k : List Nat) (n : Nat) : (s.bump f k n).pins = s.pins := rfl
@[simp] theorem State.bump_snaps (f : Fld) (k : List Nat) (n : Nat) : (s.bump f k n).snaps = s.snaps := rfl
@[simp] theorem State.bump_fresh (f : Fld) (k : List Nat) (n : Nat) : (s.bump f k n).fresh = s.fresh := rfl
@[simp] theorem State.bump_out (f : Fld) (k : List Nat) (n : Nat) : (s.bump f k n).out = s.out := rfl
@[simp] theorem State.bump_pending (f : Fld) (k : List Nat) (n : Nat) : (s.bump f k n).pending = s.pending := rfl

@[simp] theorem State.setBit_mem (f : Fld) (b : Nat) (v : Bool) (k : List Nat) : (s.setBit f b v k).mem = s.mem := rfl
@[simp] theorem State.setBit_gates (f : Fld) (b : Nat) (v : Bool) (k : List Nat) : (s.setBit f b v k).gates = s.gates := rfl
@[simp] theorem State.setBit_time (f : Fld) (b : Nat) (v : Bool) (k : List Nat) : (s.setBit f b v k).time = s.time := rfl
@[simp] theorem State.setBit_halves (f : Fld) (b : Nat) (v : Bool) (k : List Nat) : (s.setBit f b v k).halves = s.halves := rfl
@[simp] theorem State.setBit_ni (f : Fld) (b : Nat) (v : Bool) (k : List Nat) : (s.setBit f b v k).ni = s.ni := rfl
@[simp] theorem State.setBit_gran (f : Fld) (b : Nat) (v : Bool) (k : List Nat) : (s.setBit f b v k).gran = s.gran := rfl
@[simp] theorem State.setBit_road (f : Fld) (b : Nat) (v : Bool) (k : List Nat) : (s.setBit f b v k).road = s.road := rfl
@[simp] theorem State.setBit_tiles (f : Fld) (b : Nat) (v : Bool) (k : List Nat) : (s.setBit f b v k).tiles = s.tiles := rfl
@[simp] theorem State.setBit_sheaf (f : Fld) (b : Nat) (v : Bool) (k : List Nat) : (s.setBit f b v k).sheaf = s.sheaf := rfl
@[simp] theorem State.setBit_engine (f : Fld) (b : Nat) (v : Bool) (k : List Nat) : (s.setBit f b v k).engine = s.engine := rfl
@[simp] theorem State.setBit_trust (f : Fld) (b : Nat) (v : Bool) (k : List Nat) : (s.setBit f b v k).trust = s.trust := rfl
@[simp] theorem State.setBit_bridge (f : Fld) (b : Nat) (v : Bool) (k : List Nat) : (s.setBit f b v k).bridge = s.bridge := rfl
@[simp] theorem State.setBit_recorder (f : Fld) (b : Nat) (v : Bool) (k : List Nat) : (s.setBit f b v k).recorder = s.recorder := rfl
@[simp] theorem State.setBit_safe (f : Fld) (b : Nat) (v : Bool) (k : List Nat) : (s.setBit f b v k).safe = s.safe := rfl
@[simp] theorem State.setBit_boot (f : Fld) (b : Nat) (v : Bool) (k : List Nat) : (s.setBit f b v k).boot = s.boot := rfl
@[simp] theorem State.setBit_pins (f : Fld) (b : Nat) (v : Bool) (k : List Nat) : (s.setBit f b v k).pins = s.pins := rfl
@[simp] theorem State.setBit_snaps (f : Fld) (b : Nat) (v : Bool) (k : List Nat) : (s.setBit f b v k).snaps = s.snaps := rfl
@[simp] theorem State.setBit_fresh (f : Fld) (b : Nat) (v : Bool) (k : List Nat) : (s.setBit f b v k).fresh = s.fresh := rfl
@[simp] theorem State.setBit_out (f : Fld) (b : Nat) (v : Bool) (k : List Nat) : (s.setBit f b v k).out = s.out := rfl
@[simp] theorem State.setBit_pending (f : Fld) (b : Nat) (v : Bool) (k : List Nat) : (s.setBit f b v k).pending = s.pending := rfl

@[simp] theorem State.armGate_flds (g : GateId) (m : Nat) : (s.armGate g m).flds = s.flds := rfl
@[simp] theorem State.armGate_mem (g : GateId) (m : Nat) : (s.armGate g m).mem = s.mem := rfl
@[simp] theorem State.armGate_time (g : GateId) (m : Nat) : (s.armGate g m).time = s.time := rfl
@[simp] theorem State.armGate_halves (g : GateId) (m : Nat) : (s.armGate g m).halves = s.halves := rfl
@[simp] theorem State.armGate_ni (g : GateId) (m : Nat) : (s.armGate g m).ni = s.ni := rfl
@[simp] theorem State.armGate_gran (g : GateId) (m : Nat) : (s.armGate g m).gran = s.gran := rfl
@[simp] theorem State.armGate_road (g : GateId) (m : Nat) : (s.armGate g m).road = s.road := rfl
@[simp] theorem State.armGate_tiles (g : GateId) (m : Nat) : (s.armGate g m).tiles = s.tiles := rfl
@[simp] theorem State.armGate_sheaf (g : GateId) (m : Nat) : (s.armGate g m).sheaf = s.sheaf := rfl
@[simp] theorem State.armGate_engine (g : GateId) (m : Nat) : (s.armGate g m).engine = s.engine := rfl
@[simp] theorem State.armGate_trust (g : GateId) (m : Nat) : (s.armGate g m).trust = s.trust := rfl
@[simp] theorem State.armGate_bridge (g : GateId) (m : Nat) : (s.armGate g m).bridge = s.bridge := rfl
@[simp] theorem State.armGate_recorder (g : GateId) (m : Nat) : (s.armGate g m).recorder = s.recorder := rfl
@[simp] theorem State.armGate_safe (g : GateId) (m : Nat) : (s.armGate g m).safe = s.safe := rfl
@[simp] theorem State.armGate_boot (g : GateId) (m : Nat) : (s.armGate g m).boot = s.boot := rfl
@[simp] theorem State.armGate_pins (g : GateId) (m : Nat) : (s.armGate g m).pins = s.pins := rfl
@[simp] theorem State.armGate_snaps (g : GateId) (m : Nat) : (s.armGate g m).snaps = s.snaps := rfl
@[simp] theorem State.armGate_fresh (g : GateId) (m : Nat) : (s.armGate g m).fresh = s.fresh := rfl
@[simp] theorem State.armGate_out (g : GateId) (m : Nat) : (s.armGate g m).out = s.out := rfl
@[simp] theorem State.armGate_pending (g : GateId) (m : Nat) : (s.armGate g m).pending = s.pending := rfl

@[simp] theorem State.dropGate_flds (g : GateId) : (s.dropGate g).flds = s.flds := rfl
@[simp] theorem State.dropGate_mem (g : GateId) : (s.dropGate g).mem = s.mem := rfl
@[simp] theorem State.dropGate_time (g : GateId) : (s.dropGate g).time = s.time := rfl
@[simp] theorem State.dropGate_halves (g : GateId) : (s.dropGate g).halves = s.halves := rfl
@[simp] theorem State.dropGate_ni (g : GateId) : (s.dropGate g).ni = s.ni := rfl
@[simp] theorem State.dropGate_gran (g : GateId) : (s.dropGate g).gran = s.gran := rfl
@[simp] theorem State.dropGate_road (g : GateId) : (s.dropGate g).road = s.road := rfl
@[simp] theorem State.dropGate_tiles (g : GateId) : (s.dropGate g).tiles = s.tiles := rfl
@[simp] theorem State.dropGate_sheaf (g : GateId) : (s.dropGate g).sheaf = s.sheaf := rfl
@[simp] theorem State.dropGate_engine (g : GateId) : (s.dropGate g).engine = s.engine := rfl
@[simp] theorem State.dropGate_trust (g : GateId) : (s.dropGate g).trust = s.trust := rfl
@[simp] theorem State.dropGate_bridge (g : GateId) : (s.dropGate g).bridge = s.bridge := rfl
@[simp] theorem State.dropGate_recorder (g : GateId) : (s.dropGate g).recorder = s.recorder := rfl
@[simp] theorem State.dropGate_safe (g : GateId) : (s.dropGate g).safe = s.safe := rfl
@[simp] theorem State.dropGate_boot (g : GateId) : (s.dropGate g).boot = s.boot := rfl
@[simp] theorem State.dropGate_pins (g : GateId) : (s.dropGate g).pins = s.pins := rfl
@[simp] theorem State.dropGate_snaps (g : GateId) : (s.dropGate g).snaps = s.snaps := rfl
@[simp] theorem State.dropGate_fresh (g : GateId) : (s.dropGate g).fresh = s.fresh := rfl
@[simp] theorem State.dropGate_out (g : GateId) : (s.dropGate g).out = s.out := rfl
@[simp] theorem State.dropGate_pending (g : GateId) : (s.dropGate g).pending = s.pending := rfl

@[simp] theorem State.report_flds (n : FaultNote) : (s.report n).flds = s.flds := rfl
@[simp] theorem State.report_mem (n : FaultNote) : (s.report n).mem = s.mem := rfl
@[simp] theorem State.report_gates (n : FaultNote) : (s.report n).gates = s.gates := rfl
@[simp] theorem State.report_time (n : FaultNote) : (s.report n).time = s.time := rfl
@[simp] theorem State.report_halves (n : FaultNote) : (s.report n).halves = s.halves := rfl
@[simp] theorem State.report_ni (n : FaultNote) : (s.report n).ni = s.ni := rfl
@[simp] theorem State.report_gran (n : FaultNote) : (s.report n).gran = s.gran := rfl
@[simp] theorem State.report_road (n : FaultNote) : (s.report n).road = s.road := rfl
@[simp] theorem State.report_tiles (n : FaultNote) : (s.report n).tiles = s.tiles := rfl
@[simp] theorem State.report_sheaf (n : FaultNote) : (s.report n).sheaf = s.sheaf := rfl
@[simp] theorem State.report_engine (n : FaultNote) : (s.report n).engine = s.engine := rfl
@[simp] theorem State.report_trust (n : FaultNote) : (s.report n).trust = s.trust := rfl
@[simp] theorem State.report_bridge (n : FaultNote) : (s.report n).bridge = s.bridge := rfl
@[simp] theorem State.report_recorder (n : FaultNote) : (s.report n).recorder = s.recorder := rfl
@[simp] theorem State.report_boot (n : FaultNote) : (s.report n).boot = s.boot := rfl
@[simp] theorem State.report_pins (n : FaultNote) : (s.report n).pins = s.pins := rfl
@[simp] theorem State.report_snaps (n : FaultNote) : (s.report n).snaps = s.snaps := rfl
@[simp] theorem State.report_fresh (n : FaultNote) : (s.report n).fresh = s.fresh := rfl
@[simp] theorem State.report_out (n : FaultNote) : (s.report n).out = s.out := rfl
@[simp] theorem State.report_pending (n : FaultNote) : (s.report n).pending = s.pending := rfl

@[simp] theorem State.emit_flds (e : Emission) : (s.emit e).flds = s.flds := rfl
@[simp] theorem State.emit_mem (e : Emission) : (s.emit e).mem = s.mem := rfl
@[simp] theorem State.emit_gates (e : Emission) : (s.emit e).gates = s.gates := rfl
@[simp] theorem State.emit_time (e : Emission) : (s.emit e).time = s.time := rfl
@[simp] theorem State.emit_halves (e : Emission) : (s.emit e).halves = s.halves := rfl
@[simp] theorem State.emit_ni (e : Emission) : (s.emit e).ni = s.ni := rfl
@[simp] theorem State.emit_gran (e : Emission) : (s.emit e).gran = s.gran := rfl
@[simp] theorem State.emit_road (e : Emission) : (s.emit e).road = s.road := rfl
@[simp] theorem State.emit_tiles (e : Emission) : (s.emit e).tiles = s.tiles := rfl
@[simp] theorem State.emit_sheaf (e : Emission) : (s.emit e).sheaf = s.sheaf := rfl
@[simp] theorem State.emit_engine (e : Emission) : (s.emit e).engine = s.engine := rfl
@[simp] theorem State.emit_trust (e : Emission) : (s.emit e).trust = s.trust := rfl
@[simp] theorem State.emit_bridge (e : Emission) : (s.emit e).bridge = s.bridge := rfl
@[simp] theorem State.emit_recorder (e : Emission) : (s.emit e).recorder = s.recorder := rfl
@[simp] theorem State.emit_safe (e : Emission) : (s.emit e).safe = s.safe := rfl
@[simp] theorem State.emit_boot (e : Emission) : (s.emit e).boot = s.boot := rfl
@[simp] theorem State.emit_pins (e : Emission) : (s.emit e).pins = s.pins := rfl
@[simp] theorem State.emit_snaps (e : Emission) : (s.emit e).snaps = s.snaps := rfl
@[simp] theorem State.emit_fresh (e : Emission) : (s.emit e).fresh = s.fresh := rfl
@[simp] theorem State.emit_pending (e : Emission) : (s.emit e).pending = s.pending := rfl

@[simp] theorem State.tick_flds : (s.tick).flds = s.flds := rfl
@[simp] theorem State.tick_mem : (s.tick).mem = s.mem := rfl
@[simp] theorem State.tick_gates : (s.tick).gates = s.gates := rfl
@[simp] theorem State.tick_time : (s.tick).time = s.time := rfl
@[simp] theorem State.tick_halves : (s.tick).halves = s.halves := rfl
@[simp] theorem State.tick_ni : (s.tick).ni = s.ni := rfl
@[simp] theorem State.tick_gran : (s.tick).gran = s.gran := rfl
@[simp] theorem State.tick_road : (s.tick).road = s.road := rfl
@[simp] theorem State.tick_tiles : (s.tick).tiles = s.tiles := rfl
@[simp] theorem State.tick_sheaf : (s.tick).sheaf = s.sheaf := rfl
@[simp] theorem State.tick_engine : (s.tick).engine = s.engine := rfl
@[simp] theorem State.tick_trust : (s.tick).trust = s.trust := rfl
@[simp] theorem State.tick_bridge : (s.tick).bridge = s.bridge := rfl
@[simp] theorem State.tick_recorder : (s.tick).recorder = s.recorder := rfl
@[simp] theorem State.tick_safe : (s.tick).safe = s.safe := rfl
@[simp] theorem State.tick_boot : (s.tick).boot = s.boot := rfl
@[simp] theorem State.tick_pins : (s.tick).pins = s.pins := rfl
@[simp] theorem State.tick_snaps : (s.tick).snaps = s.snaps := rfl
@[simp] theorem State.tick_out : (s.tick).out = s.out := rfl
@[simp] theorem State.tick_pending : (s.tick).pending = s.pending := rfl

@[simp] theorem State.log_mem (cls code source : Nat) (detail : List Byte) (field flags : Nat) :
    (s.log cls code source detail field flags).mem = s.mem := by
  simp only [State.log]; split
  · rfl
  · simp only []; split <;> rfl
@[simp] theorem State.log_gates (cls code source : Nat) (detail : List Byte) (field flags : Nat) :
    (s.log cls code source detail field flags).gates = s.gates := by
  simp only [State.log]; split
  · rfl
  · simp only []; split <;> rfl
@[simp] theorem State.log_time (cls code source : Nat) (detail : List Byte) (field flags : Nat) :
    (s.log cls code source detail field flags).time = s.time := by
  simp only [State.log]; split
  · rfl
  · simp only []; split <;> rfl
@[simp] theorem State.log_halves (cls code source : Nat) (detail : List Byte) (field flags : Nat) :
    (s.log cls code source detail field flags).halves = s.halves := by
  simp only [State.log]; split
  · rfl
  · simp only []; split <;> rfl
@[simp] theorem State.log_ni (cls code source : Nat) (detail : List Byte) (field flags : Nat) :
    (s.log cls code source detail field flags).ni = s.ni := by
  simp only [State.log]; split
  · rfl
  · simp only []; split <;> rfl
@[simp] theorem State.log_gran (cls code source : Nat) (detail : List Byte) (field flags : Nat) :
    (s.log cls code source detail field flags).gran = s.gran := by
  simp only [State.log]; split
  · rfl
  · simp only []; split <;> rfl
@[simp] theorem State.log_road (cls code source : Nat) (detail : List Byte) (field flags : Nat) :
    (s.log cls code source detail field flags).road = s.road := by
  simp only [State.log]; split
  · rfl
  · simp only []; split <;> rfl
@[simp] theorem State.log_tiles (cls code source : Nat) (detail : List Byte) (field flags : Nat) :
    (s.log cls code source detail field flags).tiles = s.tiles := by
  simp only [State.log]; split
  · rfl
  · simp only []; split <;> rfl
@[simp] theorem State.log_sheaf (cls code source : Nat) (detail : List Byte) (field flags : Nat) :
    (s.log cls code source detail field flags).sheaf = s.sheaf := by
  simp only [State.log]; split
  · rfl
  · simp only []; split <;> rfl
@[simp] theorem State.log_engine (cls code source : Nat) (detail : List Byte) (field flags : Nat) :
    (s.log cls code source detail field flags).engine = s.engine := by
  simp only [State.log]; split
  · rfl
  · simp only []; split <;> rfl
@[simp] theorem State.log_trust (cls code source : Nat) (detail : List Byte) (field flags : Nat) :
    (s.log cls code source detail field flags).trust = s.trust := by
  simp only [State.log]; split
  · rfl
  · simp only []; split <;> rfl
@[simp] theorem State.log_bridge (cls code source : Nat) (detail : List Byte) (field flags : Nat) :
    (s.log cls code source detail field flags).bridge = s.bridge := by
  simp only [State.log]; split
  · rfl
  · simp only []; split <;> rfl
@[simp] theorem State.log_safe (cls code source : Nat) (detail : List Byte) (field flags : Nat) :
    (s.log cls code source detail field flags).safe = s.safe := by
  simp only [State.log]; split
  · rfl
  · simp only []; split <;> rfl
@[simp] theorem State.log_boot (cls code source : Nat) (detail : List Byte) (field flags : Nat) :
    (s.log cls code source detail field flags).boot = s.boot := by
  simp only [State.log]; split
  · rfl
  · simp only []; split <;> rfl
@[simp] theorem State.log_pins (cls code source : Nat) (detail : List Byte) (field flags : Nat) :
    (s.log cls code source detail field flags).pins = s.pins := by
  simp only [State.log]; split
  · rfl
  · simp only []; split <;> rfl
@[simp] theorem State.log_snaps (cls code source : Nat) (detail : List Byte) (field flags : Nat) :
    (s.log cls code source detail field flags).snaps = s.snaps := by
  simp only [State.log]; split
  · rfl
  · simp only []; split <;> rfl
@[simp] theorem State.log_fresh (cls code source : Nat) (detail : List Byte) (field flags : Nat) :
    (s.log cls code source detail field flags).fresh = s.fresh := by
  simp only [State.log]; split
  · rfl
  · simp only []; split <;> rfl
@[simp] theorem State.log_out (cls code source : Nat) (detail : List Byte) (field flags : Nat) :
    (s.log cls code source detail field flags).out = s.out := by
  simp only [State.log]; split
  · rfl
  · simp only []; split <;> rfl
@[simp] theorem State.log_pending (cls code source : Nat) (detail : List Byte) (field flags : Nat) :
    (s.log cls code source detail field flags).pending = s.pending := by
  simp only [State.log]; split
  · rfl
  · simp only []; split <;> rfl

/-! ## Register fields -/

theorem State.fld_setFld_same (f : Fld) (v : Nat) (k : List Nat) : (s.setFld f v k).fld f k = v % 2 ^ f.width := by
  exact tabGet_set_same _ _ _ _

theorem State.fld_setFld_other {f g : Fld} (v : Nat) {k l : List Nat} (h : fldKey f k ≠ fldKey g l) :
    (s.setFld f v k).fld g l = s.fld g l := by
  exact tabGet_set_other _ _ _ _ h.symm

/-- A field of another register, or at another place of it, is not touched. -/
theorem State.fld_setFld_ne {f g : Fld} (v : Nat) {k l : List Nat} (h : f.reg ≠ g.reg ∨ f.lo ≠ g.lo ∨ k ≠ l) :
    (s.setFld f v k).fld g l = s.fld g l := by
  apply State.fld_setFld_other
  intro e
  simp only [fldKey, List.cons.injEq] at e
  obtain ⟨e1, e2, e3⟩ := e
  rcases h with h | h | h
  · exact h (by rw [← Reg.ofNat_ctorIdx f.reg, e1, Reg.ofNat_ctorIdx])
  · exact h e2
  · exact h e3

end Sys2Proof.Machine
end

