-- ==== Sys2Proof/Laws/Step.lean ====
section
/-! SUPPORT. What ends every command: `settle`, `finish` and `run`, each with everything it can do said once. -/

namespace Sys2Proof.Machine

variable (s t : State)

@[simp] theorem settle_mem : (settle s).mem = s.mem := rfl
@[simp] theorem settle_gates : (settle s).gates = s.gates := rfl
@[simp] theorem settle_time : (settle s).time = s.time := rfl
@[simp] theorem settle_halves : (settle s).halves = s.halves := rfl
@[simp] theorem settle_ni : (settle s).ni = s.ni := rfl
@[simp] theorem settle_gran : (settle s).gran = s.gran := rfl
@[simp] theorem settle_road : (settle s).road = s.road := rfl
@[simp] theorem settle_tiles : (settle s).tiles = s.tiles := rfl
@[simp] theorem settle_sheaf : (settle s).sheaf = s.sheaf := rfl
@[simp] theorem settle_engine : (settle s).engine = s.engine := rfl
@[simp] theorem settle_trust : (settle s).trust = s.trust := rfl
@[simp] theorem settle_bridge : (settle s).bridge = s.bridge := rfl
@[simp] theorem settle_recorder : (settle s).recorder = s.recorder := rfl
@[simp] theorem settle_safe : (settle s).safe = s.safe := rfl
@[simp] theorem settle_boot : (settle s).boot = s.boot := rfl
@[simp] theorem settle_snaps : (settle s).snaps = s.snaps := rfl
@[simp] theorem settle_fresh : (settle s).fresh = s.fresh := rfl
@[simp] theorem settle_out : (settle s).out = s.out := rfl
@[simp] theorem settle_pending : (settle s).pending = s.pending := rfl

@[simp] theorem finish_mem : (finish s t).mem = t.mem := rfl
@[simp] theorem finish_gates : (finish s t).gates = t.gates := rfl
@[simp] theorem finish_time : (finish s t).time = t.time := rfl
@[simp] theorem finish_halves : (finish s t).halves = t.halves := rfl
@[simp] theorem finish_ni : (finish s t).ni = t.ni := rfl
@[simp] theorem finish_gran : (finish s t).gran = t.gran := rfl
@[simp] theorem finish_road : (finish s t).road = t.road := rfl
@[simp] theorem finish_tiles : (finish s t).tiles = t.tiles := rfl
@[simp] theorem finish_sheaf : (finish s t).sheaf = t.sheaf := rfl
@[simp] theorem finish_engine : (finish s t).engine = t.engine := rfl
@[simp] theorem finish_trust : (finish s t).trust = t.trust := rfl
@[simp] theorem finish_bridge : (finish s t).bridge = t.bridge := rfl
@[simp] theorem finish_recorder : (finish s t).recorder = t.recorder := rfl
@[simp] theorem finish_safe : (finish s t).safe = t.safe := rfl
@[simp] theorem finish_boot : (finish s t).boot = t.boot := rfl
@[simp] theorem finish_snaps : (finish s t).snaps = t.snaps := rfl
@[simp] theorem finish_fresh : (finish s t).fresh = t.fresh := rfl
@[simp] theorem finish_out : (finish s t).out = t.out := rfl
@[simp] theorem finish_pending : (finish s t).pending = s.pending := rfl

/-- Every register field but DV_ALERT's CAUSE and LATCH is as the command's effect left it. -/
theorem settle_fld (f : Fld) (k : List Nat) (h1 : fldKey f k ≠ fldKey F.DV_ALERT_CAUSE [])
    (h2 : fldKey f k ≠ fldKey F.DV_ALERT_LATCH []) : (settle s).fld f k = s.fld f k := by
  show ((s.setFld F.DV_ALERT_CAUSE _).setFld F.DV_ALERT_LATCH _).fld f k = _
  rw [State.fld_setFld_other _ _ h2.symm, State.fld_setFld_other _ _ h1.symm]

/-- The same, for a field of another register than DV_ALERT. -/
theorem settle_fld_reg (f : Fld) (k : List Nat) (h : f.reg ≠ .DV_ALERT) : (settle s).fld f k = s.fld f k := by
  have e : f.reg.ctorIdx ≠ Reg.ctorIdx .DV_ALERT := fun e =>
    h (by rw [← Reg.ofNat_ctorIdx f.reg, e, Reg.ofNat_ctorIdx])
  apply settle_fld <;> intro h' <;> exact e (List.cons.inj h').1

theorem finish_fld_reg (f : Fld) (k : List Nat) (h : f.reg ≠ .DV_ALERT) : (finish s t).fld f k = t.fld f k :=
  settle_fld_reg t f k h

/-- `run` answers a next state exactly for the operands that can reach the device. -/
theorem run_wellFormed {i : Instr} (h : i.wellFormed) : run i s t = .next (finish s t) := by
  simp [run, h]

theorem run_next_iff {i : Instr} {u : State} : run i s t = .next u ↔ i.wellFormed ∧ u = finish s t := by
  unfold run
  split
  · next h => simp [h, eq_comm]
  · next h => simp [h]

end Sys2Proof.Machine
end

