-- ==== Sys2Proof/Laws/Memory.lean ====
section
/-! SUPPORT. Tile memory: what a read gives after a write, and that every operation on memory keeps its canonical form. -/

namespace Sys2Proof.Machine

variable (s : State)

/-- An offset below the tile's end falls inside that tile's keys, so that keys of two tiles differ. -/
theorem tileBase_inj {d t d' t' off off' : Nat} (ht : t < 2048) (ht' : t' < 2048) (h : off < tileSize) (h' : off' < tileSize) :
    tileBase d t + off = tileBase d' t' + off' ↔ d = d' ∧ t = t' ∧ off = off' := by
  unfold tileBase tileSize at *
  omega

theorem memByte_setMemByte_same {off : Nat} (d t : Nat) (b : Byte) (h : off < tileSize) :
    (s.setMemByte d t off b).memByte d t off = b := by
  simp [State.setMemByte, State.memByte, h]

theorem memByte_setMemByte_other {d t off d' t' off' : Nat} (b : Byte)
    (h : tileBase d t + off ≠ tileBase d' t' + off') :
    (s.setMemByte d t off b).memByte d' t' off' = s.memByte d' t' off' := by
  unfold State.setMemByte
  split
  · exact tabGet_set_other _ _ _ _ h.symm
  · rfl

/-- A write of a byte string leaves every byte of the same tile outside it. -/
theorem memByte_writeMem_outside (d t off : Nat) (l : List Byte) {a : Nat} (h : a < off ∨ off + l.length ≤ a) :
    (s.writeMem d t off l).memByte d t a = s.memByte d t a := by
  induction l generalizing s off with
  | nil => rfl
  | cons b l ih =>
    simp only [List.length_cons] at h
    rw [State.writeMem, ih _ _ (by omega), memByte_setMemByte_other]
    omega

/-- A write of a byte string that the tile holds is read back byte by byte. -/
theorem memByte_writeMem_inside (d t off : Nat) (l : List Byte) {i : Nat} (hi : i < l.length) (h : off + l.length ≤ tileSize) :
    (s.writeMem d t off l).memByte d t (off + i) = l[i] := by
  induction l generalizing s off i with
  | nil => exact absurd hi (Nat.not_lt_zero i)
  | cons b l ih =>
    simp only [List.length_cons] at h hi
    rw [State.writeMem]
    cases i with
    | zero =>
      rw [Nat.add_zero, memByte_writeMem_outside _ _ _ _ _ (by omega)]
      exact memByte_setMemByte_same s d t b (by omega)
    | succ i =>
      have := ih (s.setMemByte d t off b) (off + 1) (i := i) (by omega) (by omega)
      rw [show off + (i + 1) = off + 1 + i by omega, this]
      rfl

theorem memWf_setMemByte {s : State} (d t off : Nat) (b : Byte) (h : Memory.wf s.mem) :
    Memory.wf (s.setMemByte d t off b).mem := by
  unfold State.setMemByte
  split
  · exact tabSet_wf _ _ _ h
  · exact h

theorem memWf_writeMem {s : State} (d t off : Nat) (l : List Byte) (h : Memory.wf s.mem) :
    Memory.wf (s.writeMem d t off l).mem := by
  induction l generalizing s off with
  | nil => exact h
  | cons b l ih => exact ih _ (memWf_setMemByte d t off b h)

/-- Dropping entries keeps the form: zeroing a tile, a row or a die. -/
theorem memWf_filter {m : List Host.Cell} (p : Host.Cell → Bool) (h : Memory.wf m) : Memory.wf (m.filter p) :=
  ⟨h.1.filter _, fun e he => h.2 e (List.mem_filter.mp he).1⟩

theorem memWf_zeroTile {s : State} (d t : Nat) (h : Memory.wf s.mem) : Memory.wf (zeroTile d t s).mem :=
  memWf_filter _ h

theorem memWf_reset : Memory.wf State.reset.mem := ⟨List.Pairwise.nil, fun _ h => absurd h List.not_mem_nil⟩

end Sys2Proof.Machine
end

