-- ==== Sys2Proof/Laws/Records.lean ====
section
/-! SUPPORT. Reading a record of the state back after it is set, for every keyed record: the one that was set gives what was set, and
every other one what it gave before. -/

namespace Sys2Proof.Machine

variable (s : State)

@[simp] theorem State.half_setHalf_same (h : Nat) (r : HalfPort) : (s.setHalf h r).half h = r := tabGet_set_same _ _ _ _
theorem State.half_setHalf_other {h h' : Nat} (r : HalfPort) (hk : [h'] ≠ [h]) : (s.setHalf h r).half h' = s.half h' := tabGet_set_other _ _ _ _ hk
@[simp] theorem State.pkt_setPkt_same (n : Nat) (r : Option Pkt) : (s.setPkt n r).pkt n = r := tabGet_set_same _ _ _ _
theorem State.pkt_setPkt_other {n n' : Nat} (r : Option Pkt) (hk : [n'] ≠ [n]) : (s.setPkt n r).pkt n' = s.pkt n' := tabGet_set_other _ _ _ _ hk
@[simp] theorem State.cell_setCell_same (d c : Nat) (r : CellRec) : (s.setCell d c r).cell d c = r := tabGet_set_same _ _ _ _
theorem State.cell_setCell_other {d c d' c' : Nat} (r : CellRec) (hk : [d', c'] ≠ [d, c]) : (s.setCell d c r).cell d' c' = s.cell d' c' := tabGet_set_other _ _ _ _ hk
@[simp] theorem State.queue_setQueue_same (d o q : Nat) (r : List Nat) : (s.setQueue d o q r).queue d o q = r := tabGet_set_same _ _ _ _
theorem State.queue_setQueue_other {d o q d' o' q' : Nat} (r : List Nat) (hk : [d', o', q'] ≠ [d, o, q]) : (s.setQueue d o q r).queue d' o' q' = s.queue d' o' q' := tabGet_set_other _ _ _ _ hk
@[simp] theorem State.slot_setSlot_same (d t n : Nat) (r : SlotRec) : (s.setSlot d t n r).slot d t n = r := tabGet_set_same _ _ _ _
theorem State.slot_setSlot_other {d t n d' t' n' : Nat} (r : SlotRec) (hk : [d', t', n'] ≠ [d, t, n]) : (s.setSlot d t n r).slot d' t' n' = s.slot d' t' n' := tabGet_set_other _ _ _ _ hk
@[simp] theorem State.readyQ_setReadyQ_same (d t : Nat) (r : List Nat) : (s.setReadyQ d t r).readyQ d t = r := tabGet_set_same _ _ _ _
theorem State.readyQ_setReadyQ_other {d t d' t' : Nat} (r : List Nat) (hk : [d', t'] ≠ [d, t]) : (s.setReadyQ d t r).readyQ d' t' = s.readyQ d' t' := tabGet_set_other _ _ _ _ hk
@[simp] theorem State.overQ_setOverQ_same (d t : Nat) (r : List Nat) : (s.setOverQ d t r).overQ d t = r := tabGet_set_same _ _ _ _
theorem State.overQ_setOverQ_other {d t d' t' : Nat} (r : List Nat) (hk : [d', t'] ≠ [d, t]) : (s.setOverQ d t r).overQ d' t' = s.overQ d' t' := tabGet_set_other _ _ _ _ hk
@[simp] theorem State.issueQ_setIssueQ_same (d t u : Nat) (r : List Nat) : (s.setIssueQ d t u r).issueQ d t u = r := tabGet_set_same _ _ _ _
theorem State.issueQ_setIssueQ_other {d t u d' t' u' : Nat} (r : List Nat) (hk : [d', t', u'] ≠ [d, t, u]) : (s.setIssueQ d t u r).issueQ d' t' u' = s.issueQ d' t' u' := tabGet_set_other _ _ _ _ hk
@[simp] theorem State.storeBuf_setStoreBuf_same (d t : Nat) (r : List BufStore) : (s.setStoreBuf d t r).storeBuf d t = r := tabGet_set_same _ _ _ _
theorem State.storeBuf_setStoreBuf_other {d t d' t' : Nat} (r : List BufStore) (hk : [d', t'] ≠ [d, t]) : (s.setStoreBuf d t r).storeBuf d' t' = s.storeBuf d' t' := tabGet_set_other _ _ _ _ hk
@[simp] theorem State.sendQ_setSendQ_same (d t : Nat) (r : List SendItem) : (s.setSendQ d t r).sendQ d t = r := tabGet_set_same _ _ _ _
theorem State.sendQ_setSendQ_other {d t d' t' : Nat} (r : List SendItem) (hk : [d', t'] ≠ [d, t]) : (s.setSendQ d t r).sendQ d' t' = s.sendQ d' t' := tabGet_set_other _ _ _ _ hk
@[simp] theorem State.node_setNode_same (d f n : Nat) (r : Option SheafNode) : (s.setNode d f n r).node d f n = r := tabGet_set_same _ _ _ _
theorem State.node_setNode_other {d f n d' f' n' : Nat} (r : Option SheafNode) (hk : [d', f', n'] ≠ [d, f, n]) : (s.setNode d f n r).node d' f' n' = s.node d' f' n' := tabGet_set_other _ _ _ _ hk
@[simp] theorem State.job_setJob_same (f j : Nat) (r : Option WinnowJob) : (s.setJob f j r).job f j = r := tabGet_set_same _ _ _ _
theorem State.job_setJob_other {f j f' j' : Nat} (r : Option WinnowJob) (hk : [f', j'] ≠ [f, j]) : (s.setJob f j r).job f' j' = s.job f' j' := tabGet_set_other _ _ _ _ hk
@[simp] theorem State.ctx_setCtx_same (n : Nat) (r : Option GlCtx) : (s.setCtx n r).ctx n = r := tabGet_set_same _ _ _ _
theorem State.ctx_setCtx_other {n n' : Nat} (r : Option GlCtx) (hk : [n'] ≠ [n]) : (s.setCtx n r).ctx n' = s.ctx n' := tabGet_set_other _ _ _ _ hk
@[simp] theorem State.exchksetExchksame (h : Nat) (r : Exchange) : (s.setExch h r).exch h = r := tabGet_set_same _ _ _ _
theorem State.exchksetExchkother {h h' : Nat} (r : Exchange) (hk : [h'] ≠ [h]) : (s.setExch h r).exch h' = s.exch h' := tabGet_set_other _ _ _ _ hk
@[simp] theorem State.secret_setSecret_same (h n : Nat) (r : Option LinkSecret) : (s.setSecret h n r).secret h n = r := tabGet_set_same _ _ _ _
theorem State.secret_setSecret_other {h n h' n' : Nat} (r : Option LinkSecret) (hk : [h', n'] ≠ [h, n]) : (s.setSecret h n r).secret h' n' = s.secret h' n' := tabGet_set_other _ _ _ _ hk
@[simp] theorem State.hsOn_setHs_same (h : Nat) (r : Option HsRec) : (s.setHs h r).hsOn h = r := tabGet_set_same _ _ _ _
theorem State.hsOn_setHs_other {h h' : Nat} (r : Option HsRec) (hk : [h'] ≠ [h]) : (s.setHs h r).hsOn h' = s.hsOn h' := tabGet_set_other _ _ _ _ hk
@[simp] theorem State.session_setSession_same (n : Nat) (r : Option Session) : (s.setSession n r).session n = r := tabGet_set_same _ _ _ _
theorem State.session_setSession_other {n n' : Nat} (r : Option Session) (hk : [n'] ≠ [n]) : (s.setSession n r).session n' = s.session n' := tabGet_set_other _ _ _ _ hk

/-- A tag that is set reads as what was set. -/
@[simp] theorem State.tagOf_setTag_same (d t i : Nat) (r : TagRec) : (s.setTag d t i r).tagOf d t i = r := by
  simp [State.tagOf, State.setTag]

/-- The unit that is set running, or idle, reads so. -/
@[simp] theorem State.running_setRunning_same (d t u : Nat) (o : Option Nat) : (s.setRunning d t u o).running d t u = o := by
  cases o <;> simp [State.running, State.setRunning]

/-- A packet's CHECK holds as its source sends it. -/
@[simp] theorem checkOk_sealCheck (p : Packet) : checkOk (sealCheck p) = true := decide_eq_true rfl

end Sys2Proof.Machine
end

