-- ==== Sys2Proof/Tests/Slice0.lean ====
section
/-! SUPPORT. The model's own tests: worked examples of the spec, one ill-formed operand for each check of WellFormed, and for every
clause of every statement a state and operands that meet its hypotheses. -/

namespace Sys2Proof.Machine

set_option Elab.async false
set_option maxRecDepth 20000

/-! ## Small states -/

/-- The state after reset with some register fields set. -/
def withFlds (l : List (Fld × List Nat × Nat)) : State := l.foldl (fun s e => s.setFld e.1 e.2.2 e.2.1) State.reset

/-- Time valid in LOCKED, with count 1,000,000,000. -/
def lockedState (l : List (Fld × List Nat × Nat)) : State :=
  let s := withFlds ([(F.TK_STATUS_STATE, [], 2), (F.TK_STATUS_VALID, [], 1), (F.TK_STATUS_BOUND_PS, [], 500)] ++ l)
  { s with time := { s.time with mode := .locked, count := 1000000000 } }

/-- Reset leaves the alert causes, the latch and the pins as the state gives them. -/
theorem test_reset_settled : settle State.reset = State.reset := by decide +kernel

/-- An empty memory is in canonical form. -/
theorem test_reset_memory : Memory.wf State.reset.mem := memWf_reset

/-! ## Ill-formed commands: one for each check of WellFormed, and each refused -/

def refuses (i : Instr) : Bool :=
  !i.wellFormed && (match exec i State.reset with
    | .refused (.illFormed _) => true
    | _ => false)
def aHdr : Hdr := { typ := 0x20 }
def aPacket : Packet := { h := aHdr, body := List.replicate 32 0 }
def aFrame : TrainFrame := { bytes := List.replicate 32 0, satisfied := false, asks := 0, wantPre := false }
def aDatagram : Datagram := { dstMac := 0, vlan := none, srcIp := 0, dstIp := 0, ecn := 0, udpPort := 0, checksumOk := true, seq := 0, p := aPacket, tag := List.replicate 16 0 }
theorem test_wellFormed_aMsg : aPacket.wellFormed = true ∧ aDatagram.wellFormed = true ∧ (Instr.trainingFrame 0 0 aFrame).wellFormed = true := by decide +kernel
/-- Gates, domains and stalled units that the device does not have. -/
theorem test_illFormed_names : [Instr.gateRelease (.fallow 8), .gateRelease (.snap 4), .gateRelease (.admitAt 16), .gateRelease (.wbStart 8 0 0), .gateRelease (.wbStart 0 2048 0),
    .gateRelease (.wbRelease 0 0 1024), .drainEnd (.die 8), .drainEnd (.field 16), .drainEnd (.tile 8 0), .drainEnd (.tile 0 2048), .hangStall (.tile 8 0 0), .hangStall (.tile 0 2048 0),
    .hangStall (.tile 0 0 4), .hangStall (.shared 8 0 0), .hangStall (.shared 0 256 0), .hangStall (.shared 0 0 8), .hangStall (.crossing 8 0), .hangStall (.crossing 0 8),
    .hangStall (.crossing 3 3)].all refuses = true := by decide +kernel
/-- Half-ports, lanes and reasons. -/
theorem test_illFormed_links : [Instr.syncSend 16, .ptpSyncSend 16, .announceSend 16, .pdelayReqSend 16, .signalDetect 16, .tapUpdate 16 0, .tapUpdate 0 16, .phaseTimeout 16, .trainRestart 16,
    .linkLoss 16 true, .downUnitReceive 16 (List.replicate 64 0), .downUnitReceive 0 [], .sealUnit 16 (List.replicate 64 0), .sealUnit 0 [], .blockReceive 16 0 (List.replicate 2720 0),
    .blockReceive 0 16 (List.replicate 2720 0), .blockReceive 0 0 [], .blockReceive 0 0 (List.replicate 2720 4), .rekeyStart 16, .keyInstalled 16, .keyRetire 16, .hello 16 none, .kemct 16 none,
    .finish 16 none, .done 16, .abort 16 1, .abort 0 256,
    .relinkSignal 16 [], .relinkSignal 0 [8], .relinkTimeout 16, .ethFrameReceive 16 [], .macAgeExpire 4096 0, .macAgeExpire 0 (2 ^ 48), .ethLinkUp 16, .ethLinkDown 16, .portPermit 16 true,
    .permitLoss 16, .heartbeatLoss 16, .alignUnit 16 (List.replicate 8 ⟨List.replicate 64 0, 0⟩), .alignUnit 0 [], .alignUnit 0 (List.replicate 8 ⟨[], 0⟩),
    .alignUnit 0 (List.replicate 8 ⟨List.replicate 64 0, 4096⟩), .trainingFrame 16 0 aFrame, .trainingFrame 0 16 aFrame, .trainingFrame 0 0 { aFrame with bytes := [] },
    .trainingFrame 0 0 { aFrame with asks := 8192 }, .trainingFrame 0 0 { aFrame with asks := 3 }, .packetEligible 0 [], .tunnelDatagram 16 aDatagram,
    .tunnelDatagram 0 { aDatagram with dstMac := 2 ^ 48 }, .tunnelDatagram 0 { aDatagram with vlan := some 4096 }, .tunnelDatagram 0 { aDatagram with ecn := 4 },
    .tunnelDatagram 0 { aDatagram with seq := 2 ^ 64 }, .tunnelDatagram 0 { aDatagram with tag := [] }].all refuses = true := by decide +kernel
/-- Readings, messages and packets whose fields do not fit what carries them. -/
theorem test_illFormed_messages : [Instr.paceUpdate [], .paceUpdate (List.replicate 64 65536), .replicaCompare [], .todMessage [],
    .packetArrival 16 aPacket, .packetArrival 0 { aPacket with body := [] }, .packetArrival 0 { aPacket with data := [0] }, .packetArrival 0 { aPacket with check := 2 ^ 64 },
    .packetArrival 0 { aPacket with h := { aHdr with typ := 256 } }, .packetArrival 0 { aPacket with h := { aHdr with field := 4096 } }, .packetArrival 0 { aPacket with h := { aHdr with dstRank := 2 ^ 20 } },
    .packetArrival 0 { aPacket with h := { aHdr with hop := 16 } }, .packetArrival 0 { h := { typ := 0x80, units := 4 }, body := List.replicate 40 0 }].all refuses = true := by decide +kernel
theorem test_illFormed_messages2 : [Instr.sampleMissing 4, .chainFrameReceive ⟨256, 0, 0, [], 0⟩, .chainFrameReceive ⟨1, 2 ^ 32, 0, [], 0⟩, .chainFrameReceive ⟨1, 0, 65536, [], 0⟩,
    .chainFrameReceive ⟨1, 0, 0, [], 2 ^ 32⟩, .ptpMessageReceive 16 ⟨false, 0, .unsupported⟩, .ptpMessageReceive 0 ⟨false, 256, .unsupported⟩, .ptpMessageReceive 0 ⟨false, 0, .sync 65536⟩,
    .ptpMessageReceive 0 ⟨true, 0, .announce 0 256⟩, .smbusRead 128 [] true, .smbusSnapRead 128 [] true].all refuses = true := by decide +kernel
/-- Dies, tiles, units, slots, banks, tags and Fields. -/
theorem test_illFormed_units : [Instr.outputStart 8 0, .outputStart 0 5, .tallyScan 8 [], .tallyScan 0 [(24576, true)], .echoSend 8 0 0 0, .echoSend 0 2049 0 0, .echoSend 0 0 4096 0, .echoSend 0 0 0 (2 ^ 20),
    .rateRecover 8 0 0 0, .rateRecover 0 2049 0 0, .busyBackoffExpire 8 0 0, .e2eTimeout 0 2048 0, .tagQuarantineEnd 0 0 4096, .schedDeparture 16384 0, .slotShortfallCheck 16384,
    .departureWindowEnd 16384, .bankSealDone 2, .floorAlarm 8 0, .floorBreach 8 0 0, .floorBreach 0 65536 0, .floorBreach 0 0 4096, .suspend 8, .dispatch 8 0, .dispatch 0 2048, .waybillStart 0 0 4,
    .instanceDone 0 0 4, .waybillComplete 0 0 1024, .join 8 0, .matmul 0 0 3, .vfloat 0 2048 0, .vint 0 0 3, .vreduce 8 0 0, .copy 0 0 3, .fill 0 2048 0, .put 0 0 3, .get 8 0 0, .call 0 0 3, .packed 8 0,
    .packedBundle 0 0 4].all refuses = true := by decide +kernel
theorem test_illFormed_units2 : [Instr.windowSet 8 0, .roleDeclare 0 2048, .tileReset 8 0, .tileResetDone 0 2048, .wbArm 8 0, .wbBcast 0 2048, .wbRenew 8 0, .wbQuery 0 2048, .flagsRead 8 0, .timeRead 0 2048,
    .patch 8 0, .branch 0 2048, .scalarF 8 0, .sheafDefine 0 2048, .sheafUndefine 8 0, .sheafQuery 0 2048, .chunkAccumulate 8 0 0 0 0 false, .sheafDeadline 8 0 0, .winnowDefine 8 0, .winnowUndefine 0 2048,
    .winnowQuery 8 0, .winnowRoundProcess 4096 0 false, .winnowDeadline 4096 0, .glDefine 8 0, .glUndefine 0 2048, .glStatus 8 0, .gleanBatchStart 4096, .baleTaskDone 4096 0 0 false,
    .gleanResultForm 4096 0, .gleanDeadline 4096 0, .attest 8 0].all refuses = true := by decide +kernel
/-- Start-up, safety and admission. -/
theorem test_illFormed_system : let r : NvmRead := { sfdpOk := true, octal := true, quad := true, densityLog2 := 0, jedec := 0, bytes := [] }
    [Instr.bootStart true 4 true, .imageStaged 3 r, .imageStaged 0 { r with densityLog2 := 64 }, .imageStaged 0 { r with jedec := 2 ^ 24 }, .chainStatusTimeout 4, .thermalTrip 8, .overcurrentTrip 8, .fieldActivate 16,
    .rowZeroiseDone 8 0 true, .rowZeroiseDone 0 32 true, .evictionDone 16, .handoffEnd 16, .fallowSwitchIn 8, .snapLatch 4, .xferGapTimeout 4, .vcoreSettle 8 0 0, .vcoreSettle 0 65536 0, .vcoreSettle 0 0 65536,
    .memorySelfTestDone (some 8) [] true true, .memorySelfTestDone none [272] true true, .faultReport ⟨0, false, [], 0, 0, 0, none, false, 0, 0, false, []⟩,
    .faultReport ⟨1, false, [], 8, 0, 0, none, false, 0, 0, false, []⟩, .faultReport ⟨1, false, [], 0, 8, 0, none, false, 0, 0, false, []⟩, .faultReport ⟨1, false, [], 0, 0, 65536, none, false, 0, 0, false, []⟩,
    .faultReport ⟨1, false, [], 0, 0, 0, some 32, false, 0, 0, false, []⟩, .faultReport ⟨1, false, [], 0, 0, 0, none, false, 17, 0, false, []⟩].all refuses = true := by decide +kernel

/-! ## The block -/

theorem witness_stepFront : ({ State.reset with pending := [.vauxUp, .pwrGoodRise] } : State).pending = [.vauxUp, .pwrGoodRise] := rfl
theorem witness_stepIdle : State.reset.pending = [] ∧ State.reset.boot.vaux = true ∧ ({ State.reset with boot := { State.reset.boot with vaux := false } } : State).boot.vaux = false := by
  decide +kernel
/-- A step of the state after reset, whose one command raises PWR_GOOD: the premise of the pins' invariant holds and the step answers. -/
theorem witness_stepPins : (match step { State.reset with pending := [.pwrGoodRise] } with
    | .next t => t.boot.pwrGood && t.pending.isEmpty && decide (t.pins.dieFenceN = poweredDies t)
    | _ => false) = true := by decide +kernel
/-- An idle step counts one sixteenth of a nanosecond at nominal rate. -/
theorem test_idle_step : (match step State.reset with
    | .next t => decide (t.now = 1)
    | _ => false) = true := by decide +kernel

/-! ## Hall time -/

/-- The exchange of the worked example of R57: θ = 6 and d = 198. -/
theorem test_exchange_example :
    offsetOf 16000000000 16000000194 16000004994 16000005196 4 = 6 ∧
    delayOf 16000000000 16000000194 16000004994 16000005196 = 198 := by decide +kernel

/-- The servo of the worked example of R60: freq_ppt −183,106 and rate_ppt −3,112,794. -/
theorem test_servo_example :
    (servo 6 16000 State.reset).time.freqPpt = -183106 ∧ (servo 6 16000 State.reset).time.ratePpt = -3112794 := by decide +kernel

/-- An Edbor half-port 4 in UP with exchanges enabled. -/
def exchState : State := lockedState [(F.PH_LINK_STATE, [2, 0], 4), (F.TK_PORT_CAL_EXCH_EN, [2, 0], 1)]

theorem witness_syncSend : exchState.link 4 = 4 ∧ exchState.isEth 4 = false ∧ exchState.fld F.TK_PORT_CAL_EXCH_EN (hp 4) = 1 ∧
    (exchState.exch 4).t1 = 0 := by decide +kernel

/-- Packet 7 from half-port 4, its tag passed: a time exchange message that crossed the balls at count `at_`. -/
def timeState (m : TimeMsg) (at_ : Nat) (s : State) : State :=
  s.setPkt 7 (some { p := timePacket s m, die := 2, out := 5, q := 1, owner := 1, input := .half 4, tagOk := true, stage := .passed, issuedAt := at_ })

def syncMsg : TimeMsg := ⟨false, 1, true, false, false, false, 65, 1, 300, 16000000000, 0, 0⟩
/-- The SYNC's 32 bytes, from *Time exchange payload*: version 1, VALID, SEQ 65, HOPS 1, BOUND_PS 300, T_A. -/
theorem test_syncBytes : syncMsg.bytes = ([0x11, 0x01, 0x00, 0x41, 0x01, 0x00, 0x01, 0x2C, 0, 0, 0, 3, 0xB9, 0xAC, 0xA0, 0] : List Byte) ++ List.replicate 16 0 := by decide +kernel
theorem witness_syncReceive : let s := timeState syncMsg 16000000194 exchState
    (s.pkt 7).map (fun k => (k.input, k.stage, isTimeMsg false k.p, timeMsgOf k.p)) = some (.half 4, .passed, true, syncMsg) ∧ s.link 4 = 4 ∧ s.isEth 4 = false ∧
    s.fld F.SM_STATUS_STATE ≠ 2 := by decide +kernel

/-- A REPLY with θ = 6 and d = 198 is awaited on half-port 4. -/
def replyState (d : Option Int) : State :=
  timeState ⟨true, 1, true, false, false, false, 65, 1, 300, 16000000000, 16000000194, 16000004994⟩ 16000005196
    (exchState.setExch 4 { seq := 65, t1 := 16000000000, waiting := true, unanswered := [16000000000], dRef := d })

theorem witness_replyReceive : let s := replyState (some 198)
    let m := timeMsgOf (timePacket s ⟨true, 1, true, false, false, false, 65, 1, 300, 16000000000, 16000000194, 16000004994⟩)
    (s.pkt 7).map (fun k => (k.input, k.stage, isTimeMsg true k.p, timeMsgOf k.p, k.issuedAt)) = some (.half 4, .passed, true, m, 16000005196) ∧ s.link 4 = 4 ∧ s.isEth 4 = false ∧
    m.valid = true ∧ (s.exch 4).waiting = true ∧ m.seq = (s.exch 4).seq ∧ 16000005196 ≤ (s.exch 4).t1 + 64000 ∧ (s.exch 4).dRef = some 198 ∧
    (delayOf (s.exch 4).t1 m.tB m.tC 16000005196 - 198).natAbs ≤ 16 := by decide +kernel

theorem witness_replyReceive_early :
    ((replyState none).exch 4).waiting = true ∧ ((replyState none).exch 4).dRef = none ∧
    ((replyState none).exch 4).dSamples.length < 7 ∧ (replyState none).link 4 = 4 := by decide +kernel

/-- The same half-port as source 0 of kind `k`, with a SYNC out for more than 4 µs. -/
def missState (k bad : Nat) : State :=
  let s := (exchState.setFld F.TK_SRC_KIND k [0]).setFld F.TK_SRC_HALF_PORT 4 [0]
  let s := (s.setFld F.TK_STATUS_SRC_KIND k).setExch 4 { t1 := 1, waiting := true, unanswered := [1] }
  let s := s.setSrc 0 { bad := bad, qualified := true }
  { s with time := { s.time with count := 17600000000 + 32000000000 } }

theorem witness_sampleMissing_link : (missState 1 0).srcKind 0 = 1 ∧ ((missState 1 0).exch ((missState 1 0).srcHalf 0)).unanswered.find?
      (fun t => decide (((missState 1 0).srcRec 0).missFrom ≤ t) && decide (t + 64000 ≤ (missState 1 0).now)) = some 1 ∧ ((missState 1 0).srcRec 0).bad < 2 := by
  decide +kernel
theorem witness_sampleMissing_ptp : (missState 2 0).srcKind 0 = 2 ∧
    ((missState 2 0).srcRec 0).lastAt + 2 * (16 * (missState 2 0).sampleInterval 0) ≤ (missState 2 0).now := by decide +kernel
theorem witness_sampleMissing_pins : (missState 3 0).srcKind 0 = 3 ∧
    max ((missState 3 0).srcRec 0).lastAt ((missState 3 0).time.ppsInAt.getD 0) + 16 * 1100000000 ≤ (missState 3 0).now := by decide +kernel
theorem witness_badSample_unused : 2 ≤ ((missState 1 2).srcRec 0).bad ∧ (missState 1 2).srcInUse ≠ some 1 := by decide +kernel
theorem witness_badSample_inUse : 2 ≤ ((missState 1 2).srcRec 0).bad ∧ (missState 1 2).srcInUse = some 0 ∧
    (missState 1 2).time.mode = .locked ∧ ∀ m, m < 4 → m ≠ 0 → ((missState 1 2).srcRec m).qualified = false := by decide +kernel

theorem witness_paceUpdate : (List.replicate 64 600).length = 64 ∧ ∀ r ∈ List.replicate 64 600, r < 65536 := by decide +kernel
theorem witness_replicaCompare : let l : List ReplicaReading := List.replicate 8 ⟨2, -4⟩
    l.length = 8 ∧ (∀ r ∈ l, r.ab.natAbs ≤ 2 ∧ r.lead.natAbs ≤ 4) ∧
    State.reset.fld F.TK_REPLICA_ROLE [State.reset.leadDie] ≠ 2 ∧ (State.reset.peer State.reset.leadDie 0).off = 0 := by decide +kernel
theorem witness_clockMonitorFire : (if State.reset.fld F.TK_HOLD_OSC_IN_FITTED = 1 then 30000 else 1000000) < 1000001 := by decide +kernel

/-- A step of 2 µs waits, armed. -/
def stepState : State :=
  let s := lockedState [(F.TK_CTRL_STEP_ARM, [], 1)]
  { s with time := { s.time with stepTheta := some 32000 } }
theorem witness_counterStep : stepState.time.stepTheta = some 32000 ∧ stepState.fld F.TK_CTRL_STEP_ARM = 1 ∧
    ∀ d ∈ dies, stepState.schedLive d = false := by decide +kernel
theorem witness_counterStep_none : State.reset.time.stepTheta = none := rfl
theorem witness_counterStep_barred : (lockedState []).time.mode ≠ .unset ∧ (lockedState []).fld F.TK_CTRL_STEP_ARM = 0 := by decide +kernel

def holdState (m : TimeMode) : State :=
  let s := lockedState [(F.TK_HOLD_STAB_PPT, [], 10), (F.TK_HOLD_AGEING, [], 10)]
  { s with time := { s.time with mode := m, holdB0 := 500, holdAt := some 0, count := 140300 * 16000000 } }
theorem witness_holdoverUpdate : (holdState .holdover).time.holdAt = some 0 ∧ (holdState .holdover).time.mode = .holdover := by decide +kernel
/-- The worked example of R62: at 140,300 ms the bound is 2,001 and time becomes invalid. -/
theorem test_holdover_example : (holdoverUpdate (holdState .holdover)).fld F.TK_STATUS_BOUND_PS = 2001 ∧
    (holdoverUpdate (holdState .holdover)).time.mode = .invalid := by decide +kernel

/-- Half-port 0 in Ethernet mode and UP, with PTP role `r`. -/
def ptpState (r : Nat) : State :=
  lockedState [(F.PH_LINK_STATE, [0, 0], 4), (F.PH_PORT_CFG_MODE, [0], 1), (F.TK_PTP_ROLES_ROLE, [], r)]
theorem witness_ptp_master : (ptpState 1).isEth 0 = true ∧ (ptpState 1).link 0 = 4 ∧ (ptpState 1).ptpRole 0 = 1 ∧
    (ptpState 1).timeValid = true ∧ ((ptpState 1).ptpPort 0).syncAt = 0 ∧ ((ptpState 1).ptpPort 0).announceAt = 0 ∧
    ((ptpState 1).ptpPort 0).pdelayAt = 0 := by decide +kernel
theorem witness_ptp_slave : (ptpState 2).ptpRole 0 = 2 ∧ (ptpState 2).fld F.TK_PTP_DOMAIN = 0 ∧ (ptpState 2).fld F.TK_PTP_IPV6 = 0 ∧ (ptpState 2).isEth 0 = true ∧ (ptpState 2).link 0 = 4 ∧
    (((ptpState 2).setPtp 0 { rxSync := some (5, 16) }).ptpPort 0).rxSync = some (5, 16) ∧
    (⟨false, 0, .followUp 5 32⟩ : PtpMsg).wellFormed = true ∧ (⟨false, 0, .sync 5⟩ : PtpMsg).wellFormed = true ∧
    (⟨false, 0, .pdelayReq 5 64⟩ : PtpMsg).wellFormed = true ∧ (⟨true, 9, .unsupported⟩ : PtpMsg).wellFormed = true := by decide +kernel

/-- A pins source; the edge at second 1, the message 0.5 s later, and now second 2. -/
def pinState : State :=
  let s := lockedState [(F.TK_SRC_KIND, [0], 3)]
  { s with time := { s.time with ppsInAt := some 16000000000, tod := some ⟨2, 24000000000⟩, count := 32000000000 } }
theorem witness_ppsInEdge : pinState.pinSrcs ≠ [] ∧ pinState.time.ppsInAt = some 16000000000 ∧
    pinState.time.tod = some ⟨2, 24000000000⟩ ∧ 16000000000 + 16 * 900000000 ≤ pinState.now := by decide +kernel
def todBytes : List Byte :=
  let l : List Byte := [0x59, 0x4B, 1, 1, 0, 0, 0, 0, 0, 2, 0, 37, 0xFF, 0]
  l ++ beBytes 2 (crc16 l)
theorem witness_todMessage : todBytes.length = 16 ∧ byteNat todBytes 0 2 = 0x594B ∧ byteNat todBytes 2 1 = 1 ∧
    byteNat todBytes 14 2 = crc16 (todBytes.take 14) ∧ (byteNat todBytes 3 1).testBit 0 = true := by decide +kernel
def ppsState : State :=
  let s := lockedState [(F.TK_CTRL_PPS_OUT_EN, [], 1)]
  { s with time := { s.time with count := 48000000000 } }
theorem witness_ppsOutRise : ppsState.timeValid = true ∧ ppsState.fld F.TK_CTRL_PPS_OUT_EN = 1 ∧ ppsState.fld F.SM_STATUS_STATE ≠ 2 ∧
    ppsState.fld F.TK_PPS_OUT_PERIOD_NS ≠ 0 ∧ ppsState.now = 3 * (16 * ppsState.fld F.TK_PPS_OUT_PERIOD_NS) ∧
    ppsState.time.ppsOutHigh = false ∧ ppsState.time.ppsOutRiseAt ≠ some ppsState.now := by decide +kernel
theorem witness_ppsOutFall : let s : State := { ppsState with time := { ppsState.time with ppsOutHigh := true, ppsOutRiseAt := some 0, ppsOutWidth := 16 } }
    s.time.ppsOutHigh = true ∧ s.time.ppsOutRiseAt = some 0 ∧ 0 + 16 * s.time.ppsOutWidth ≤ s.now := by decide +kernel

/-- A barrier of four participants, open here as participant `i`, of Field 0x2A7 active in slot 0. -/
def barrierState (root i : Nat) (p : BarrierPhase) (g : Bool) (n : Nat) : State :=
  let s := lockedState [(F.DV_FIELD_SLOT_STATE, [0], 2), (F.DV_FIELD_SLOT_FIELD_ID, [0], 0x2A7)]
  s.setBarrier (some ⟨1, 0x13, 0x2A7, root, n, i, 20, 20000, 1000, 1, p, 900000000, 0, g, [(0, 0)], []⟩)
/-- Packet 7, a barrier packet of a kind for index `i` with a count, from device 0x100, which waits in die `s.leadDie` for the Time Keeper. -/
def barrierPacket (kind i c : Nat) : Packet :=
  sealCheck { h := { typ := 0x11, srcDevice := 0x100, depart := departOf 1000000000 },
              body := beBytes 1 kind ++ [0] ++ beBytes 2 0x13 ++ beBytes 2 0x2A7 ++ beBytes 2 i ++ beBytes 8 c ++ List.replicate 16 0 }
def barrierHeard (kind i c : Nat) (s : State) : State :=
  s.setPkt 7 (some { p := barrierPacket kind i c, die := 0, out := 5, q := 1, owner := 1, input := .half 1, tagOk := true, stage := .queued })
/-- What `BarrierHeard` says of that packet: it waits, its CHECK passes, and it names the open barrier. -/
def heardOk (kind i c : Nat) (s : State) : Bool :=
  let u := barrierHeard kind i c s
  (barrierPkt u 7 kind).any (fun k => checkOk k.p && decide (barrierMsgOf k.p = ⟨0x13, 0x2A7, i, c, 0x100⟩)) &&
    decide ((freePkt 7 8 u).time.barrier = s.time.barrier) && s.time.barrier.any (fun b => b.id = 0x13 && b.field = 0x2A7)
theorem witness_barrierArrive : let s := barrierState 0 0 .arrived false 4
    heardOk 1 3 7 s = true ∧ s.time.barrier.any (fun b => b.open_ && b.root = (freePkt 7 8 (barrierHeard 1 3 7 s)).device && decide (3 < b.n) &&
      !b.gathered && !b.arrivals.any (fun a => a.1 = 3) && decide (b.arrivals.length + 1 < b.n)) = true := by decide +kernel
theorem witness_barrierArrive_last : let s := barrierState 0 0 .arrived false 2
    heardOk 1 1 7 s = true ∧ s.time.barrier.any (fun b => b.open_ && b.root = (freePkt 7 8 (barrierHeard 1 1 7 s)).device && decide (1 < b.n) &&
      !b.gathered && !b.arrivals.any (fun a => a.1 = 1) && decide (b.arrivals.length + 1 = b.n)) = true := by decide +kernel
theorem witness_barrierLate : let s := barrierState 0 0 .released true 4
    heardOk 3 3 7 s = true ∧ s.time.barrier.any (fun b => b.root = (freePkt 7 8 (barrierHeard 3 3 7 s)).device && decide (3 < b.n) && b.gathered &&
      b.phase ≠ .aborted) = true := by decide +kernel
theorem witness_barrierTimeout : let s := barrierState 0 0 .arrived false 4
    s.time.barrier.any (fun b => b.root = s.device && !b.gathered && b.phase ≠ .aborted && decide (b.openedAt + 16000 * b.timeoutUs ≤ s.now)) = true := by
  decide +kernel
theorem witness_barrierArriveSend : let s := barrierState 5 1 .opened false 4
    s.timeValid = true ∧ s.fld F.TK_STATUS_BOUND_PS ≤ 1500 ∧ s.time.barrier.any (fun b =>
      b.phase = .opened && b.root ≠ s.device && barrierReady s b) = true := by decide +kernel
theorem witness_barrierRelease : let s := barrierState 5 1 .arrived false 4
    heardOk 2 1 2000000000 s = true ∧ s.time.barrier.any (fun b => b.index = 1 && b.phase = .arrived && b.kind = 1) = true ∧
    (freePkt 7 8 (barrierHeard 2 1 2000000000 s)).now < 2000000000 := by decide +kernel
theorem witness_barrierAbort : let s := barrierState 5 1 .arrived false 4
    heardOk 4 1 0 s = true ∧ s.time.barrier.any (fun b => b.index = 1 && b.phase = .arrived) = true := by decide +kernel
theorem witness_barrierFire : let s := ((barrierState 5 1 .released false 4).armGate .barrier 1000000000).setFld F.SM_DIE_STATE_POWERED 1 [0]
    let b : BarrierRec := ⟨1, 0x13, 0x2A7, 5, 4, 1, 20, 20000, 1000, 1, .released, 1000000000, 0, false, [(0, 0)], []⟩
    let s := s.setBarrier (some b)
    s.gateAt .barrier = some b.m ∧ b.m ≤ s.now ∧ s.gateLate s.leadDie b.m = false ∧ s.timeValid = true ∧ s.fld F.TK_STATUS_BOUND_PS ≤ 1500 ∧
    barrierReady s b = true ∧ 1500 < (s.setFld F.TK_STATUS_BOUND_PS 1501).fld F.TK_STATUS_BOUND_PS := by decide +kernel
theorem witness_barrierNone : let s := barrierState 5 1 .aborted false 4
    (barrierPkt (barrierHeard 2 1 7 s) 7 2).any (fun k => checkOk k.p) = true ∧ s.time.barrier.any (fun b => !b.open_) = true := by decide +kernel

/-! ## Links -/

/-- Half-port 4, a whole port enabled in Edbor mode on a seeded device, in state `st` of *Link states*, with its record `r`. -/
def linkState (st : Nat) (r : HalfPort) : State :=
  (lockedState [(F.PH_LINK_STATE, [2, 0], st), (F.PH_PORT_CFG_ENABLE, [2], 1), (F.SL_STATUS_STATE, [], 4)]).setHalf 4 r

/-- The first 32 bytes of a frame of logical lane `lane` of a whole fixed port, device 0, half-port 0: the marker; CONTROL holds c(−3) and asks c(−2) for one step
up and c(−1) for one down; STATUS with RX_TRAINED; INFO with PROTO 1. -/
def frameBytes (lane : Nat) : List Byte :=
  [0xFF, 0xFF, 0xFF, 0xFF, 0, 0, 0, 0, 0, 0, 0, 0x60, 0, 0, 4, 0, 0x10, BitVec.ofNat 8 (16 * lane)] ++ List.replicate 14 0
def goodFrame : TrainFrame := { bytes := frameBytes 0, satisfied := true, asks := 0, wantPre := false }
/-- CONTROL [9:8] is c(−3) and so on down to c(1) in [1:0]; STATUS bit 10 is RX_TRAINED; INFO bit 124 up is PROTO and [119:116] LANE (R82). -/
theorem test_frameSays : frameSays (frameBytes 5) = ⟨[0, 1, 2, 0, 0], 0, true, { lane := 5 }⟩ ∧
    frameIn ((frameBytes 5).map (fun b => ~~~b)) = some (true, frameBytes 5) := by decide +kernel

theorem witness_signalDetect : (linkState 0 {}).edborHalf 4 = true ∧ (linkState 0 {}).link 4 = 0 ∧ ((linkState 0 {}).half 4).stayDown = false ∧
    ((linkState 0 {}).half 4).restartAt = none := by decide +kernel
theorem witness_trainingFrame : (Instr.trainingFrame 4 0 goodFrame).wellFormed = true ∧ 0 < (linkState 1 {}).laneCount 4 ∧ (linkState 1 {}).link 4 = 1 ∧
    frameIn goodFrame.bytes = some (false, frameBytes 0) ∧ infoMismatch (linkState 1 {}) 4 0 (frameSays (frameBytes 0)).info = false ∧
    infoMismatch (linkState 1 {}) 4 0 (frameSays ((frameBytes 0).set 16 0x11)).info = true ∧ ((linkState 1 {}).lane 4 0).counted = false := by decide +kernel
theorem witness_tapUpdate : let s (p : Nat) := (linkState 1 {}).setLane 4 3 { pend := [0, 1, 2, 0, 0], pendPreset := p }
    (s 0).link 4 = 1 ∧ ((s 0).lane 4 3).pendPreset = 0 ∧ ((s 6).lane 4 3).pendPreset ≠ 0 := by decide +kernel
/-- From preset 4 (R390), one step up of c(−2), down of c(−1). -/
theorem test_tapUpdate : moveTaps [0, 4, -20, 70, -6] [0, 1, 0, 0, 2] [0, 0, 0, 0, 0] = ([0, 4, -20, 70, -6], [0, 3, 0, 0, 2]) ∧
    moveTaps [0, 4, -20, 70, -6] [0, 2, 1, 0, 0] [0, 0, 0, 0, 0] = ([0, 3, -18, 70, -6], [0, 1, 1, 0, 0]) := by decide +kernel
theorem witness_trainRestart : ((linkState 0 { restartAt := some 5 }).half 4).restartAt = some 5 ∧ 5 ≤ (linkState 0 {}).now ∧
    (linkState 0 { restartAt := some 5 }).edborHalf 4 = true := by decide +kernel
theorem witness_phaseTimeout : (linkState 1 {}).link 4 = 1 ∧ ((linkState 1 {}).half 4).since + 16000 * 60000 ≤ (linkState 1 {}).now ∧
    ((linkState 1 {}).half 4).relinkTry = none ∧ (linkState 1 {}).fld F.PH_LINK_TRAIN_FAILS (hp 4) < 2 ∧
    ¬ ((linkState 1 {}).setFld F.PH_LINK_TRAIN_FAILS 2 (hp 4)).fld F.PH_LINK_TRAIN_FAILS (hp 4) < 2 := by decide +kernel
/-- A row in which every lane brings the ALIGN unit of its number, with RX_READY or LAST in `bits`. -/
def alignRow (bits : Nat) : List AlignLane :=
  (List.range 16).map (fun n => ⟨[0xF0, 3, BitVec.ofNat 8 (16 * n + bits), 0, 0, 9] ++ List.replicate 58 0, 100 + 80 * n⟩)
theorem witness_alignUnit : (linkState 2 {}).link 4 = 2 ∧ (Instr.alignUnit 4 (alignRow 8)).wellFormed = true ∧ ((linkState 2 {}).half 4).lastRcvd = false ∧
    rowAligned (linkState 2 {}) 4 (alignRow 8) = true ∧ rowSkew (alignRow 8) = 1200 ∧ ((linkState 2 {}).half 4).lastSent = false := by decide +kernel
theorem witness_blockReceive : (linkState 4 {}).link 4 = 4 ∧ 15 < (linkState 4 {}).laneCount 4 ∧ (linkState 4 {}).isEth 4 = false ∧
    (Instr.blockReceive 4 15 (List.replicate 2720 0)).wellFormed = true := by decide +kernel
/-- R75: levels 0 to 3 carry 00, 01, 11 and 10; a symbol's bits go most significant first. In GF(2^10), α to the tenth is α³ + 1. -/
theorem test_gray : [0, 1, 2, 3].map grayPair = [0, 1, 3, 2] ∧ symbolsOf [3, 1, 0, 2, 1] = [0x24D] ∧ levelsOf [0x24D] = [3, 1, 0, 2, 1] ∧ gfAlpha 10 = 9 ∧
    unprecode 2 (precode 2 [3, 1, 0, 2, 1]) = [3, 1, 0, 2, 1] ∧ rsGen.length = 30 := by decide +kernel
/-- R76: the header's bits [19 − 2s : 18 − 2s] are the code of slot s. -/
theorem test_blockHeader : (blockSlots ([0x186, 0x003] ++ List.replicate 512 0)).map (·.code) = [1, 2, 0, 1, 2, 0, 0, 0, 0, 3] := by decide +kernel
/-- Idle, start and continuation units of a 4-unit data packet, and a failed block's position. -/
def dataStart : Slot := ⟨1, [0, 0, 0x80, 3] ++ List.replicate 60 0⟩
def contUnit : Slot := ⟨2, List.replicate 64 0⟩
/-- One failed block of a lane costs a packet that spans it once (R80), and a packet of too few units counts as FRAMING (R79). -/
theorem test_fec_once :
    let run (l : List (Option Slot)) : State := l.foldl (fun s u => position 4 u s) (linkState 4 {})
    let s := run [some dataStart, none, some contUnit, none, some contUnit, some ⟨0, List.replicate 64 0⟩]
    s.fld F.LK_DROP_FEC (hp 4) = 1 ∧ s.fld F.LK_DROP_FRAMING (hp 4) = 0 ∧
    (run [some dataStart, some contUnit, some ⟨0, List.replicate 64 0⟩]).fld F.LK_DROP_FRAMING (hp 4) = 1 := by decide +kernel
theorem witness_linkLoss : (linkState 4 { lossDue := true }).link 4 = 4 ∧ ((linkState 4 { lossDue := true }).half 4).lossDue = true := by decide +kernel
theorem witness_downUnitReceive : (linkState 4 {}).link 4 ≠ 6 ∧ (linkState 4 {}).link 4 ≠ 0 ∧ (linkState 4 {}).isEth 4 = false ∧
    unitType ([0xF0, 2, 7] ++ List.replicate 61 0) = 2 ∧ (Instr.trainingFrame 4 0 goodFrame).wellFormed = true ∧ 0 < (linkState 4 {}).laneCount 4 ∧
    (frameIn goodFrame.bytes).isSome = true := by decide +kernel
/-- A SEAL unit for one control packet, with its tag. -/
def sealBytes : List Byte := [0xF0, 1, 1] ++ List.replicate 13 0 ++ List.replicate 16 9 ++ List.replicate 32 0
theorem witness_sealUnit : let s := linkState 4 { seals := [31], rxq := [{ pos := 30, control := true, left := 0, sealAt := some 31, pid := some 3, want := List.replicate 16 9 }] }
    sealBytes.length = 64 ∧ s.link 4 = 4 ∧ s.isEth 4 = false ∧ unitType sealBytes = 1 ∧ unitArg sealBytes = 1 ∧ (s.half 4).seals = [31] ∧
    unitTag sealBytes (30 + 1 - 31) = List.replicate 16 9 := by decide +kernel
/-- A circuit link in RELINK with entry 2 ready for device 7, half-port 1. -/
def relinkState (t : Option Nat) : State :=
  ([(F.PH_RELINK_VALID, 1), (F.PH_RELINK_EQ_CACHED, 1), (F.PH_RELINK_KEY_READY, 1), (F.PH_RELINK_PARTNER_DEVICE, 7), (F.PH_RELINK_PARTNER_HALF, 1)] : List (Fld × Nat)).foldl
    (fun s e => s.setFld e.1 e.2 [2, 0, 2]) (linkState 5 { relinkTry := t })
theorem witness_relinkSignal : (relinkState none).link 4 = 5 ∧ ∀ e ∈ [2], e < 8 := by decide +kernel
/-- A relink frame of device 7, half-port 1: INFO with PROTO 1, CIRCUIT and RELINK. -/
def relinkBytes : List Byte := [0xFF, 0xFF, 0xFF, 0xFF, 0, 0, 0, 0, 0, 0, 0, 0, 0, 0, 0x0B, 0xF0, 0x10, 0x09, 0, 7, 0x10] ++ List.replicate 11 0
theorem witness_relinkFrame : let i := (frameSays relinkBytes).info
    (relinkState (some 2)).link 4 = 5 ∧ ((relinkState (some 2)).half 4).relinkTry ≠ none ∧ frameIn relinkBytes = some (false, relinkBytes) ∧ i.relink = true ∧
    i = { circuit := true, relink := true, device := 7, half := 1 } ∧ (Instr.trainingFrame 4 0 { goodFrame with bytes := relinkBytes }).wellFormed = true ∧
    (List.range 8).find? (fun e => relinkReady (relinkState (some 2)) 4 e && relinkNames (relinkState (some 2)) 4 e i) = some 2 := by decide +kernel
theorem witness_relinkTimeout : ((relinkState none).half 4).since + 160000000 ≤ (relinkState none).now ∧ ((relinkState none).half 4).relinkTry = none := by
  decide +kernel

/-- Half-port 4 of a split Ethernet port, in state `st`, with VLAN 5 bridged between half-ports 4 and 5 and tunnel 0 over half-port 4. -/
def ethState (st : Nat) : State :=
  let s := linkState st {}
  let s := ((s.setFld F.PH_PORT_CFG_MODE 1 [2]).setFld F.PH_PORT_CFG_SPLIT 1 [2]).setFld F.LK_ETH_CFG_BRIDGE_EN 1
  { s with bridge := { s.bridge with vlans := [{ vlan := 5, field := 0x2A7, member := 0x30, untagged := 0 }] } }
def ethFrame : List Byte :=
  let l : List Byte := [0, 0, 0, 0, 0, 2, 0, 0, 0, 0, 0, 1, 0x81, 0, 0, 5] ++ List.replicate 48 7
  l ++ leBytes 4 (crc32 l)
theorem witness_ethLinkUp : (ethState 0).ethHalf 4 = true ∧ (ethState 0).link 4 ≠ 4 ∧ (ethState 0).link 4 ≠ 6 := by decide +kernel
theorem witness_ethLinkDown : (ethState 4).isEth 4 = true ∧ (ethState 4).link 4 = 4 ∧ 9216 < (List.replicate 9217 (0 : Byte)).length := by decide +kernel
theorem witness_ethFrameReceive : let f := ethFrameOf (ethFrame.take (ethFrame.length - 4))
    64 ≤ ethFrame.length ∧ ethFrame.drop (ethFrame.length - 4) = leBytes 4 (crc32 (ethFrame.take (ethFrame.length - 4))) ∧
    (ethState 4).fld F.LK_ETH_CFG_BRIDGE_EN = 1 ∧ notBridged (ethState 4) 4 f = false ∧ isReservedGroup f.dst = false ∧
    ((ethState 4).bridge.vlans.find? (fun x => x.vlan = frameVlan (ethState 4) 4 f)).any (fun v => v.member.testBit 4) = true := by decide +kernel
/-- Tunnel 0 over half-port 4 to a peer, with keys held. -/
def tunnelState : State :=
  let s := (((ethState 4).setFld F.LK_ETH_CFG_ENCAP_EN 1).setFld F.LK_ETH_CFG_UDP_PORT 4793).setFld F.LK_TUNNEL_0_VALID 1 [0]
  let s := ((s.setFld F.LK_TUNNEL_0_HALF_PORT 4 [0]).setFld F.LK_TUNNEL_1_LOCAL_MAC 9 [0]).setFld F.LK_TUNNEL_6_PEER_IP_LO 6 [0]
  s.setHalf 4 { keys := ⟨true, 0, 0, 0, true, 0, false⟩ }
def ackPacket : Packet := sealCheck { h := { typ := 0x03, field := 0x2A7, depart := departOf 1000000000 }, body := List.replicate 32 0 }
def ackDatagram : Datagram :=
  { dstMac := 9, vlan := none, srcIp := 6, dstIp := 0, ecn := 3, udpPort := 4793, checksumOk := true, seq := 12, p := ackPacket, tag := hopTag tunnelState 4 12 ackPacket }
theorem witness_tunnelDatagram : ackDatagram.dstMac < 2 ^ 48 ∧ ackDatagram.p.wellFormed = true ∧ tunnelState.tunnelOf 4 = some 0 ∧ tunnelState.link 4 = 4 ∧
    fromPeer tunnelState 0 ackDatagram = true ∧ linkLocal ackDatagram.p.h.typ = false ∧ tunnelState.kpHeld 4 ackDatagram.p.h.kp = true ∧
    ackDatagram.p.h.kp = (tunnelState.half 4).keys.rxKp ∧ staleSeq tunnelState 4 ackDatagram.seq = false := by decide +kernel
theorem witness_tunnelTag (s : State) (h n : Nat) (p : Packet) : (hopTag s h n p).length = 16 := by
  unfold hopTag sealPacket bytesOfLen padTo
  split <;> (try split) <;> simp

/-! ## Routing, delivery and the switch core -/

/-- The device 0x0102 of *Translation worked through*: Field 0x2A7 active in slot 0 with rows 20 and 21 of die 5, half-port 5 in UP, version A current; window 3 of
tile 1,333. -/
def fieldState : State :=
  let s := lockedState [(F.DV_ID_DEVICE, [], 0x102), (F.DV_FIELD_SLOT_STATE, [0], 2), (F.DV_FIELD_SLOT_FIELD_ID, [0], 0x2A7),
    (F.SG_CTRL_STATE_A, [], 3), (F.NI_WINDOW_BASE_BLK, [5, 1333, 3], 0x1000), (F.NI_WINDOW_LENGTH_BLK, [5, 1333, 3], 0x2000),
    (F.NI_WINDOW_WR, [5, 1333, 3], 1), (F.NI_WINDOW_RD, [5, 1333, 3], 1), (F.PH_LINK_STATE, [2, 1], 4), (F.PH_PORT_CFG_SPLIT, [2], 1),
    (F.PH_PORT_CFG_ENABLE, [2], 1), (F.NI_FIELD_MAP_MAP, [2, 1, 0x2A7 / 64], 2 ^ (0x2A7 % 64)), (F.SM_DIE_STATE_POWERED, [5], 1),
    (F.SM_DIE_STATE_POWERED, [2], 1), (F.GK_OUT_CFG_OUT_CAP, [5, 2], 1024), (F.GK_OWNER_SHARE_CAP, [5, 2], 2048), (F.GK_REGIONS_MANAGED_CELLS, [5], 24576),
    (F.GK_OWNER_MIN_CELLS, [5, 1], 256), (F.SL_STATUS_STATE, [], 4)]
  { s with ni := { s.ni with own1 := [([5, 20], 1), ([5, 21], 1)], own2 := [([5, 20], 1), ([5, 21], 1)], ranks := [([0, 2, 0, 48], 1 + 4 * 0x102 + 2 ^ 18 * 5 + 2 ^ 21 * 20), ([0, 5, 0, 48], 1 + 4 * 0x102 + 2 ^ 18 * 5 + 2 ^ 21 * 20)] } }

/-- The put of *Ports and the Edbor Link Protocol*, shortened to 256 bytes. -/
def putPacket : Packet := sealCheck
  { h := { cls := 1, typ := 0x80, units := 4, field := 0x2A7, dstDevice := 0x102, srcDevice := 0x100, dstRank := 0xC35, srcRank := 0x412, depart := departOf 1000000000 },
    body := dataBody 3 0x12000 noRef 0 0 0 0 0 0, data := List.replicate 256 7 }
def ctrlPacket (typ : Nat) (body : List Byte) (h : Hdr) : Packet :=
  sealCheck ⟨{ h with typ := typ, field := 0x2A7, dstDevice := 0x102, srcDevice := 0x100, dstRank := 0xC35, srcRank := 0x412, depart := departOf 1000000000 }, padTo 32 body, [], 0⟩
def getPacket : Packet := ctrlPacket 0x01 ([3] ++ beBytes 5 0x12000 ++ beBytes 2 4 ++ [4] ++ beBytes 5 64 ++ beBytes 4 noRef) { typ := 1 }
def shortPacket : Packet := ctrlPacket 0x02 ([3] ++ beBytes 5 0x12010 ++ [4, 0] ++ beBytes 4 noRef ++ [0, 0, 0, 0, 1, 2, 3, 4]) { typ := 2 }

/-- Packet 7, stored on die 5 in one cell, as its output has passed it on. -/
def heldOf (p : Packet) (out : Nat) (st : Stage) : Pkt :=
  { p := p, die := 5, out := out, q := queueOf p.h.cls, owner := 1, cells := [0], written := 1, arrived := 1, input := .half 5, tagOk := true, dstTile := 1333, stage := st }
def withPkt (s : State) (k : Pkt) : State := (s.setPkt 7 (some k)).setQueue k.die k.out k.q [7]

/-- The state in which the arrival checks of packet `p` on half-port 5 run. -/
def comingState (p : Packet) : State := takePhase 5 p.h.kp (awaitHeader 5 p fieldState)
/-- Its header is awaited: the record of reception that `HeaderComes` speaks of. -/
theorem witness_headerComes : fieldState.link 5 = 4 ∧ fieldState.isEth 5 = false ∧ putPacket.h.typ ≠ 0x12 ∧ putPacket.wellFormed = true ∧
    ((awaitHeader 5 putPacket fieldState).half 5).rxq.find? (fun y => y.pid.isNone) = some ⟨0, false, 0, false, none, none, []⟩ := by decide +kernel
theorem witness_packetArrival :
    (match arrivalDecision (comingState putPacket) 5 putPacket with
     | .route q r => match storeAt q r (.half 5) false (chosen 2 q.h r (comingState putPacket)) with
       | some (pid, v) => (v.pkt pid).isSome
       | none => false
     | _ => false) = true := by decide +kernel
def farPacket : Packet := { putPacket with h := { putPacket.h with dstDevice := 0x103 } }
theorem witness_packetArrival_nak : ((awaitHeader 5 farPacket fieldState).half 5).rxq.find? (fun y => y.pid.isNone) = some ⟨0, false, 0, false, none, none, []⟩ ∧
    (match arrivalDecision (comingState farPacket) 5 farPacket with
     | .nak c => c = 1
     | _ => false) = true := by decide +kernel
/-- The store of the packet above takes the two lowest cells of die 5, charged to TRANSIT, towards the tile NIs (R140, R142, R154, R156). -/
theorem test_store : (packetArrival 5 putPacket fieldState).pkt 0 =
    some { p := putPacket, die := 5, out := 2, q := 2, owner := 2, cells := [0, 1], input := .half 5, dstTile := 1333, issuedAt := 1000000000 } := by
  decide +kernel
theorem witness_discards : let u := comingState putPacket
    formatOk putPacket = true ∧ linkLocal putPacket.h.typ = false ∧ fieldless putPacket.h.typ = false ∧
    u.map1 5 0x2A7 = true ∧ (u.setFld F.TK_STATUS_VALID 0).timeValid = false ∧
    u.ahead putPacket.h = false ∧ u.aged { putPacket.h with depart := departOf (1000000000 - 16000 * 101) } = true ∧
    u.aged putPacket.h = false ∧ u.verUsable 0 = true := by decide +kernel
theorem witness_packetEligible : let k := heldOf putPacket 2 .filling
    (withPkt fieldState { k with input := .tile 5 3 }).pkt 7 = some { k with input := .tile 5 3 } ∧ (withPkt fieldState { k with input := .tile 5 3 }).rxOf 7 = none ∧
    k.tagOk = true ∧ k.cells.length ≤ k.written ∧ k.rbSlot = none := by decide +kernel
/-- Packet 7 has come whole on half-port 5 and awaits its tag. -/
def arrivedState (st : Stage) : State :=
  (withPkt fieldState { heldOf putPacket 2 st with tagOk := false }).setHalf 5 { fieldState.half 5 with
    rxq := [{ pos := 40, control := false, left := 0, pid := some 7, want := List.replicate 16 9 }] }
theorem witness_eligibleTag : let x : RxPacket := { pos := 40, control := false, left := 0, pid := some 7, want := List.replicate 16 9 }
    (arrivedState .filling).rxOf 7 = some (5, x) ∧ x.want.length = 16 ∧ (arrivedState (.refused 1)).rxOf 7 = some (5, x) ∧
    ((arrivedState (.refused 1)).pkt 7).map (·.stage) = some (.refused 1) ∧ (List.replicate 16 8 : List Byte) ≠ x.want := by decide +kernel
theorem witness_outputStart : let k (p : Packet) := heldOf p 2 .queued
    nextPacket (withPkt fieldState (k putPacket)) 5 2 = some 7 ∧ fencedHere fieldState (k putPacket) = false ∧
    fencedHere (fieldState.setFld F.SM_FIELD_STATE_FENCED 1 [0]) (k putPacket) = true ∧ mgrType 0x80 = false := by decide +kernel
theorem witness_outputStart_link : let k : Pkt := { heldOf putPacket 1 .queued with die := 2 }
    nextPacket (withPkt fieldState k) 2 1 = some 7 ∧ fieldState.link 5 = 4 ∧ (fieldState.half 5).sending = none ∧ fencedHere fieldState k = false ∧ fieldState.aged k.p.h = false := by
  decide +kernel
theorem witness_packetDeparted : (withPkt fieldState (heldOf putPacket 2 .done)).pkt 7 = some (heldOf putPacket 2 .done) ∧
    (let k : Pkt := { heldOf putPacket 1 .taken with die := 2 }
     let s := (withPkt fieldState k).setHalf 5 { fieldState.half 5 with sending := some 7 }
     s.pkt 7 = some k ∧ (s.half (k.die * 2 + k.out)).sending = some 7) := by decide +kernel
theorem witness_tileAllocTimeout : let w (k : WaitKind) : Wait := ⟨3, heldOf getPacket 2 .filling, 0, k⟩
    ([w (.request 5 1333 9)].find? (fun w => w.id = 3)) = some (w (.request 5 1333 9)) ∧ (w .response).since + 32000 ≤ fieldState.now := by
  decide +kernel
theorem witness_allocate : (fieldState.managed 5) ≤ 24576 ∧ 0 ≤ fieldState.sharedFree 5 ∧ (allocate 5 1 2 2 1 fieldState).isSome = true ∧
    (allocate 5 2 2 2 2 fieldState).isSome = true := by decide +kernel
theorem witness_matcher : ∀ q, tabGet 0 ({} : FrameUse).writes [q] ≤ 12 ∧ ∀ d, d ≠ q → tabGet 0 ({} : FrameUse).cross [d, q] ≤ 2 := by
  intro q; exact ⟨Nat.zero_le _, fun _ _ => Nat.zero_le _⟩
/-- *Budgeting a slice*: m = 20,480. Amber begins at 12,288 held cells and Red above 17,408; back to Green below 11,264 and to Amber below 16,384. -/
theorem test_pressure : pressureOf 0 12287 20480 = 0 ∧ pressureOf 0 12288 20480 = 1 ∧ pressureOf 1 17408 20480 = 1 ∧ pressureOf 1 17409 20480 = 2 ∧
    pressureOf 2 16384 20480 = 2 ∧ pressureOf 2 16383 20480 = 1 ∧ pressureOf 1 11264 20480 = 1 ∧ pressureOf 1 11263 20480 = 0 := by decide +kernel
/-- A slice with one cell held by owner 64 since count 0, and a Tally age limit of `m` µs. -/
def tallyState (m : Nat) : State :=
  (((fieldState.setFld F.GK_TALLY_HELD 1 [5, 64]).setFld F.GK_OWNER_TALLY_AGE_US m [5, 64]).setCell 5 9 ⟨9, true, 0, true, 64, 2, 0⟩)
theorem witness_tallyScan : tabGet 0 (tallyState 200).gran.leaking [5, 64] = 0 ∧ heldCells (tallyState 200) 5 64 = [(9, ⟨9, true, 0, true, 64, 2, 0⟩)] ∧ (tallyState 200).held 5 64 = 1 ∧
    200 < cellAgeUs (tallyState 200) ⟨9, true, 0, true, 64, 2, 0⟩ ∧ (tallyState 0).fld F.GK_OWNER_TALLY_AGE_US [5, 64] = 0 := by decide +kernel
/-- The worked example of *Translation worked through*: window 3, offset 0x1_2000 gives tile byte offset 0x5_2000. -/
theorem witness_tileDelivery : let k := heldOf putPacket 2 .taken
    (withPkt fieldState k).pkt 7 = some k ∧ checkOk k.p = true ∧ fieldState.ownsTile2 5 1333 0x2A7 = true ∧
    k.p.h.roleEpoch = fieldState.roleEpoch 5 1333 ∧ k.p.offset % 64 = 0 ∧
    windowAt fieldState 5 1333 k.p.window k.p.offset k.p.data.length true = some 0x52000 ∧ refSlot fieldState 5 1333 k.p.waybillRef = some 1024 ∧
    fieldState.aged k.p.h = false ∧ (fieldState.setFld F.TL_OWNER_ROLE_EPOCH 5 [5, 1333]).roleEpoch 5 1333 ≠ k.p.h.roleEpoch ∧
    windowAt fieldState 5 1333 4 0 256 true = none := by decide +kernel
theorem witness_tileDelivery_short : let p := shortPacket
    checkOk p = true ∧ p.h.typ = 0x02 ∧ p.pay 1 5 / 64 = (p.pay 1 5 + p.pay 6 1 - 1) / 64 ∧
    windowAt fieldState 5 1333 (p.pay 0 1) (p.pay 1 5) ((p.body.drop 16).take (p.pay 6 1)).length true = some 0x52010 ∧
    refSlot fieldState 5 1333 (p.pay 8 4) = some 1024 := by decide +kernel
theorem witness_tileDelivery_get : let p := getPacket
    checkOk p = true ∧ p.h.typ = 0x01 ∧ p.pay 1 5 % 64 = 0 ∧ p.pay 9 5 % 64 = 0 ∧
    windowAt fieldState 5 1333 (p.pay 0 1) (p.pay 1 5) (p.pay 6 2 * 64) false = some 0x52000 := by decide +kernel
/-- A tag of tile 1,333 in state `st` that awaits the answer to `q`. -/
def tagState (st : TagSt) (q : Packet) : State :=
  fieldState.setTag 5 1333 21 { st := st, epoch := 2, req := some q, since := 0, backoffAt := some 5 }
theorem witness_tags : let a := ctrlPacket 0x03 [] { typ := 3, tagEpoch := 2, tagIndex := 21 }
    checkOk a = true ∧ (tagState .opened putPacket).aged a.h = false ∧ (tagState .opened putPacket).tagOf 5 1333 a.h.tagIndex = { st := .opened, epoch := 2, req := some putPacket, backoffAt := some 5 } ∧
    a.h.tailback = 0 ∧ (ctrlPacket 0x04 [3] { typ := 4, tagEpoch := 2, tagIndex := 21 }).pay 0 1 = 3 ∧ unsent fieldState 5 1333 21 = false ∧
    fieldState.tileExists 5 1333 = true ∧ (0 : Nat) + 2 * (16000 * (tagState .quarantine putPacket).maxAgeSince 0) ≤ fieldState.now := by decide +kernel
theorem witness_getResp : let k : Pkt := heldOf { putPacket with h := { putPacket.h with typ := 0x81, tagEpoch := 2, tagIndex := 21 } } 2 .taken
    windowAt (tagState .opened getPacket) 5 1333 k.p.window k.p.offset k.p.data.length true = some 0x52000 ∧
    ((tagState .opened getPacket).tagOf 5 1333 21).req = some getPacket ∧ getPacket.h.typ = 0x01 ∧ mxWhole k.p = true := by decide +kernel
/-- R103: from the full rate, an echo leaves 600 GB/s; 25 GB/s come back after 8,000 ns. -/
theorem test_onEcho : (tabGet none (onEcho 5 1333 0x2A7 9 fieldState).ni.flows [5, 1333, 0x2A7, 9]).map (fun f => f.rate) = some 600000 := by decide +kernel
def flowState (m : Nat) : State :=
  { fieldState with ni := { fieldState.ni with flows := [([5, 1333, 0x2A7, 0x412], some ⟨600000, 0, 0, 0, 0, 0, m⟩)], echoOwed := [([5, 1333, 0x2A7, 9], some ({ typ := 0x80 }, 0))] } }
theorem witness_echo : (tabGet none (flowState 0).ni.flows [5, 1333, 0x2A7, 0x412]).isSome = true ∧ (0 : Int) + 4000 ≤ (((flowState 0).now / 16 : Nat) : Int) ∧
    0 + 8000 * (0 + 1) ≤ (flowState 0).now / 16 ∧ 0 + 8000 ≤ 0 + 8000 * (0 + 1) ∧ (tabGet none (flowState 0).ni.echoOwed [5, 1333, 0x2A7, 9]).isSome = true ∧
    (ctrlPacket 0x05 [] { typ := 5, tailback := 2 }).h.tailback = 2 := by decide +kernel
/-- A device with version B sealed and a switch armed for count 7, or with B held until count 7. -/
def switchState (st : Nat) : State :=
  let s := (fieldState.setFld F.SG_CTRL_STATE_B st).setFld F.SG_HOLD_END_COUNT 7
  { s with gates := [{ id := .sgSwitch, at_ := 7 }, { id := .niAge, at_ := 7 }, { id := .wbStart 5 1333 2, at_ := 7 }] }
theorem witness_switch : (switchState 2).launchDue .sgSwitch = true ∧ (switchState 2).verState (switchState 2).otherVer = 2 ∧
    (switchState 4).verState (switchState 4).otherVer = 4 ∧ (switchState 4).fld F.SG_HOLD_END_COUNT ≤ (switchState 4).now ∧
    (switchState 2).launchDue .niAge = true ∧ (switchState 2).gateAt (.wbStart 5 1333 2) = some 7 ∧ (switchState 2).gateOpen 5 7 = true := by decide +kernel
theorem witness_hedgeCopyCompare : (∀ h, h < 16 → mapDiffs State.reset h = []) ∧ rowDiffs State.reset = [] := by decide +kernel
theorem witness_drainEnd : let s : State := { withPkt fieldState (heldOf putPacket 2 .queued) with ni := { fieldState.ni with closed := [(.die 5, 9)] } }
    s.ni.closed.find? (fun e => e.1 = .die 5) = some (.die 5, 9) ∧ Domain.die 5 ∉ s.ni.drained ∧ (9 : Nat) ≤ s.now ∧ pastGate s (.die 5) ≠ [] := by decide +kernel

/-! ## The Road Book -/

/-- A slot record's 32 bytes. -/
def recBytes (i cls inb outb field units pkts arr dep lenCode base cells : Nat) : List Byte :=
  beBytes 2 i ++ beBytes 1 cls ++ beBytes 1 inb ++ beBytes 1 outb ++ beBytes 2 (16 * field) ++ beBytes 1 units ++ beBytes 2 pkts ++ beBytes 3 arr ++
    beBytes 3 dep ++ beBytes 2 lenCode ++ beBytes 2 base ++ beBytes 2 cells ++ List.replicate 10 0

/-- A bank without a declared floor: period 20,000 ns, guard 2 ns, 100 scheduled cells on die 5. -/
def bankBytes (recs : List (List Byte)) : List Byte :=
  beBytes 2 0x5942 ++ [1, 0] ++ beBytes 4 20000 ++ beBytes 2 recs.length ++ beBytes 2 9 ++ List.replicate 6 0 ++ [2] ++ List.replicate 13 0 ++
    (List.range 8).flatMap (fun d => beBytes 2 (if d = 5 then 100 else 0)) ++ List.replicate 32 0 ++ recs.flatten

/-- Slot 7: two data packets of six units from half-port 4 to the tile NIs of die 5, arriving from 1,024 ns and leaving from 1,520 ns. -/
def slotSeven (dep : Nat) : List Byte := recBytes 7 3 0x04 0x45 0x2A7 6 2 1024 dep 3 24476 4
def oneSlot : List Byte := bankBytes [slotSeven 1520]

/-- Bank A holds slot 7 in state `st`, its epoch at count 1,000,000,000; `x` sixteenths of a nanosecond have gone since. -/
def roadState (st x : Nat) (l : List (Fld × List Nat × Nat)) : State :=
  let s := withFlds (l ++ [(F.RB_BANKS_STATE_A, [], st), (F.RB_BANKS_ANY_ACTIVE, [], if st = 4 then 1 else 0), (F.RB_EPOCH_COUNT, [], 1000000000), (F.RB_PERIOD_PERIOD_NS, [], 20000),
    (F.TK_STATUS_VALID, [], 1), (F.PH_PORT_CFG_ENABLE, [2], 1), (F.PH_PORT_CFG_SPLIT, [2], 1), (F.PW_DIE_STATE_VCORE_MV, [5], 800), (F.PW_DIE_STATE_TJ, [5], 400),
    (F.DV_FIELD_SLOT_STATE, [0], 2), (F.DV_FIELD_SLOT_FIELD_ID, [0], 0x2A7)])
  { s with road := { s.road with bankA := oneSlot }, time := { s.time with mode := .locked, count := 1000000000 + x } }

/-- A packet of slot 7 that waits at its output, in the cells of position `pos`. -/
def slotPkt (pos : Nat) (st : Stage) : Pkt :=
  { heldOf putPacket 2 st with rbSlot := some 7, cells := [24476 + 2 * pos, 24477 + 2 * pos] }

theorem witness_schedDeparture : let s := withPkt (roadState 4 (16 * 1520) []) (slotPkt 0 .queued)
    s.timeValid = true ∧ s.fld F.SM_STATUS_STATE ≠ 2 ∧ s.fld F.RB_EPOCH_COUNT + 0 * s.periodUnits + 16 * 1520 + 0 = s.now ∧
    ((s.record 7).bind (fun r => (slotPackets s 7).find? (fun e => trainPos r e.2 = 0))) = some (7, slotPkt 0 .queued) ∧
    ((s.record 7).map (fun r => (r.dep, r.outDie, s.atFloor 5, outputIdle s r,
      decide (16 * trainStart r 0 * unitTime s r.outKind r.outUnit ≤ 0 ∧ 16 * r.units * unitTime s r.outKind r.outUnit ≤ 1600 * r.len)))) =
      some (1520, 5, true, true, true) := by decide +kernel
theorem witness_schedDeparture_late : let s := withPkt (roadState 4 (16 * 1520 + 1020) []) (slotPkt 0 .queued)
    s.fld F.RB_EPOCH_COUNT + 0 * s.periodUnits + 16 * 1520 + 1020 = s.now ∧
    ((s.record 7).map (fun r => ((slotPackets s 7).find? (fun e => trainPos r e.2 = 0), decide (1600 * r.len < 100 * 1020 + 16 * r.units * unitTime s r.outKind r.outUnit)))) =
      some (some (7, slotPkt 0 .queued), true) := by decide +kernel
theorem witness_shortfall : let s := roadState 4 (16 * (1024 + 64 + 2)) []
    ((s.record 7).map (fun r => (s.stepOf s.now (16 * (r.arr + r.len + s.guardNs) : Nat), s.recLive r, (s.runOf 7 0).shortDone, r.expect,
      decide ((s.runOf 7 0).eligible < r.pkts)))) = some (some (0, 0), true, false, true, true) := by decide +kernel
theorem witness_windowEnd : let s := withPkt (roadState 4 (16 * (1520 + 64)) []) (slotPkt 0 .queued)
    ((s.record 7).map (fun r => s.stepOf s.now (16 * (r.dep + r.len) : Nat))) = some (some (0, 0)) ∧ (s.runOf 7 0).windowDone = false ∧
    (slotPackets s 7).filter (fun e => decide (e.2.rbStep ≤ 0)) = [(7, slotPkt 0 .queued)] := by decide +kernel
theorem witness_seal : (roadState 2 0 []).bankState 0 = 2 ∧ sealCheckBank (roadState 2 0 []) oneSlot = none ∧
    (roadState 2 0 []).bankBytes 0 = oneSlot := by decide +kernel
/-- One departure earlier than the lag allows fails check 0x09 and names the slot (R175, R176). -/
theorem test_seal_lag : sealCheckBank (roadState 2 0 []) (bankBytes [slotSeven 1136]) = some (9, 7, 0) := by decide +kernel
/-- Two slots whose departure windows meet on one output fail check 0x0C (R176). -/
theorem test_seal_overlap : sealCheckBank (roadState 2 0 []) (bankBytes [slotSeven 1520, recBytes 8 3 0x05 0x45 0x2A7 6 2 1024 1568 3 24480 4]) = some (12, 7, 8) := by
  decide +kernel
def swapState (ceding : Nat) : State := (roadState 3 0 [(F.GK_REGIONS_CEDE_PENDING, [5], ceding)]).armGate .rbSwap 1000000000
theorem witness_swap : (swapState 0).gateAt .rbSwap = some 1000000000 ∧ (swapState 0).timeValid = true ∧
    (∀ d, d < 8 → (swapState 0).fld F.GK_REGIONS_CEDE_PENDING [d] ≠ 1) ∧ (swapState 1).fld F.GK_REGIONS_CEDE_PENDING [5] = 1 ∧
    (swapState 0).swapBank = 0 ∧ (headerOf ((swapState 0).bankBytes 0)).period ≤ 10000000 ∧ ∀ n ∈ (headerOf ((swapState 0).bankBytes 0)).sched, n ≤ 22528 := by decide +kernel
theorem witness_floor : (roadState 4 0 []).schedLive 5 = true ∧ (roadState 4 0 []).fld F.RB_PERIOD_PERIOD_NS ≤ 1000 * 3000 ∧
    (let u := ((roadState 4 0 []).setFld F.PW_DIE_STATE_VCORE_MV 600 [5]).setFld F.PW_DIE_STATE_TJ 400 [5]
     u.schedLive 5 = true ∧ u.atFloor 5 = false ∧ u.fld F.RB_ALARM_FLOOR_ALARM [5] = 0) := by decide +kernel
def suspendState : State :=
  let s := roadState 4 20000000 []
  { s with road := { s.road with suspends := [([5], [(1, 1000000000)])], suspended := [0x2A7], resumeMask := 1 } }
theorem witness_suspend : tabGet [] suspendState.road.suspends [5] = [(1, 1000000000)] ∧ suspendState.gateAt .rbSwap = none ∧
    suspendState.slotOf 0x2A7 = some 0 ∧ suspendState.road.resumeMask.testBit 0 = true ∧
    (suspendState.armGate .rbResume 1000000001).launchDue .rbResume = true ∧ ((suspendState.armGate .rbResume 1000000001).dropGate .rbResume).gateAt .rbSwap = none := by
  decide +kernel

/-! ## Tiles, Waybills and the Almanac -/

/-- A Waybill's 128 bytes from (place, bytes) pairs; no status record. -/
def wbOf (l : List (Nat × List Byte)) : List Byte :=
  (l ++ [(112, leBytes 4 0xFFFFFFFF)]).foldl (fun (w : List Byte) (x : Nat × List Byte) => (w.take x.1 ++ x.2) ++ w.drop (x.1 + x.2.length)) (List.replicate 128 0)

/-- Tile 1,333 of die 5 with slot 20 holding `w` in state `st`, and changed by `f`. -/
def slotState (st : SlotSt) (w : List Byte) (f : SlotRec → SlotRec) : State :=
  fieldState.setSlot 5 1333 20 (f { st := st, armed := w })

/-- The same, run by unit `u`. -/
def runState (u : Nat) (w : List Byte) (f : SlotRec → SlotRec) : State := (slotState .running w f).setRunning 5 1333 u (some 20)

def joinWb : List Byte := wbOf []
/-- A compute body: opcode, formats of A, B and O, PARAMS. A, B and O lie at 0, 0x1000 and 0x2000. -/
def computeWb (op a b o : Nat) (params : List Byte) : List Byte :=
  wbOf [(0, leBytes 1 op), (36, leBytes 1 a), (48, if b = 0 then leBytes 4 0 else leBytes 4 0x1000), (52, leBytes 1 b), (64, leBytes 4 0x2000), (68, leBytes 1 o), (80, params)]
def copyWb : List Byte := computeWb 0x30 0 0 0 (leBytes 4 16 ++ [0, 4])

theorem witness_dispatch : let s := (slotState .ready copyWb id).setReadyQ 5 1333 [20]
    s.readyQ 5 1333 = [20] ∧ s.overQ 5 1333 = [] ∧ (s.slot 5 1333 20).fail = none ∧ unitOf (wbOpcode (s.slot 5 1333 20).armed) = some 3 ∧
    s.tileFenced 5 1333 = false ∧ (s.issueQ 5 1333 3).length < 4 ∧ tabGet 0 s.tiles.blocked [5, 1333] ≠ 1 ∧
    4 ≤ ((s.setIssueQ 5 1333 3 [1, 2, 3, 4]).issueQ 5 1333 3).length := by decide +kernel
theorem witness_dispatch_fail : ((slotState .ready copyWb (fun r => { r with fail := some 6 })).slot 5 1333 20).fail = some 6 := by decide +kernel
theorem witness_start : let s := (slotState .ready copyWb id).setIssueQ 5 1333 3 [20]
    s.running 5 1333 3 = none ∧ s.issueQ 5 1333 3 = [20] := by decide +kernel
theorem witness_instanceDone : let s := runState 1 copyWb (fun r => { r with ran := true })
    s.running 5 1333 1 = some 20 ∧ s.tileHanding 5 1333 = false ∧ (s.slot 5 1333 20).st = .running ∧ (s.slot 5 1333 20).ran = true ∧
    (s.slot 5 1333 20).status = none := by decide +kernel
theorem witness_join : let s := (slotState .ready joinWb id).setReadyQ 5 1333 [20]
    (s.slot 5 1333 20).fail = none ∧ wbOpcode (s.slot 5 1333 20).armed = 0 := by decide +kernel
/-- The status record at 0x100 is the only thing a completion writes. -/
def doneWb : List Byte := (wbOf []).take 112 ++ leBytes 4 0x100 ++ List.replicate 12 0
theorem witness_completion : let s := slotState .running doneWb (fun r => { r with finished := some (0, 0) })
    (s.slot 5 1333 20).finished = some (0, 0) ∧ wbGateKind (s.slot 5 1333 20).armed ≠ 2 ∧
    (∀ i ∈ [16, 18, 20, 22], wbLe (s.slot 5 1333 20).armed i 2 / 2 ^ 14 = 0) ∧ wbNotify (s.slot 5 1333 20).armed = false ∧
    (s.slot 5 1333 20).pendingArm = false ∧ wbStatusOff (s.slot 5 1333 20).armed % 8 = 0 ∧ wbStatusOff (s.slot 5 1333 20).armed + 8 ≤ tileSize := by
  decide +kernel

/-- *A fused matrix product and contribution*: the Waybill of slot 20. It passes the checks at its arm. -/
def slot20 : List Byte := wbOf [(0, [0x10, 0, 8]), (16, [0x15, 0x40]), (24, [1, 0]), (32, [0, 0, 1, 0, 5]), (48, [0, 0, 4, 0, 5]), (56, [0, 2]),
  (64, [0, 0x20, 0, 0, 4, 1, 0x51, 0, 0x40, 0]), (80, [0, 2, 0, 2, 0, 0, 2, 0]), (88, [0, 0, 0, 1])]
theorem test_slot20 : armCheck 0 slot20 = none ∧ wbInstances slot20 = 2 ∧ placeOf slot20 (opO slot20) 1 = 12288 ∧
    placeOf slot20 (opB slot20) 1 = 0x48000 := by decide +kernel
/-- A misaligned STATUS_OFF is BOUNDS, an unlisted opcode FORMAT (R239). -/
theorem test_armCheck : armCheck 0 ((wbOf []).take 112 ++ leBytes 4 0x104 ++ List.replicate 12 0) = some 6 ∧ armCheck 0 (wbOf [(0, [0x11])]) = some 7 := by
  decide +kernel

def matmulWb : List Byte := computeWb 0x10 0x20 0x20 0x22 (leBytes 2 1 ++ leBytes 3 64 ++ leBytes 3 64 ++ leBytes 3 256 ++ [0])
theorem witness_matmul : presentRun (runState 0 matmulWb id) 5 1333 0 0x10 = some (20, matmulWb) ∧ armCheck 0 matmulWb = none ∧
    (rowsA (runState 0 matmulWb id) 5 1333 matmulWb 0 (.int true 1)).isSome ∧ (colsB (runState 0 matmulWb id) 5 1333 matmulWb 0 (.int true 1)).isSome := by
  decide +kernel
def vfloatWb : List Byte := computeWb 0x20 2 2 2 (leBytes 4 1 ++ [1])
theorem witness_vfloat : presentRun (runState 1 vfloatWb id) 5 1333 1 0x20 = some (20, vfloatWb) ∧ armCheck 0 vfloatWb = none ∧ usesB vfloatWb = true ∧
    elemOf (opA vfloatWb).fmt = some (.flt fp32) ∧ pFn vfloatWb ≠ 9 := by decide +kernel
/-- 1.0 + 2.0 is 3.0, stored at O.inst. -/
theorem test_vfloat : ((vfloatInst 5 1333 ((fieldState.writeMem 5 1333 0 [0, 0, 0x80, 0x3F]).writeMem 5 1333 0x1000 [0, 0, 0, 0x40]) vfloatWb 0).writes,
    (vfloatInst 5 1333 fieldState vfloatWb 0).fail) = ([(0x2000, [0, 0, 0x40, 0x40])], none) := by decide +kernel
def vintWb : List Byte := computeWb 0x21 0x20 0 0x20 (leBytes 4 1 ++ [1, 1, 0, 0] ++ leBytes 8 100)
theorem witness_vint : presentRun (runState 1 vintWb id) 5 1333 1 0x21 = some (20, vintWb) ∧ armCheck 0 vintWb = none ∧ pImm vintWb = true ∧
    elemOf (opA vintWb).fmt = some (.int true 1) := by decide +kernel
/-- 100 + 100 saturates to 127 in INT8 (R251). -/
theorem test_vint : (vintInst 5 1333 (fieldState.writeMem 5 1333 0 [100]) vintWb 0).writes = [(0x2000, [127])] := by decide +kernel
def vreduceWb : List Byte := computeWb 0x22 2 0 2 (leBytes 4 2 ++ [1])
theorem witness_vreduce : presentRun (runState 1 vreduceWb id) 5 1333 1 0x22 = some (20, vreduceWb) ∧ armCheck 0 vreduceWb = none ∧ pFn vreduceWb = 1 := by
  decide +kernel
theorem witness_copy : presentRun (runState 3 copyWb id) 5 1333 3 0x30 = some (20, copyWb) ∧ armCheck 0 copyWb = none ∧ elemOf (opA copyWb).fmt = none ∧
    cpForm copyWb = 0 := by decide +kernel
/-- The zero-run form of 3 zero bytes and 2 others, and back (R254). -/
theorem test_zeroRuns : zeroRunForm 1 (elemsOf 1 [0, 0, 0, 7, 8]) = [5, 0, 0, 0, 1, 0, 0, 0, 0x02, 0x81, 7, 8] ∧
    unRun (fun i => ([0x02, 0x81, 7, 8] : List Byte).getD (i - 8) 0) 12 1 5 5 8 = some [0, 0, 0, 7, 8] := by decide +kernel
def unpackWb : List Byte := computeWb 0x30 0 0 0 (leBytes 4 5 ++ [2, 1])
def packWb : List Byte := computeWb 0x30 0 0 0 (leBytes 4 5 ++ [1, 1])
theorem witness_unpack : let s := (runState 3 unpackWb id).writeMem 5 1333 0 [5, 0, 0, 0, 1, 0, 0, 0, 0x02, 0x81, 7, 8]
    presentRun s 5 1333 3 0x30 = some (20, unpackWb) ∧ cpForm unpackWb = 2 ∧ s.readMem 5 1333 0 8 = leBytes 4 5 ++ leBytes 1 1 ++ [0, 0, 0] ∧
    unRun (memFrom s 5 1333 0) (packedMax 5 1) 1 5 5 8 = some [0, 0, 0, 7, 8] ∧ cpForm packWb = 1 ∧ armCheck 0 packWb = none := by decide +kernel
def fillWb : List Byte := computeWb 0x31 0 0 0x26 (leBytes 4 2 ++ [0, 0, 0, 0] ++ leBytes 8 0x01020304)
theorem witness_fill : presentRun (runState 3 fillWb id) 5 1333 3 0x31 = some (20, fillWb) ∧ armCheck 0 fillWb = none ∧ elemOf (opO fillWb).fmt = some (.int false 4) := by
  decide +kernel
def putWb : List Byte := computeWb 0x32 0 0 0 (leBytes 3 0x412 ++ [0] ++ leBytes 5 0 ++ [0, 0, 4] ++ leBytes 4 0xFFFFFFFF)
def getWb : List Byte := computeWb 0x33 0 0 0 (leBytes 3 0x412 ++ [0] ++ leBytes 5 0 ++ [0, 0, 4, 3, 0, 0, 0])
theorem witness_put : presentRun (runState 3 putWb id) 5 1333 3 0x32 = some (20, putWb) ∧ armCheck 0 putWb = none := by decide +kernel
theorem witness_get : presentRun (runState 3 getWb id) 5 1333 3 0x33 = some (20, getWb) ∧ armCheck 0 getWb = none := by decide +kernel
def streamWb : List Byte := wbOf [(0, [0x30]), (36, [2]), (68, [2, 1, 0x51]), (80, leBytes 4 16)]
theorem witness_stream : presentRun (runState 3 streamWb id) 5 1333 3 0x30 = some (20, streamWb) ∧ armCheck 0 streamWb = none ∧ (opO streamWb).target ≠ 0 ∧
    cpForm streamWb = 0 ∧ elemOf (opA streamWb).fmt = some (.flt fp32) ∧ (opO ((runState 0 matmulWb id).slot 5 1333 20).armed).target = 0 := by decide +kernel

/-- A CALL of a routine with arguments, results from 0x3000, and the tile whose Steward runs it. -/
def callWb (no : Nat) (args : List Nat) : List Byte :=
  wbOf [(0, [0x40]), (24, leBytes 2 no ++ leBytes 3 0x3000), (32, args.flatMap (leBytes 8))]
def callState (no : Nat) (args : List Nat) : State := runState 2 (callWb no args) (fun r => { r with calling := true })
theorem witness_call : stewardRun (runState 2 (callWb 9 []) id) 5 1333 0x40 = some (20, callWb 9 []) ∧ ((runState 2 (callWb 9 []) id).slot 5 1333 20).calling = false ∧
    knownRoutine 9 = true ∧ knownRoutine 0x13 = false := by decide +kernel
theorem witness_windowSet : let w := callWb 1 [3, 0x400, 0x200, 3]
    inCall (callState 1 [3, 0x400, 0x200, 3]) 5 1333 1 = some (20, w) ∧ resOk w 0 = true ∧ arg w 2 ≤ 32768 ∧ arg w 3 < 4 ∧ argsZero w 4 = true := by decide +kernel
theorem witness_roleDeclare : inCall (callState 2 []) 5 1333 2 = some (20, callWb 2 []) ∧ resOk (callWb 2 []) 1 = true ∧ argsZero (callWb 2 []) 0 = true := by
  decide +kernel
/-- The Field's block names rank 0xC35 as tile 1,333; rank 0xC36 is the tile beside it. -/
theorem witness_tileReset : let s := callState 3 [0xC36]
    inCall s 5 1333 3 = some (20, callWb 3 [0xC36]) ∧ rankHere s 5 1333 0xC36 = some (5, 1334) ∧ s.dieFenced 5 = false ∧ s.tileFenced 5 1334 = false ∧
    tabGet none s.tiles.resets [5, 1334] = none := by decide +kernel
def resetState : State :=
  let s := fieldState
  { s with tiles := { s.tiles with resets := [([5, 1334], some {})] }, ni := { s.ni with drained := [.tile 5 1334] } }
theorem witness_tileResetDone : tabGet none resetState.tiles.resets [5, 1334] = some {} ∧ Domain.tile 5 1334 ∈ resetState.ni.drained := by decide +kernel
theorem witness_wbArm : let w := callWb 4 [20, 2]
    inCall (callState 4 [20, 2]) 5 1333 4 = some (20, w) ∧ 1 ≤ arg w 1 ∧ arg w 0 + arg w 1 ≤ 1024 ∧ argsZero w 2 = true := by decide +kernel
theorem witness_wbRenew : inCall (callState 6 [21]) 5 1333 6 = some (20, callWb 6 [21]) ∧ ((callState 6 [21]).slot 5 1333 21).st = .idle := by decide +kernel
theorem witness_wbQuery : inCall (callState 7 [21]) 5 1333 7 = some (20, callWb 7 [21]) ∧ argsZero (callWb 7 [21]) 1 = true := by decide +kernel
def bcastArg : Nat := 20 + 32 * 20 + 1024 * 53 + 65536 * 53 + 2 ^ 22 * 5
theorem witness_wbBcast : let s := callState 5 [0x1000, 30, bcastArg, 1]
    let w := callWb 5 [0x1000, 30, bcastArg, 1]
    inCall s 5 1333 5 = some (20, w) ∧ resOk w 2 = true ∧ arg w 0 % 128 = 0 ∧ argsZero w 4 = true ∧ s.tileSlot 5 1333 = some 0 ∧ s.rowOwner1 5 20 = some 0 ∧
    s.rowOwner1 5 22 = none ∧ 22 < s.rowsPerDie ∧ (s.slot 5 1333 30).st = .idle ∧ (s.slot 5 1333 20).st ≠ .idle := by decide +kernel
theorem witness_flagsRead : inCall (callState 8 [1]) 5 1333 8 = some (20, callWb 8 [1]) := by decide +kernel
theorem witness_timeRead : inCall (callState 9 []) 5 1333 9 = some (20, callWb 9 []) ∧ inCall (callState 9 [1]) 5 1333 9 = some (20, callWb 9 [1]) ∧
    argsZero (callWb 9 [1]) 0 = false := by decide +kernel
theorem witness_patch : inCall (callState 10 [8, 4, 1]) 5 1333 10 = some (20, callWb 10 [8, 4, 1]) ∧ arg (callWb 10 [8, 4, 1]) 1 = 4 := by decide +kernel
theorem witness_branch : let w := callWb 11 [8, 2, 1, 30, 0xFFFF]
    inCall (callState 11 [8, 2, 1, 30, 0xFFFF]) 5 1333 11 = some (20, w) ∧ argsZero w 5 = true ∧ arg w 4 = 0xFFFF := by decide +kernel
theorem witness_scalarF : let w := callWb 12 [1, 2, 0, 0x3F800000, 0x40000000]
    inCall (callState 12 [1, 2, 0, 0x3F800000, 0x40000000]) 5 1333 12 = some (20, w) ∧ argsZero w 6 = true := by decide +kernel
theorem test_scalarF : scalarOp 1 .even fp32 (fp32.decode 0x3F800000) (fp32.decode 0x40000000) .zero = (0x40400000, 0) := by decide +kernel

def packedWb : List Byte := wbOf [(0, [0x41]), (24, leBytes 3 0x4000), (28, leBytes 4 8), (32, leBytes 8 5)]
/-- One bundle with END: ADDI x2, x1, 3. -/
def packedMem : List Byte := leBytes 4 0x101 ++ leBytes 4 (0x09 * 2 ^ 26 + 2 * 2 ^ 21 + 1 * 2 ^ 16 + 3)
def packedState (count : Nat) (started : Bool) : State :=
  (runState 2 packedWb (fun r => { r with packed := if started then some ⟨0 :: (List.range 8).map (arg packedWb) ++ List.replicate 23 0, List.replicate 16 (List.replicate 64 0), [0x4000], 0x4000, count, false⟩ else none })).writeMem 5 1333 0x4000 packedMem
theorem witness_packed : stewardRun (packedState 0 false) 5 1333 0x41 = some (20, packedWb) ∧ ((packedState 0 false).slot 5 1333 20).packed = none ∧
    scanBundles (packedState 0 false) 5 1333 4096 0x4000 = some [0x4000] ∧ scanBundles fieldState 5 1333 4096 0x4000 = none := by decide +kernel
def packedIns : List PkIns := [pkIns 0 ((packedState 0 true).memWord 5 1333 0x4004 4)]
def packedOut (p : PackedRun) : PkOut := packedIns.foldl (pkStep (packedState 0 true) 5 1333 0x4000 p) { x := p.x, v := p.v }
theorem witness_bundle : (packedState 0 true).memWord 5 1333 0x4000 4 = 0x101 ∧ pkMax packedWb = 8 ∧ maskSlots 1 = [0] ∧
    (((packedState 0 true).slot 5 1333 20).packed.map (fun p => pkRefuse p 0x4000 0x101 packedIns)) = some none ∧
    (((packedState 0 true).slot 5 1333 20).packed.map (fun p => (packedOut p).stores)) = some [] ∧
    (((packedState 0 true).slot 5 1333 20).packed.map (fun p => (packedOut p).credit)) = some none := by decide +kernel
/-- ADDI x2, x1, 3 with x1 = 5. -/
theorem test_bundle : (((packedState 0 true).slot 5 1333 20).packed.map (fun p => (packedOut p).x.getD 2 0)) = some 8 := by decide +kernel
theorem witness_bundle_bad : ((packedState 8 true).slot 5 1333 20).packed.map (fun p => p.count) = some 8 ∧
    512 ≤ ((packedState 0 true).writeMem 5 1333 0x4000 [1, 2]).memWord 5 1333 0x4000 4 := by decide +kernel

/-! ## Sheaves -/

/-- A plan of Sheaf `id` in tile memory: SUM of BF16 with one LEAF or CHILD input and one window target. -/
def planOf (id mode n lanes parent kind cnt : Nat) : List Byte :=
  leBytes 2 id ++ [1, 4, 4] ++ leBytes 1 mode ++ [1, 1] ++ leBytes 4 n ++ leBytes 3 parent ++ [0] ++ leBytes 1 lanes ++ [0, 0, 0] ++ leBytes 4 100 ++ List.replicate 40 0 ++
    (leBytes 3 0x412 ++ leBytes 1 kind ++ leBytes 4 0 ++ leBytes 4 cnt ++ List.replicate 4 0) ++
    (leBytes 3 0x412 ++ [1, 0, 0, 0, 0] ++ leBytes 4 0 ++ leBytes 4 n ++ leBytes 5 0x40 ++ [0, 0, 0] ++ leBytes 4 7 ++ List.replicate 4 0)
/-- Tile 1,333 of die 5 anchors a node with a plan. -/
def nodeState (plan : List Byte) (f : SheafNode → SheafNode) : State :=
  fieldState.setNode 5 0x2A7 0x51 (some (f { field := 0x2A7, tile := 1333, rank := 0xC35, plan := sheafPlanOf plan }))
/-- A root over 16,384 elements with one LEAF; a VARIABLE input of a node below 0x999; a small root and a small node below 0x412. -/
def rootPlan : List Byte := planOf 0x51 0x10 16384 16 0 1 16384
def varPlan : List Byte := planOf 0x51 0 16384 16 0x412 5 0
def smallPlan : List Byte := planOf 0x51 0x18 8 1 0 1 8
def smallChild : List Byte := planOf 0x51 0x08 8 1 0x412 2 8
theorem test_plans : sheafPlanOk rootPlan (sheafPlanOf rootPlan) = true ∧ sheafPlanOk varPlan (sheafPlanOf varPlan) = true ∧
    sheafPlanOk smallPlan (sheafPlanOf smallPlan) = true ∧ sheafPlanOk smallChild (sheafPlanOf smallChild) = true ∧
    sheafPlanOk (planOf 0x51 0x10 16384 16 5 1 16384) (sheafPlanOf (planOf 0x51 0x10 16384 16 5 1 16384)) = false := by decide +kernel
def defineState : State :=
  ((((callState 0x10 [0x8000]).setFld F.SH_GRANT_ID_BASE 0x40 [5, 0]).setFld F.SH_GRANT_ID_COUNT 0x40 [5, 0]).setFld F.SH_GRANT_NODES 4 [5, 0]).setFld
    F.SH_GRANT_NARROW_CHUNKS 16 [5, 0] |>.writeMem 5 1333 0x8000 rootPlan
theorem witness_sheafDefine : let s := defineState
    inCall s 5 1333 0x10 = some (20, callWb 0x10 [0x8000]) ∧ planBytes (s.readMem 5 1333 0x8000 64) = 112 ∧ s.readMem 5 1333 0x8000 112 = rootPlan ∧
    s.tileSlot 5 1333 = some 0 ∧ deadlineFits s 5 0 100 = true ∧ s.node 5 0x2A7 0x51 = none ∧ (nodesOf s 5 0x2A7).length < s.fld F.SH_GRANT_NODES [5, 0] ∧
    chunksHeld s 5 0x2A7 false + 16 ≤ s.fld F.SH_GRANT_NARROW_CHUNKS [5, 0] := by decide +kernel
def queryState (no : Nat) (f : SheafNode → SheafNode) : State :=
  { callState no [0x51] with sheaf := (nodeState rootPlan f).sheaf }
theorem witness_sheafQuery : inCall (queryState 0x12 id) 5 1333 0x12 = some (20, callWb 0x12 [0x51]) ∧ (ownNode (queryState 0x12 id) 5 1333 0x51).isSome = true ∧
    inCall (queryState 0x11 id) 5 1333 0x11 = some (20, callWb 0x11 [0x51]) ∧ resOk (callWb 0x12 [0x51]) 3 = true := by decide +kernel
/-- 128 BF16 elements for one chunk of Sheaf 0x51, in a round. -/
def contribPacket (round : Nat) : Packet := sealCheck
  { h := { cls := 1, typ := 0x82, units := 4, field := 0x2A7, dstDevice := 0x102, srcDevice := 0x100, dstRank := 0xC35, srcRank := 0x412, depart := departOf 1000000000 },
    body := dataBody 0 0 noRef 0x51 4 (round * 2 ^ 28) 0 0 0, data := List.replicate 256 0 }
theorem witness_contrib : let nd : SheafNode := { field := 0x2A7, tile := 1333, rank := 0xC35, plan := sheafPlanOf rootPlan }
    checkOk (contribPacket 0) = true ∧ (nodeState rootPlan id).fieldFenced 0x2A7 = false ∧ (nodeState rootPlan id).node 5 0x2A7 (contribPacket 0).sheafId = some nd ∧
    inputOf nd.plan 0x412 = some 0 ∧ (nd.plan.inputs[0]?).map (fun x => (x.var, x.child, contribChunks nd.plan x (contribPacket 0))) = some (false, false, some (0, 1)) ∧
    roundOf nd ((contribPacket 0).elemBase / 2 ^ 28) = some false ∧ roundOf nd ((contribPacket 5).elemBase / 2 ^ 28) = none ∧ nd.low false = 0 ∧
    tabGet 0 nd.now_.recv [0, 0] = 0 ∧ (nd.chunkRec 0).done = false := by decide +kernel
def coverPacket : Packet := ctrlPacket 0x07 ([1, 0] ++ beBytes 2 0x51 ++ [0, 0, 0, 0] ++ beBytes 4 0 ++ beBytes 4 3) { typ := 7 }
theorem witness_cover : checkOk coverPacket = true ∧ coverPacket.pay 0 1 = 1 ∧ coverRanges coverPacket = [(0, 3)] ∧ apart [(0, 3)] = true ∧
    (coverPacket.pay 1 1).testBit 4 = false := by decide +kernel
theorem witness_coverNode : let nd : SheafNode := { field := 0x2A7, tile := 1333, rank := 0xC35, plan := sheafPlanOf varPlan }
    (nodeState varPlan id).node 5 0x2A7 (coverPacket.pay 2 2) = some nd ∧ (nd.plan.inputs[0]?).map (·.var) = some true := by decide +kernel
theorem witness_coverPlan : (sheafPlanOf varPlan).chunks = 128 := by decide +kernel
theorem witness_countPoison : let p := ctrlPacket 0x07 ([2, 0] ++ beBytes 2 0x51 ++ [0, 0, 0, 0] ++ beBytes 4 0 ++ beBytes 4 3 ++ beBytes 4 7 ++ beBytes 2 1) { typ := 7 }
    checkOk p = true ∧ p.pay 0 1 = 2 ∧ refSlot fieldState 5 1333 (p.pay 16 4) = some 7 ∧ fieldState.aged p.h = false := by decide +kernel
theorem witness_result : let nd : SheafNode := { field := 0x2A7, tile := 1333, rank := 0xC35, plan := sheafPlanOf varPlan }
    nd.plan.root = false ∧ nd.plan.parent = 0x412 ∧ nd.plan.outMx = false ∧ mxWhole (contribPacket 0) = true ∧ (contribPacket 0).elemBase / 2 ^ 28 = nd.cur := by decide +kernel
/-- Sheaf 0x51's node with a held packet in an open round. -/
def heldNode : SheafNode := { field := 0x2A7, tile := 1333, rank := 0xC35, plan := sheafPlanOf rootPlan, openedAt := some 0, now_ := { held := [⟨7, 0, 0, 1, 0⟩] } }
theorem witness_accumulate : (heldNode.now_.held.find? (fun h => h.pid = 7)) = some ⟨7, 0, 0, 1, 0⟩ ∧ heldNode.openedAt = some 0 ∧
    (0 : Nat) + 16000 * 100 ≤ fieldState.now := by decide +kernel
theorem witness_accumulateWindow : heldNode.window.head? = some 0 := by decide +kernel
theorem witness_accumulateNode : ((fieldState.setNode 5 0x2A7 0x51 (some heldNode)).node 5 0x2A7 0x51).isSome = true := by decide +kernel
/-- *A small BF16 all-reduce*: P0's contribution of 256.0 for element 0. -/
def smallPacket (kind : Nat) (rest : List Byte) : Packet := ctrlPacket 0x06 (beBytes 1 kind ++ [0] ++ beBytes 2 0x51 ++ rest) { typ := 6 }
theorem witness_small : let n : SheafNode := { field := 0x2A7, tile := 1333, rank := 0xC35, plan := sheafPlanOf smallPlan }
    let m : SheafNode := { n with plan := sheafPlanOf smallChild }
    let p := smallPacket 1 (List.replicate 12 0 ++ [0x80, 0x43])
    let q := smallPacket 2 [0, 14, 0, 0]
    checkOk p = true ∧ p.pay 0 1 = 1 ∧ p.pay 1 1 % 16 = n.cur ∧ n.plan.small = true ∧ (n.plan.inputs[0]?).map (·.child) = some false ∧ m.plan.small = true ∧
    (m.plan.inputs[0]?).map (·.child) = some true ∧ q.pay 5 1 = (16 + 8 * m.plan.words.1 * m.plan.n + 23) / 24 ∧ q.pay 4 1 < q.pay 5 1 ∧ m.plan.root = false ∧ m.plan.parent = 0x412 := by decide +kernel
theorem witness_smallResult : let s := nodeState smallPlan id
    let p := smallPacket 3 ([3] ++ beBytes 5 0x12010 ++ beBytes 4 7 ++ [0, 0] ++ List.replicate 16 1)
    checkOk p = true ∧ oneBlock (p.pay 5 5) 16 = true ∧ smallLen s 0x2A7 (p.pay 2 2) = 16 ∧
    windowAt s 5 1333 (p.pay 4 1) (p.pay 5 5) (smallLen s 0x2A7 (p.pay 2 2)) true = some 0x52010 ∧ refSlot s 5 1333 (p.pay 10 4) = some 7 := by decide +kernel
/-- *A small BF16 all-reduce*: 256 and seven ones sum exactly to 263, which BF16 rounds to 264, 0x4384; here 256 and one, and the sum of all. -/
theorem test_allReduce : let p := sheafPlanOf smallPlan
    (([0x4380, 0x3F80].map bf16.decode).foldl (fun a v => mergeLane p false a (leafLane p 0 v)) {}).a = 257 * 2 ^ 149 := by decide +kernel
theorem test_allReduceRounds : laneBytes (sheafPlanOf smallPlan) 8 { a := 263 * 2 ^ 149 } = [0x84, 0x43] := by decide +kernel

/-! ## Engines -/

/-- A plan of job 9 in tile memory: TOPK of FP32 with K 2 and DESC, one input of 128 elements, a TAGS and a COUNT target. -/
def topPlan : List Byte :=
  [9, 2, 2, 0, 0, 1, 1, 2, 0] ++ List.replicate 15 0 ++ leBytes 4 2 ++ leBytes 4 100 ++ leBytes 4 0x10000 ++ leBytes 4 65600 ++ List.replicate 24 0 ++
    (leBytes 3 0x412 ++ [0] ++ leBytes 4 128 ++ List.replicate 8 0) ++
    (leBytes 3 0x412 ++ [2, 1, 0, 0, 0] ++ leBytes 4 0 ++ leBytes 4 2 ++ leBytes 5 0x40 ++ [0, 0, 0] ++ leBytes 4 7 ++ List.replicate 4 0) ++
    (leBytes 3 0x412 ++ [3, 1, 0, 0, 0] ++ List.replicate 8 0 ++ leBytes 5 0x80 ++ [0, 0, 0] ++ leBytes 4 7 ++ List.replicate 4 0)
theorem test_winnowPlan : winnowPlanOk topPlan (winnowPlanOf topPlan) = true ∧ (winnowPlanOf topPlan).outMax = 2 ∧
    winnowPlanOk (topPlan.set 9 1) (winnowPlanOf (topPlan.set 9 1)) = false ∧ winnowPlanOk (topPlan.set 24 3) (winnowPlanOf (topPlan.set 24 3)) = true ∧
    winnowPlanOk (topPlan.set 92 3) (winnowPlanOf (topPlan.set 92 3)) = false := by decide +kernel
def winDefState : State := (((callState 0x20 [0x8000]).setFld F.WN_GRANT_JOBS 2 [5, 0])).writeMem 5 1333 0x8000 topPlan
theorem witness_winnowDefine : let s := winDefState
    inCall s 5 1333 0x20 = some (20, callWb 0x20 [0x8000]) ∧ resOk (callWb 0x20 [0x8000]) 0 = true ∧ s.readMem 5 1333 0x8000 144 = topPlan ∧ s.tileSlot 5 1333 = some 0 ∧
    engineFits s 5 0 100 = true ∧ s.job 0x2A7 9 = none ∧ jobsUsed s 5 0x2A7 < s.fld F.WN_GRANT_JOBS [5, 0] := by decide +kernel
def jobOf (f : WinnowJob → WinnowJob) : WinnowJob := f { die := 5, tile := 1333, rank := 0xC35, plan := winnowPlanOf topPlan }
def jobState (f : WinnowJob → WinnowJob) : State := fieldState.setJob 0x2A7 9 (some (jobOf f))
theorem witness_winnowRoutines : let s (no : Nat) : State := { callState no [9] with engine := (jobState id).engine }
    inCall (s 0x21) 5 1333 0x21 = some (20, callWb 0x21 [9]) ∧ ownJob (s 0x21) 5 1333 9 = some (0x2A7, jobOf id) ∧
    inCall (s 0x22) 5 1333 0x22 = some (20, callWb 0x22 [9]) ∧ resOk (callWb 0x22 [9]) 2 = true := by decide +kernel
/-- 64 FP32 elements of job 9, stream 0, of a round, for rank 0x412. -/
def winPacket (round : Nat) : Packet := sealCheck
  { h := { cls := 1, typ := 0x84, units := 4, field := 0x2A7, dstDevice := 0x102, srcDevice := 0x100, dstRank := 0xC35, srcRank := 0x412, depart := departOf 1000000000 },
    body := dataBody 9 (64 * 65536) noRef 0 2 (round * 2 ^ 28) 0 0 0, data := List.replicate 256 0 }
theorem witness_winnowIn : checkOk (winPacket 0) = true ∧ (jobState id).ownsTile2 5 1333 0x2A7 = true ∧ (jobState id).fieldFenced 0x2A7 = false ∧ (jobState id).job 0x2A7 (winPacket 0).window = some (jobOf id) ∧
    winInput (jobOf id).plan (winPacket 0) = some 0 ∧ (winPacket 0).elemBase / 2 ^ 28 = 0 ∧ (winPacket 1).elemBase / 2 ^ 28 = 1 ∧ (winPacket 7).elemBase / 2 ^ 28 = 7 ∧
    winNelem (winPacket 0) = 64 ∧ winLast (winPacket 1) = false ∧ winInput (jobOf id).plan (winPacket 1) = some 0 := by decide +kernel
/-- *Worked example* of R307: the records of ranks 0x412, 0x413 and 0x410. -/
def exampleRecs : List WinnowRec := [⟨0, 0x80000000, 0x413, 1⟩, ⟨0, 0x40E00000, 0x413, 0⟩, ⟨0, 0x40A00000, 0x412, 0⟩, ⟨0, 0x3F800000, 0x410, 0⟩, ⟨0, 0x40E00000, 0x412, 1⟩]
theorem test_topk : orderCode 2 0x40E00000 true = 0x3FE3FFFFFFFFFFFF ∧ (winnowResult (winnowPlanOf topPlan) exampleRecs []).tags = [(0x412, 1), (0x413, 0)] := by decide +kernel
/-- A round whose input is complete: one record, and its work area as the job left it. -/
def closing : WinnowJob := jobOf (fun x => { x with openedAt := some 0, now_ := { recv := [([0, 0], 1)], ends := [([0], 2)] }, recs := [⟨0, 0x3F800000, 0x412, 0⟩] })
theorem witness_winnowRound : inputComplete closing = true ∧ workIntact (fieldState.writeMem 5 1333 0x10000 (workBytesOf ⟨0, 0x3F800000, 0x412, 0⟩)) closing = true ∧
    closing.now_.poisoned = false ∧ fieldState.fieldFenced 0x2A7 = false := by decide +kernel
theorem witness_winnowDeadline : let x := jobOf (fun x => { x with openedAt := some 0 })
    inputComplete x = false ∧ 0 + 16000 * x.plan.deadlineUs ≤ fieldState.now := by decide +kernel

/-- *A worked attention query*: the descriptor of context 0x105, with a template of one BF16 head. -/
def ctxBytes : List Byte :=
  leBytes 2 0x105 ++ [0x10, 1] ++ leBytes 2 4 ++ [1, 0] ++ leBytes 4 0x100000 ++ leBytes 2 0 ++ [0, 0] ++ leBytes 4 200 ++
    ([1, 4, 0, 2] ++ leBytes 5 0x200 ++ [0, 0, 0] ++ leBytes 4 0 ++ leBytes 4 600 ++ leBytes 4 0x3E38AA3B ++ List.replicate 4 0 ++ leBytes 4 0x31 ++ List.replicate 12 0) ++
    [5, 20, 1, 0, 0, 0, 0, 0]
def theCtx : GlCtx := ctxOf 0x2A7 5 1333 0xC35 ctxBytes
theorem test_bales : theCtx.baleBytes = 33920 ∧ theCtx.nt = 64 ∧ theCtx.baleAt 3 = some (5, 1283, 0x100000) ∧ theCtx.baleAt 64 = some (5, 1280, 0x100000 + 33920) := by decide +kernel
def glDefState : State :=
  (((callState 0x30 [0x8000]).setFld F.GL_GRANT_CTX_BASE 0x100 [0]).setFld F.GL_GRANT_CTX_COUNT 16 [0]).writeMem 5 1333 0x8000 ctxBytes
theorem witness_glDefine : let s := glDefState
    inCall s 5 1333 0x30 = some (20, callWb 0x30 [0x8000]) ∧ s.readMem 5 1333 0x8000 72 = ctxBytes ∧ s.tileSlot 5 1333 = some 0 ∧ ctxOk s theCtx ctxBytes = true ∧
    engineFits s 5 0 200 = true ∧ s.ctx 0x105 = none ∧ s.rowOwner1 5 20 = some 0 ∧ theCtx.rows = [(5, 20)] := by decide +kernel
def ctxState (c : GlCtx) : State := fieldState.setCtx 0x105 (some c)
theorem witness_glRoutines : let s (no : Nat) : State := { callState no [0x105] with engine := (ctxState theCtx).engine }
    inCall (s 0x31) 5 1333 0x31 = some (20, callWb 0x31 [0x105]) ∧ (s 0x31).ctx 0x105 = some theCtx ∧ inCall (s 0x32) 5 1333 0x32 = some (20, callWb 0x32 [0x105]) ∧
    (s 0x32).tileField 5 1333 = some theCtx.field := by decide +kernel
/-- The summary of Bale 0: 64 BF16 zeros and padding. -/
def kvPacket : Packet := sealCheck
  { h := { cls := 1, typ := 0x88, units := 4, field := 0x2A7, dstDevice := 0x102, srcDevice := 0x100, dstRank := 0xC35, srcRank := 0x412, depart := departOf 1000000000 },
    body := dataBody 0 0 noRef 0 4 (512 * 64) 0x105 0 0, data := List.replicate 256 0 }
theorem witness_gleanKv : checkOk kvPacket = true ∧ kvPlace (ctxState theCtx) kvPacket = some (5, 1280, 0x100000 + 2 * 16896, List.replicate 128 0) ∧
    (ctxState theCtx).aged kvPacket.h = false ∧ (ctxState theCtx).ownsTile2 5 1280 0x2A7 = true := by decide +kernel
/-- The query of the worked example, with a query of zeros. -/
def queryPacket : Packet := sealCheck
  { h := { cls := 1, typ := 0x86, units := 4, field := 0x2A7, dstDevice := 0x102, srcDevice := 0x100, dstRank := 0xC35, srcRank := 0x412, depart := departOf 1000000000 },
    body := dataBody 0 0 0x31 0 4 0 0x105 0 0,
    data := [1, 4, 0, 2] ++ beBytes 5 0x200 ++ [0, 0, 0] ++ beBytes 4 0 ++ beBytes 4 0x258 ++ beBytes 4 0x3E38AA3B ++ List.replicate 232 0 }
theorem witness_gleanQuery : checkOk queryPacket = true ∧ queryPacket.glContext = 0x105 ∧ queryOk theCtx queryPacket = true ∧ (askOf queryPacket.data).bales = [0, 1, 2] ∧
    (askOf queryPacket.data).units 64 = 5 := by decide +kernel
def askedCtx (on_ : Bool) : GlCtx := { theCtx with queries := [{ id := 7, p := queryPacket, acceptedAt := 0, started := on_, bales := if on_ then [0, 1, 2] else [] }] }
theorem witness_gleanBatch : (askedCtx false).queries.all (fun q => !q.started) = true ∧ batchOf 64 (askedCtx false).queries = [7] ∧ (askedCtx false).lost = false := by decide +kernel
theorem witness_baleTask : ((liveQuery (ctxState (askedCtx true)) 0x105 7).map (fun x => (x.1.lost, balesOn x.1 x.2 1, tabGet [] x.2.parts [1]))) = some (false, [1], []) := by decide +kernel
theorem witness_gleanForm : let c := askedCtx true
    let q : GlQuery := { id := 7, p := queryPacket, acceptedAt := 0, started := true, bales := [0, 1, 2], parts := [([0], [.empty]), ([1], [.empty]), ([2], [.empty])] }
    c.queries.find? (fun q => q.id = 7) ≠ none ∧ allYielded c q = true ∧ 0 + 16000 * c.deadlineUs ≤ fieldState.now := by decide +kernel
def resultPacket (st : Nat) : Packet := sealCheck
  { h := { cls := 1, typ := 0x87, units := 5, field := 0x2A7, dstDevice := 0x102, srcDevice := 0x100, dstRank := 0xC35, srcRank := 0x412, tagIndex := 21, tagEpoch := 2, depart := departOf 1000000000 },
    body := dataBody 3 0x12000 noRef 0 4 0 0x105 0 0, data := padTo 320 [BitVec.ofNat 8 st] }
theorem witness_gleanResult : checkOk (resultPacket 1) = true ∧ ((tagState .opened queryPacket).tagOf 5 1333 21).req = some queryPacket ∧
    ((tagState .opened queryPacket).tagOf 5 1333 21).st = .opened ∧ windowAt (tagState .opened queryPacket) 5 1333 3 0x12000 320 true = some 0x52000 := by decide +kernel
/-- *Example partials*: m, l and o[0] of three tiles combine to 4, 4 and 10, and o over l is 2.5, BF16 0x4020. -/
theorem test_attention : combine (combine (.val 0x40000000 0x40800000 [0x41000000]) (.val 0x40800000 0x40000000 [0x40C00000])) (.val 0x3F800000 0x41000000 [0x41800000]) =
      .val 0x40800000 0x40800000 [0x41200000] ∧ headResult 1 4 (.val 0x40800000 0x40800000 [0x41200000]) = (0x40800000, 0x40800000, [0x4020]) := by decide +kernel

/-! ## Security and trust -/

/-- Half-port 5 in KEY with the Trust Core ready, and a handshake that has gone as far as `f` says. -/
def keyState (st : Nat) (f : HsRec → HsRec) : State :=
  let s := withFlds [(F.PH_LINK_STATE, [2, 1], st), (F.PH_PORT_CFG_SPLIT, [2], 1), (F.PH_PORT_CFG_ENABLE, [2], 1), (F.TC_STATUS_STATE, [], 1), (F.TC_STATUS_IDENTITY_OK, [], 1),
    (F.LC_STATUS_REKEY_PENDING, [2, 1], 1)]
  let s := { s with trust := { s.trust with image := { s.trust.image with certs := some ([], []) } } }
  s.setHs 5 (some (f { myHello := List.replicate 100 1 }))
/-- A HELLO whose chain begins with a device certificate. -/
def partnerHello : List Byte := [1, 0, 0, 2] ++ List.replicate 1316 0 ++ [2] ++ List.replicate 11032 0
theorem witness_hello : let s := keyState 3 id
    s.link 5 = 3 ∧ s.trustReady = true ∧ (s.hsOn 5).map (fun r => (r.got, r.keys, helloNonce r.myHello)) = some ([], none, List.replicate 32 1) ∧
    s.hsTurn 0 5 = true ∧ helloNonce partnerHello = List.replicate 32 0 ∧ roleOk s 5 (certKind ((helloChain partnerHello).take 5518)) = true ∧ s.isEth 5 = false := by
  decide +kernel
theorem witness_helloForm : helloForm 0 partnerHello = true := by decide +kernel
theorem witness_kemctFinish : (keyState 3 (fun r => { r with got := [1], sent := [1, 2] })).hsOn 5 = some { myHello := List.replicate 100 1, got := [1], sent := [1, 2] } ∧
    ((keyState 3 (fun r => { r with got := [1, 2] })).hsOn 5).map (·.got) = some [1, 2] ∧ (keyState 3 id).keyPhase 5 = true ∧
    (keyState 3 (fun r => { r with got := [1, 2] })).hsTurn 0 5 = true := by decide +kernel
def aSecret : LinkSecret := { peer := List.replicate 16 9, chain := [], key := [1], salt := [], nextKey := [2], nextSalt := [] }
theorem witness_done : (keyState 3 (fun r => { r with got := [1, 2, 3], sent := [1, 2, 3, 4], keys := some (aSecret, aSecret) })).hsOn 5 =
    some { myHello := List.replicate 100 1, got := [1, 2, 3], sent := [1, 2, 3, 4], keys := some (aSecret, aSecret) } := by decide +kernel
theorem witness_rekey : let s := (keyState 4 id).setHalf 5 { (keyState 4 id).half 5 with keys := ⟨true, 0, 2 ^ 32, 0, true, 0, true⟩ }
    s.link 5 = 4 ∧ (s.half 5).keys.txValid = true ∧ 2 ^ 32 ≤ (s.half 5).keys.txCount ∧ s.fld F.LC_STATUS_REKEY_PENDING (hp 5) = 1 ∧ s.isEth 5 = false ∧
    (s.setSecret 5 0 (some aSecret)).secret 5 0 = some aSecret := by decide +kernel

/-- The Almanac's ATTEST from tile 1,333, with a signature to be made. -/
def attestState : State :=
  let s := callState 0x40 [0x8000, 0x9000, 0]
  ((s.setFld F.TC_STATUS_STATE 1).setFld F.TC_STATUS_IDENTITY_OK 1).setFld F.DV_AIC_VALID 1
theorem witness_attest : let s := attestState
    inCall s 5 1333 0x40 = some (20, callWb 0x40 [0x8000, 0x9000, 0]) ∧ resOk (callWb 0x40 [0x8000, 0x9000, 0]) 1 = true ∧ s.tileSlot 5 1333 = some 0 := by decide +kernel
theorem witness_attestSigns : canSign attestState = true ∧ attestState.fld F.DV_FIELD_SLOT_STATE [0] ≠ 0 := by decide +kernel
/-- A manager session under key 1, in which SEQ 299 has been accepted. -/
def theSession : Session := { rxKey := [1], txKey := [2], high := 299 }
/-- A packet that awaits the management logic of die 0. -/
def mgrHeld (p : Packet) : Pkt := { heldOf p 5 .queued with die := 0, cells := [] }
/-- A request: OP, ADDRESS, BANK and VALUE under key 1 and SEQ 300, with its MAC. -/
def reqPacket (op addr bank value : Nat) : Packet :=
  let h : Hdr := { typ := 0x20, dstDevice := 0x102, srcDevice := 0x100 }
  let pay := beBytes 1 op ++ [1] ++ beBytes 6 300 ++ beBytes 5 addr ++ beBytes 1 bank ++ [0, 0] ++ beBytes 8 value
  sealCheck { h := h, body := pay ++ shortMac [1] 1 h pay }
def askState (s : State) (p : Packet) : State := (s.setSession 1 (some theSession)).setPkt 7 (some (mgrHeld p))
theorem witness_asked : let p := reqPacket 2 0 0 5
    let s := askState fieldState p
    (mgrPkt s 7 0x20).map (·.p.h) = some p.h ∧ reqMalformed p = false ∧ reqOf p = ⟨2, 1, 300, 0, 0, 5⟩ ∧ (freePkt 7 8 s).session 1 = some theSession := by decide +kernel
/-- A packet sealed with its CHECK has a CHECK that holds. -/
theorem witness_sealed (p : Packet) : checkOk (sealCheck p) = true := checkOk_sealCheck p
theorem witness_askedMac (op addr bank value : Nat) : shortMac [1] 1 (reqPacket op addr bank value).h ((reqPacket op addr bank value).body.take 24) = (reqPacket op addr bank value).body.drop 24 := by
  rfl
/-- MGR_DATA under key 1 and SEQ 300 that carries `bytes` of a transfer to a target, with its MAC. -/
def dataPacket (target : Nat) (bytes : List Byte) : Packet :=
  let h : Hdr := { typ := 0x8F, cls := 1, units := 4, dstDevice := 0x102, srcDevice := 0x100 }
  let front := beBytes 1 target ++ [1, 1, 1] ++ beBytes 6 300 ++ beBytes 4 0 ++ beBytes 4 bytes.length ++ List.replicate 6 0
  let data := padTo 256 bytes
  sealCheck { h := h, body := front ++ dataMac [1] 1 h front data, data := data }
def fillState (s : State) (target arg : Nat) (bytes : List Byte) : State :=
  (s.setSession 1 (some { theSession with high := 300, xfer := some { seq := 300, target := target, arg := arg, len := bytes.length, req := reqPacket 5 target 0 bytes.length, at_ := 0 } })).setPkt 7
    (some (mgrHeld (dataPacket target bytes)))
theorem witness_filled : let bytes := List.replicate 32 (3 : Byte)
    let s := fillState fieldState 5 0 bytes
    let x : Xfer := { seq := 300, target := 5, arg := 0, len := 32, req := reqPacket 5 5 0 32, at_ := 0 }
    (mgrPkt s 7 0x8F).map (·.p.h) = some (dataPacket 5 bytes).h ∧ dataHdrOf (dataPacket 5 bytes) = ⟨5, 1, 1, 300, 0, 32⟩ ∧
    dataMalformed (dataPacket 5 bytes) = false ∧ ((s.session 1).bind (·.xfer)).map (fun y => (y.seq, y.target, y.len)) = some (300, 5, 32) ∧ dataFits x (dataPacket 5 bytes) = true ∧ piecesCover (addPiece x (dataPacket 5 bytes) 0).got 32 = true ∧ objectOf (addPiece x (dataPacket 5 bytes) 0) = bytes := by decide +kernel
theorem witness_filledMac (target : Nat) (bytes : List Byte) :
    dataMac [1] 1 (dataPacket target bytes).h ((dataPacket target bytes).body.take 24) (dataPacket target bytes).data = (dataPacket target bytes).body.drop 24 := by rfl
theorem witness_relayStart : let s := { keyState 4 id with boot := { (keyState 4 id).boot with pwrGood := true } }
    (match s.place 0xC020 with
     | .reg y q => decide (y.reg = .TC_RELAY) && decide (q = []) && s.accessOk y q 0x85 && (plainWrite y q 0x85 s).isOk
     | _ => false) = true ∧ s.reach 0xC020 = stOk ∧ s.trustReady = true := by decide +kernel
theorem witness_relay : let r : HsRec := { got := [1], sent := [1, 2], startedAt := 0 }
    (fillState fieldState 7 0 (List.replicate 1088 0)).hsTurn 0 16 = true ∧ (match relayStep r (List.replicate 1088 0) fieldState with
     | .go r1 l _ => !r1.over && decide (l.length = 1)
     | _ => false) = true ∧ (0 : Nat) + 16000 * 100000 ≤ 1600000000 := by decide +kernel
def sessionHello : List Byte := [1, 2, 0, 0] ++ List.replicate 3362 5
theorem witness_session : let s := { keyState 4 id with trust := { (keyState 4 id).trust with image := { (keyState 4 id).trust.image with mgrKeys := [helloChain sessionHello] } } }
    let p : Packet := sealCheck { h := { typ := 0x8F, cls := 1, units := 53 }, body := [1, 1, 0, 1] ++ List.replicate 10 0 ++ leBytes 1 0 ++ [0, 0x0D, 0x26] ++ List.replicate 22 0, data := padTo 3392 sessionHello }
    s.trustReady = true ∧ sessionWaits s p = false ∧ dataHdrOf p = ⟨1, 1, 0, 0, 0, 3366⟩ ∧ dataMalformed p = false ∧ allZero (p.body.drop 24) = true ∧ p.data.take 3366 = sessionHello ∧
    sessionHello.length = 3366 ∧ sessionHello.take 4 = [1, 2, 0, 0] := by decide +kernel
theorem witness_sessionKey : [helloChain sessionHello][0]?.map keyId = some (keyId (helloChain sessionHello)) := rfl

/-! ## Start-up, power and the board (chapters 12 to 14) -/

/-- A device that boots: powered, in a state of SL_STATUS, as head or follower at a position. -/
def bootState (st role pos : Nat) : State :=
  let s := withFlds [(F.SL_STATUS_STATE, [], st), (F.SL_STATUS_ROLE, [], role), (F.SL_STATUS_POS, [], pos), (F.SL_STATUS_ATTEMPTS, [], 1), (F.SM_DIE_STATE_POWERED, [3], 1)]
  { s with boot := { s.boot with pwrGood := true, resetN := true } }
theorem witness_vaux : ({ State.reset with boot := { State.reset.boot with vaux := false } } : State).boot.vaux = false ∧ State.reset.boot.vaux = true ∧ State.reset.trust.order = none := by
  decide +kernel
theorem witness_power : let s := bootState 2 1 0
    s.boot.pwrGood = true ∧ s.boot.resetN = true ∧ s.boot.vaux = true ∧ s.fld F.SM_DIE_STATE_POWERED [3] = 1 ∧ 0x58 + s.fld F.SL_STATUS_POS < 128 := by decide +kernel
theorem witness_bootStart : let s := bootState 0 0 0
    s.boot.vaux = true ∧ s.boot.pwrGood = true ∧ s.fld F.PW_CAP_THERM_TRIPPED ≠ 1 ∧ s.recorder.sample = none ∧ s.fld F.SL_STATUS_STATE = 0 := by decide +kernel
theorem witness_bootStartCut : let s := { bootState 4 0 0 with recorder := { (bootState 4 0 0).recorder with sample := some ⟨1, 0xFF, 0, 0, 0, false⟩ } }
    (s.recorder.sample).map (·.cause) = some 1 := by decide +kernel
theorem witness_dieTested : let s := { bootState 4 0 0 with safe := { (bootState 4 0 0).safe with request := some { kind := 2, target := 3, begun := true } } }
    s.safe.request = some { kind := 2, target := 3, begun := true } ∧ (bootState 1 0 0).fld F.SL_STATUS_STATE = 1 := by decide +kernel
def flashImage : List Byte := [0x59, 0x49, 1, 2] ++ beBytes 4 64 ++ List.replicate 8000 0
theorem witness_vcore : (bootState 2 1 0).fld F.SM_DIE_STATE_POWERED [3] = 1 ∧ (bootState 2 1 0).safe.paceZero = [] := by decide +kernel
theorem witness_headStaged : let s := bootState 2 1 0
    nvmMode ⟨true, true, true, 26, 5, flashImage⟩ ≠ 0 ∧ nvmMode ⟨true, false, false, 26, 5, flashImage⟩ = 0 ∧ s.fld F.SL_STATUS_ROLE = 1 ∧ s.fld F.SL_STATUS_STATE = 2 ∧ s.boot.trying = 0 ∧ s.boot.endAt = none ∧ imageLen (bytesOfLen 64 flashImage) = 64 ∧ 64 + 5518 ≤ 2 ^ 29 := by decide +kernel
def aStream : ChainStream := { source := 1, attempt := 1, header := flashImage.take 64 }
def chainState (st role pos : Nat) (x : ChainStream) : State :=
  let s := bootState st role pos
  { s with boot := { s.boot with stream := some x, board := 3, endAt := some 0 } }
theorem witness_followerStaged : let s := chainState 2 0 1 { aStream with ended := true }
    s.fld F.SL_STATUS_ROLE = 0 ∧ s.fld F.SL_STATUS_STATE = 2 ∧ s.boot.applied = false ∧ s.boot.stream = some { aStream with ended := true } := by decide +kernel
theorem witness_chainStart : let f := chainFrame 1 0 ([1, 1] ++ flashImage.take 64)
    f.wellFormed = true ∧ chainOk f = true ∧ f.typ = 1 ∧ f.payload.length = 66 ∧ (chainState 2 0 1 aStream).fld F.SL_STATUS_STATE = 2 := by decide +kernel
theorem witness_chainData : let f := chainFrame 3 0 (flashImage.take 64)
    f.wellFormed = true ∧ chainOk f = true ∧ f.typ = 3 ∧ aStream.ended = false ∧ chainOk { f with crc := 0 } = false ∧ ({ f with crc := 0 } : ChainFrame).wellFormed = true := by decide +kernel
theorem witness_chainStatus : let s := chainState 2 1 0 aStream
    let f := statusFrame 2 1 1
    f.wellFormed = true ∧ chainOk f = true ∧ f.typ = 5 ∧ byteNat f.payload 2 1 = s.fld F.SL_STATUS_ATTEMPTS ∧ byteNat f.payload 0 1 = 2 ∧ 2 < s.boot.board ∧ s.fld F.SL_STATUS_ROLE = 1 := by
  decide +kernel
theorem witness_statusTimeout : let s := { chainState 2 1 0 aStream with time := { State.reset.time with count := 16000 * 100000 } }
    tabGet 0 s.boot.statuses [2] = 0 ∧ s.boot.endAt = some 0 ∧ 0 + 16000 * 100000 ≤ s.now ∧ s.fld F.SL_STATUS_ROLE = 1 := by decide +kernel
theorem witness_followerTimeout : let s := { bootState 2 0 1 with time := { State.reset.time with count := 16000 * 60000000 } }
    s.fld F.SL_STATUS_ROLE = 0 ∧ s.boot.applied = false ∧ s.fld F.SL_STATUS_STATE = 2 ∧ s.boot.bootAt + 16000 * 60000000 ≤ s.now := by decide +kernel

/-! ## Admission, faults and the monitors (chapters 11 and 13) -/

theorem witness_admit : let x : Xfer := { seq := 300, target := 6, arg := 0, len := 32, req := reqPacket 5 6 0 32, at_ := 0 }
    let l : List Byte := [0x59, 0x46, 1, 1] ++ List.replicate 28 0
    let m : List Byte := [0x59, 0x46, 1, 2] ++ List.replicate 28 0
    (mgrPkt (fillState fieldState 6 0 l) 7 0x8F).isSome = true ∧ dataFits x (dataPacket 6 l) = true ∧ pieceByte (addPiece x (dataPacket 6 l) 0).got 3 = 1 ∧
    pieceByte (addPiece x (dataPacket 6 m) 0).got 3 = 2 ∧ piecesCover (addPiece x (dataPacket 6 l) 0).got 32 = true := by decide +kernel
/-- Slot 3 in a state, with the record of Field 0x2A8 on row 4 of die 2, with an AT or none, and the row clean. -/
def admitState (st at_ : Nat) : State :=
  let rec_ : List Byte := [0x59, 0x46, 1, 1] ++ beBytes 2 0x2A8 ++ [3, 0] ++ beBytes 8 at_ ++ List.replicate 8 0 ++ beBytes 4 16 ++ List.replicate 548 0
  let s := lockedState [(F.DV_FIELD_SLOT_STATE, [3], st), (F.DV_FIELD_SLOT_FIELD_ID, [3], 0x2A8), (F.SM_ROWS_CLEAN, [2], 16), (F.SL_STATUS_STATE, [], 4), (F.SM_DIE_STATE_POWERED, [2], 1)]
  { s with trust := { s.trust with admits := [([3], rec_)] } }
theorem witness_activate : let s := admitState 1 0
    s.fld F.DV_FIELD_SLOT_STATE [3] = 1 ∧ byteNat (s.admitRecord 3) 8 8 = 0 ∧ s.grantRows 3 = [(2, 4)] ∧ s.fbit F.SM_ROWS_CLEAN 4 [2] = true := by decide +kernel
theorem witness_activateAt : let s := (admitState 1 1000000000).armGate (.admitAt 3) 1000000000
    byteNat (s.admitRecord 3) 8 8 ≠ 0 ∧ s.gateAt (.admitAt 3) = some 1000000000 ∧ s.launchDue (.admitAt 3) = true := by decide +kernel
theorem witness_zeroise : let s := { admitState 1 0 with trust := { (admitState 1 0).trust with zeroing := [(2, 4)] } }
    (2, 4) ∈ s.trust.zeroing ∧ s.fbit F.SM_ROWS_SUSPECT 4 [2] = false ∧ zeroSlot s 2 4 = some 3 ∧ s.fld F.DV_FIELD_SLOT_STATE [3] ≠ 4 ∧ resetting s 3 = false := by decide +kernel
theorem witness_evicted : let s := { admitState 4 0 with ni := { (admitState 4 0).ni with drained := [.field 3] } }
    s.fld F.DV_FIELD_SLOT_STATE [3] = 4 ∧ Domain.field 3 ∈ s.ni.drained ∧ s.trust.zeroing = [] ∧ resetting s 3 = false := by decide +kernel

/-- A detected fault of a row in Field 0x2A7, from a unit. -/
def aNote (row : Nat) (unit : List Nat) : FaultNote := ⟨row, false, unit, 5, 5, 0x2A7, some 20, false, 6, 1, false, []⟩
def faultyState (l : List (List Nat × List Nat)) : State := { fieldState with safe := { fieldState.safe with faults := l } }
theorem witness_firstFault : (aNote 1 [1]).wellFormed = true ∧ fieldState.slotOf 0x2A7 = some 0 ∧ fieldState.safe.faults = [] ∧ resetting fieldState 0 = false ∧
    (aNote 7 [7]).wellFormed = true ∧ ({ aNote 1 [1] with consequential := true } : FaultNote).wellFormed = true := by decide +kernel
theorem witness_secondFault : let s := faultyState [([0, 0], [2])]
    s.slotOf 0x2A7 = some 0 ∧ ([0, 0], [2]) ∈ s.safe.faults ∧ ([0, 0], (aNote 1 [1]).unit) ∉ s.safe.faults ∧ ([1, 5], (aNote 7 [7]).unit) ∉ s.safe.faults := by decide +kernel
/-- The spec's second fault during recovery: fail-silence of the Field, and of the device for a shared domain. -/
theorem test_second_field_fault : (detectedFault (aNote 1 [1]) (faultyState [([0, 0], [2])])).fld F.SM_FIELD_STATE_SILENT [0] = 1 := by decide +kernel
theorem test_second_shared_fault : (detectedFault (aNote 8 [8]) (faultyState [([0, 0], [2])])).fld F.SM_STATUS_STATE = 2 := by decide +kernel
theorem witness_handoff : let s := { fieldState with safe := { fieldState.safe with handoffs := [(0, 5)] } }
    s.safe.handoffs.find? (fun e => e.1 = 0) = some (0, 5) ∧ 5 ≤ s.now := by decide +kernel
theorem witness_monitors : fieldState.tileExists 5 1333 = true ∧ fieldState.fld F.SM_DIE_STATE_POWERED [5] = 1 ∧ fieldState.fld F.SM_DIE_STATE_POWERED [5 / 2] = 1 ∧
    (runState 1 vfloatWb id).running 5 1333 1 ≠ none ∧ fieldState.time.replicaFailures < 2 ∧
    fieldState.halfExists 5 = true ∧ (fieldState.half 5).withheld = false ∧ fieldState.fld F.SM_STATUS_STATE ≠ 2 ∧ (fieldState.half 5).permitAt + 64000 ≤ fieldState.now ∧
    (fieldState.half 5).heartbeatAt + 64000 ≤ fieldState.now := by decide +kernel

/-! ## Resets, Fallow rows and the Recorder (chapter 13) -/

/-- The address of a register's first location on a die and tile. -/
def addrOf (r : Reg) (d t : Nat) : Nat :=
  match regTable.find? (fun x => decide (x.reg = r)) with
  | some x => x.level * 2 ^ 37 + d * 2 ^ 34 + t * 2 ^ 23 + x.base
  | none => 0
/-- A write of `v` to the register at an address reaches it and is not refused with ACCESS. -/
def writeOk (s : State) (r : Reg) (q : List Nat) (a v : Nat) : Bool :=
  match s.place a with
  | .reg y p => decide (y.reg = r) && decide (p = q) && decide (s.reach a = stOk) && s.accessOk y q v
  | _ => false
/-- `fieldState` with its board's supply present. -/
def upState : State := { fieldState with boot := { fieldState.boot with pwrGood := true, resetN := true } }
theorem witness_reset : writeOk upState .SM_RESET [] (addrOf .SM_RESET 0 0) 1 = true ∧ writeOk upState .SM_RESET [] (addrOf .SM_RESET 0 0) (2 + 2 ^ 7 * 5) = true ∧
    resetBar upState 1 0 = 0 ∧ resetBar upState 2 5 = 0 ∧ resetBar upState 5 5 = 5 ∧ resetBar upState 5 4 = 0 := by decide +kernel
theorem witness_requestRuns : let s := { upState with safe := { upState.safe with request := some { kind := 4, target := 5 } } }
    s.safe.request = some { kind := 4, target := 5 } ∧ resetBar s 2 5 = 2 ∧ resetBar s 3 0 = 0 := by decide +kernel
theorem witness_event : let e : Event := ⟨6, 1, 5, 3, 0, 0, 0x2A7, 0, []⟩
    ({ upState with recorder := { upState.recorder with fifo := [e] } } : State).recorder.fifo = [e] := by decide +kernel
/-- Row 5 of die 2, to be replaced at a count by Fallow entry 0, which has passed its self-test. -/
def fallowState : State := (upState.setFld F.SM_FALLOW_REQ_LROW 5 [2]).setFld F.SM_FALLOW_USABLE0 1 [2]
theorem witness_fallowAt : let m := fallowState.now + 16 * 2000000
    writeOk fallowState .SM_FALLOW_AT [2] (addrOf .SM_FALLOW_AT 2 0) m = true ∧ launchBar fallowState m = stOk ∧ fallowState.boundaryOk m = true ∧ 5 < fallowState.rowsPerDie ∧
    rowActive fallowState 2 5 = false ∧ (fallowEntry fallowState 2).2 = (true, false) ∧ fallowState.fld F.SM_FALLOW_REQ_PENDING [2] = 0 := by decide +kernel
theorem witness_fallowIn : let s := fallowState.armGate (.fallow 2) fallowState.now
    s.gateAt (.fallow 2) = some fallowState.now ∧ s.gateOpen 2 s.now = true ∧ rowActive s 2 5 = false ∧ s.dieFenced 2 = false := by decide +kernel
theorem witness_smAdmit : writeOk upState .SM_ADMIT [] (addrOf .SM_ADMIT 0 0) (7 * 2 ^ 16) = true ∧ upState.timeValid = true ∧
    (match upState.place (addrOf .SM_ADMIT 0 0) with
     | .reg y q => (plainWrite y q (7 * 2 ^ 16) upState).isOk
     | _ => false) = true := by decide +kernel
theorem witness_sample : ({ upState with recorder := { upState.recorder with sample := some ⟨2, 0xFF, 0xFF, 0, 0, false⟩ } } : State).recorder.sample = some ⟨2, 0xFF, 0xFF, 0, 0, false⟩ := by
  decide +kernel

/-! ## The manager's requests and transfers (chapter 14) -/

theorem witness_read : writeOk upState .SM_RESET [] (addrOf .SM_RESET 0 0) 0 = true ∧ upState.reach (addrOf .GK_REGIONS 5 0) = stOk ∧ (upState.readReg (addrOf .GK_REGIONS 5 0)).1 = stOk ∧
    writeRowOf .SM_FALLOW_REQ 5 = .plain ∧ writeOk upState .SM_FALLOW_REQ [2] (addrOf .SM_FALLOW_REQ 2 0) 5 = true := by decide +kernel
theorem witness_readPacket : let s := askState upState (reqPacket 1 (addrOf .GK_REGIONS 5 0) 0 0)
    (mgrPkt s 7 0x20).isSome = true ∧ (reqOf (reqPacket 1 (addrOf .GK_REGIONS 5 0) 0 0)).op = 1 ∧ (reqOf (reqPacket 9 0 0 0)).op = 9 ∧ (freePkt 7 8 s).session 1 = some theSession ∧
    (freePkt 7 8 s).session 2 = none ∧ s.session 1 = some theSession := by decide +kernel
theorem witness_unused : (match upState.place 0x7FFFF8 with
    | .unused => true
    | _ => false) = true ∧ upState.reach 0x7FFFF8 = stOk := by decide +kernel
theorem witness_accessRefused : (match upState.place (addrOf .GK_REGIONS 5 0) with
    | .reg y q => decide (writeRowOf y.reg 0 = .plain) && !upState.accessOk y q 0
    | _ => false) = true := by decide +kernel
theorem witness_snapArm : (match upState.place (addrOf .GK_REGIONS 5 0) with
    | .reg y _ => decide (snapGroup y.reg = 1)
    | _ => false) = true ∧ launchBar upState (upState.now + 16 * 2000000) = stOk ∧ upState.fld F.DV_SNAP_STATE [2] = 0 := by decide +kernel
theorem witness_snapLatch : let s := upState.armGate (.snap 2) upState.now
    s.gateAt (.snap 2) = some s.now ∧ s.launchDue (.snap 2) = true ∧ s.gates.any (goesFirst s s.now) = false := by decide +kernel
theorem witness_actions : let m := upState.now + 16 * 2000000
    writeOk upState .PH_CTRL [2] (addrOf .PH_CTRL 2 0) 3 = true ∧ writeOk upState .TL_CTRL [5, 1333] (addrOf .TL_CTRL 5 1333) 1 = true ∧
    writeOk upState .RB_SEAL [] (addrOf .RB_SEAL 0 0) 2 = true ∧ writeOk upState .RB_SEAL [] (addrOf .RB_SEAL 0 0) 5 = true ∧
    writeOk upState .RB_SWAP_AT [] (addrOf .RB_SWAP_AT 0 0) m = true ∧ writeOk upState .RB_RESUME_AT [] (addrOf .RB_RESUME_AT 0 0) m = true ∧
    writeOk upState .SG_SWITCH_AT [] (addrOf .SG_SWITCH_AT 0 0) m = true ∧ writeOk upState .NI_AGE_AT [] (addrOf .NI_AGE_AT 0 0) m = true := by decide +kernel
theorem witness_actions2 : let s : State := { upState with recorder := { upState.recorder with dumps := [⟨3, [], false⟩] } }
    writeOk upState .TK_CTRL [] (addrOf .TK_CTRL 0 0) 1 = true ∧ writeOk s .DM_ACK [] (addrOf .DM_ACK 0 0) (3 + 3 * 2 ^ 32) = true ∧
    writeOk upState .SG_SEAL [] (addrOf .SG_SEAL 0 0) 1 = true ∧ writeOk upState .SG_SEAL [] (addrOf .SG_SEAL 0 0) 2 = true := by decide +kernel
theorem witness_open : let s := askState upState (reqPacket 5 (4 + 256) 0 96)
    let r := reqOf (reqPacket 5 (4 + 256) 0 96)
    r.op = 5 ∧ r.addr % 256 = 4 ∧ r.value = 96 ∧ (abandonXfer 1 (freePkt 7 8 s)).session 1 = some theSession ∧ (reqOf (reqPacket 6 9 0 (8 * 2 ^ 32))).op = 6 := by decide +kernel
theorem witness_piece : let x : Xfer := { seq := 300, target := 4, arg := 0, len := 96, req := reqPacket 5 4 0 96, at_ := 0 }
    let p := dataPacket 4 (List.replicate 32 3)
    dataFits x p = true ∧ (earlyBytes x 0 (p.data.take 32) upState).isSome = true ∧ piecesCover (addPiece x p 0).got 96 = false := by decide +kernel
theorem witness_filledBarrier : let l : List Byte := [2, 0, 0, 7] ++ List.replicate 4 0 ++ [0, 0, 0, 2] ++ List.replicate 20 0
    let x : Xfer := { seq := 300, target := 13, arg := 0, len := 32, req := reqPacket 5 13 0 32, at_ := 0 }
    (barrierOf l 0).isSome = true ∧ dataFits x (dataPacket 13 l) = true ∧ objectOf (addPiece x (dataPacket 13 l) 0) = l ∧ barrierOpen upState = false := by decide +kernel
theorem witness_attestIn : let l : List Byte := [2, 0] ++ List.replicate 34 0
    l.length = 36 ∧ allZero ((l.drop 2).take 2) = true ∧ (l.getD 1 0).toNat < 16 ∧ (signReport 2 0 (l.drop 4) attestState).isSome = true := by decide +kernel
theorem witness_gap : let s := { fillState upState 4 0 (List.replicate 96 0) with time := { upState.time with count := 16000 * 10000 } }
    (s.session 1).bind (·.xfer) ≠ none ∧ ((s.session 1).bind (·.xfer)).map (·.at_) = some 0 ∧ 0 + 16000 * 10000 ≤ s.now := by decide +kernel
theorem witness_macFails : (dataPacket 4 []).h.typ = 0x8F ∧ dataSession upState (dataPacket 4 []) = none := by decide +kernel
theorem witness_sealDone : let s := (upState.setFld F.SG_SEAL_BUSY 1).setVerState upState.otherVer 1
    s.fld F.SG_SEAL_BUSY = 1 ∧ s.verState s.otherVer = 1 := by decide +kernel

/-! ## Two procedures -/

/-- R57 by hand: stamps 100, 130, 150, 175 and no asymmetry give num = 25 − 30 = −5, so −2 (halved, ties to even), and sum 55, so 28. -/
theorem test_offset : offsetOf 100 130 150 175 0 = -2 ∧ delayOf 100 130 150 175 = 28 := by decide +kernel
/-- R205 by hand: 2049 lies halfway between the FP16 values 2048 and 2050 and rounds to the even significand; 464 is E4M3's 448 + 16, halfway to 480, and
rounds to 448, while 465 overflows to NaN. -/
theorem test_rn : (rn .even false fp16 false 2049 0).1 = 0x6800 ∧ (rn .even false e4m3 false 464 0).1 = 0x7E ∧ (rn .even false e4m3 false 465 0).1 = 0x7F := by decide +kernel
theorem witness_offset : (List.range 16).length = 16 ∧ fp16 ∈ [fp64, fp32, fp16, bf16, e4m3, e5m2, e2m3, e3m2, e2m1] := by decide +kernel

end Sys2Proof.Machine
end

section
/-! SUPPORT. What a request of a manager session does once its packet waits for the management logic, said once for every command of chapter 14:
how it ends by its SEQ and its MAC (R432, R433), what a WRITE of a register answers, and the parts of the oscillator's tick. -/

namespace Sys2Proof.Machine

/-! ## The oscillator's tick -/

section
variable {κ α : Type} [DecidableEq κ] [Ord κ] [DecidableEq α]

/-- Updating the entries of distinct keys one after another updates each of them once, from its own old value, and no other. -/
theorem tabGet_foldl_update (d : α) (f : α → α) {l : List κ} (hl : l.Nodup) (t : List (κ × α)) (k : κ) :
    tabGet d (l.foldl (fun t k => tabSet d t k (f (tabGet d t k))) t) k = if k ∈ l then f (tabGet d t k) else tabGet d t k := by
  induction l generalizing t with
  | nil => simp
  | cons a l ih =>
    obtain ⟨ha, hl⟩ := List.nodup_cons.mp hl
    rw [List.foldl_cons, ih hl]
    by_cases hk : k = a
    · subst hk
      simp [ha]
    · simp [tabGet_set_other _ _ _ _ hk, hk]

end

/-- Counters A and B of the eight replicas, without counter A of the lead. -/
theorem mem_peerKeys {lead d c : Nat} (hd : d < 8) (hc : c < 2) : [d, c] ∈ peerKeys lead ↔ ¬(d = lead ∧ c = 0) := by
  have hall : [d, c] ∈ dies.flatMap (fun d => [[d, 0], [d, 1]]) := by
    simp only [List.mem_flatMap, List.mem_cons, List.cons.injEq, List.not_mem_nil, or_false, and_true]
    exact ⟨d, by omega, by omega⟩
  rw [peerKeys, List.mem_filter, and_iff_right hall]
  simp only [ne_eq, decide_eq_true_eq, List.cons.injEq, and_true]

theorem nodup_peerKeys (lead : Nat) : (peerKeys lead).Nodup := List.Nodup.filter _ (by decide)

theorem step_of_pending_cons {s : State} {c : Instr} {rest : List Instr} (h : s.pending = c :: rest) :
    step s = exec c { s with pending := rest } := by
  simp [step, h]

theorem step_of_pending_nil {s : State} (h : s.pending = []) : step s = .next (settle (timeTick s)) := by
  simp [step, h]

theorem timeTick_of_no_vaux {s : State} (h : s.boot.vaux = false) : timeTick s = s := by
  simp [timeTick, h]

/-- The other fifteen counters after a tick in which counter A of the lead advances by `n`. -/
def tickedPeers (s : State) (n : Nat) : Tab PeerCounter :=
  (peerKeys s.leadDie).foldl (fun t k => tabSet {} t k ((tabGet {} t k).advance s.time.ratePpt n)) s.time.peers

theorem timeTick_of_vaux {s : State} (h : s.boot.vaux = true) :
    timeTick s =
      { s with time := { s.time with
          count := (s.time.count + (counterTick s.time.ratePpt s.time.acc).1) % 2 ^ 64
          acc := (counterTick s.time.ratePpt s.time.acc).2
          peers := tickedPeers s (counterTick s.time.ratePpt s.time.acc).1 } } := by
  rw [timeTick, if_pos h]
  rfl

theorem tabGet_tickedPeers (s : State) (n : Nat) {d c : Nat} (hd : d < 8) (hc : c < 2) (hlead : ¬(d = s.leadDie ∧ c = 0)) :
    tabGet {} (tickedPeers s n) [d, c] = (s.peer d c).advance s.time.ratePpt n := by
  rw [tickedPeers, tabGet_foldl_update _ (PeerCounter.advance s.time.ratePpt n) (nodup_peerKeys _),
    if_pos ((mem_peerKeys hd hc).mpr hlead)]
  rfl

/-- Settles O1: `step` is a match on the queue, and a tick advances every counter once, from its own accumulator. -/
theorem stepRunsTheFrontCommand : Obligations.StepRunsTheFrontCommand := by
  refine ⟨fun s c rest h => step_of_pending_cons h, fun s hq hv => ⟨tickedPeers s (counterTick s.time.ratePpt s.time.acc).1, ?_, ?_⟩,
    fun s hq hv => ?_⟩
  · rw [step_of_pending_nil hq, timeTick_of_vaux hv]
    rfl
  · intro d c hd hc hlead
    rw [tabGet_tickedPeers s _ hd hc hlead]
    rfl
  · rw [step_of_pending_nil hq, timeTick_of_no_vaux hv]

/-! ## Requests of manager sessions (R432, R433) -/

/-- What an action's answer comes to: a status and a VALUE are told, and where there is none yet nothing leaves. -/
def replied (k : Pkt) : Option (Nat × Nat) × State → State
  | (some (st, v), t) => told k st v t
  | (none, t) => t

@[simp] theorem replied_some (k : Pkt) (st v : Nat) (t : State) : replied k (some (st, v), t) = told k st v t := rfl
@[simp] theorem replied_none (k : Pkt) (t : State) : replied k (none, t) = t := rfl
@[simp] theorem replied_refusal (k : Pkt) (e : Nat) (t : State) : replied k (refusal e t) = told k e (noValue t) t.tick := rfl

section
variable {s u : State} {pid : Nat} {k : Pkt} {x : Session} {mine : MgrReq → Bool} {act : ReqAct}

theorem runReq_seq_lower (h : (reqOf k.p).seq < x.high) :
    runReq k.die k x act u = mgrSend k.die (mgrResp u k.p x.txKey stSeq (noValue u)) (u.tick.bump F.DV_MGR_STAT_SEQ_REJECTS) := by
  simp [runReq, h]

theorem runReq_seq_equal (h : (reqOf k.p).seq = x.high) :
    runReq k.die k x act u = x.kept.elim u (fun q => mgrSend k.die q u) := by
  rw [runReq, if_neg h.not_lt, if_pos h]
  cases x.kept <;> rfl

/-- A request with a new highest SEQ runs, unless a reserved byte of it is set. -/
theorem runReq_seq_higher (h : x.high < (reqOf k.p).seq) :
    runReq k.die k x act u =
      (let v := u.setSession (reqOf k.p).key (some { x with high := (reqOf k.p).seq, kept := none })
       replied k (if reqMalformed k.p then refusal stFormat v else act (reqOf k.p) k.p v)) := by
  rw [runReq, if_neg (by omega), if_neg (by omega)]
  dsimp only
  generalize (if reqMalformed k.p then _ else _ : Option (Nat × Nat) × State) = ans
  obtain ⟨_ | ⟨st, v⟩, t⟩ := ans <;> rfl

section
variable (hk : mgrPkt s pid 0x20 = some k) (hc : checkOk k.p = true) (hm : mine (reqOf k.p) = true)
include hk hc hm

theorem mgrRequest_no_session (hx : (freePkt pid 8 s).session (reqOf k.p).key = none) :
    mgrRequest pid mine act s = (freePkt pid 8 s).bump F.DV_MGR_STAT_MAC_FAILS := by
  simp [mgrRequest, hk, hc, hm, hx]

theorem mgrRequest_of_session (hx : (freePkt pid 8 s).session (reqOf k.p).key = some x) :
    mgrRequest pid mine act s =
      if shortMac x.rxKey 1 k.p.h (k.p.body.take 24) ≠ k.p.body.drop 24 then (freePkt pid 8 s).bump F.DV_MGR_STAT_MAC_FAILS
      else runReq k.die k x act (freePkt pid 8 s) := by
  simp [mgrRequest, hk, hc, hm, hx]

end

/-- A request that is `Asked` and is one of `mine` gets what its action answers. -/
theorem mgrRequest_of_asked (h : Asked s pid k u) (hm : mine (reqOf k.p) = true) :
    mgrRequest pid mine act s = replied k (act (reqOf k.p) k.p u) := by
  obtain ⟨hk, hc, hf, x, hx, hmac, hseq, rfl⟩ := h
  rw [mgrRequest_of_session hk hc hm hx, if_neg (not_not.mpr hmac), runReq_seq_higher hseq]
  simp [hf]

end

/-! ## READ, SNAP_READ and WRITE -/

section
variable {s u : State} {pid : Nat} {k : Pkt} {y : RegSpec} {q : List Nat} {r : MgrReq} {p : Packet}

theorem replied_readReq (h : r.op = 1) :
    replied k (readReq r p u) =
      (let a := u.readReg r.addr
       if a.1 = stOk then told k stOk a.2 u else told k a.1 (noValue u) u.tick) := by
  rw [readReq, if_pos h]
  dsimp only
  split
  · next ha => rw [replied_some, ha]
  · rw [replied_refusal]

theorem readReq_unlisted (h : r.op ≠ 1) : readReq r p u = refusal stFormat u := if_neg h

theorem replied_snapReadReq :
    replied k (snapReadReq r p u) =
      (let a := u.readSnap r.bank r.addr
       if a.1 = stOk then told k stOk a.2 u else told k a.1 (noValue u) u.tick) := by
  rw [snapReadReq]
  dsimp only
  split
  · next ha => rw [replied_some, ha]
  · rw [replied_refusal]

theorem isWrite_of_reg {w : WriteRow} (hop : r.op = 2) (hp : s.place r.addr = .reg y q) (hw : writeRowOf y.reg r.value = w) :
    isWrite s w r = true := by
  simp [isWrite, hop, hp, hw]

/-- Where no register lies, a write is the plain WRITE. -/
theorem isWrite_of_unused (hop : r.op = 2) (hp : s.place r.addr = .unused) : isWrite s .plain r = true := by
  simp [isWrite, hop, hp]

theorem replied_writeReq {act : WriteAct} (hp : u.place r.addr = .reg y q) (hr : u.reach r.addr = stOk)
    (ha : u.accessOk y q r.value = true) : replied k (writeReq act r p u) = answered k y q u (act y q r.value u) := by
  simp only [writeReq, hr, hp, ha]
  cases act y q r.value u <;> rfl

theorem writeReq_access {act : WriteAct} (hp : u.place r.addr = .reg y q) (hr : u.reach r.addr = stOk)
    (ha : u.accessOk y q r.value = false) : writeReq act r p u = refusal stAccess u := by
  simp [writeReq, hr, hp, ha]

theorem writeReq_unused {act : WriteAct} (hp : u.place r.addr = .unused) (hr : u.reach r.addr = stOk) :
    writeReq act r p u = if r.value = 0 then (some (stOk, 0), u) else refusal stAccess u := by
  simp [writeReq, hr, hp]

/-- A WRITE that is the command of row `w` is answered with what the row's action makes of it. -/
theorem writeCmd_of_askedWrite {w : WriteRow} {act : WriteAct} (h : AskedWrite s pid k u y q)
    (hw : writeRowOf y.reg (reqOf k.p).value = w) :
    writeCmd w act pid s = answered k y q u (act y q (reqOf k.p).value u) := by
  obtain ⟨hask, hop, hps, hpu, hr, ha⟩ := h
  rw [writeCmd, mgrRequest_of_asked hask (isWrite_of_reg hop hps hw), replied_writeReq hpu hr ha]

end

/-! ## Snapshots (R436, R437) and CLOSE -/

theorem replied_snapArmReq {u : State} {k : Pkt} {y : RegSpec} {q : List Nat} {r : MgrReq} {p : Packet}
    (hp : u.place r.addr = .reg y q) (hr : u.reach r.addr = stOk) :
    replied k (snapArmReq r p u) =
      (if snapGroup y.reg = 0 ∨ 3 < r.bank then told k stRange (noValue u) u.tick
       else if u.fld F.DV_SNAP_STATE [r.bank] = 1 then told k stState (noValue u) u.tick
       else if launchBar u r.value ≠ stOk then told k (launchBar u r.value) (noValue u) u.tick
       else told k stOk r.value (armSnap r.bank r.value (snapGroup y.reg) (r.addr / 2 ^ 34 % 8) (r.addr / 2 ^ 23 % 2048) u)) := by
  simp only [snapArmReq, hr, hp, ne_eq, not_true_eq_false, if_false, apply_ite (replied k), replied_refusal, replied_some]

/-- A bank whose count has come, and that no other release at that count goes before, is latched. -/
theorem snapLatch_of_due {s : State} {b m : Nat} (hm : s.gateAt (.snap b) = some m) (hd : s.launchDue (.snap b) = true)
    (hg : ∀ g ∈ s.gates, goesFirst s m g = false) :
    snapLatch b s =
      (((s.dropGate (.snap b)).setBank b (latchGroup s (s.fld F.DV_SNAP_GROUP [b]) (s.fld F.DV_SNAP_DIE [b]) (s.fld F.DV_SNAP_TILE [b]))).setFld
        F.DV_SNAP_STATE 2 [b]).setFld F.DV_SNAP_AT_COUNT s.now [b] := by
  have hany : s.gates.any (goesFirst s m) = false := by simpa using hg
  simp [snapLatch, hm, hd, hany]

/-- CLOSE: the response leaves, then the session ends. -/
theorem closeSession_of_asked {s u : State} {pid : Nat} {k : Pkt} {x : Session} (h : Asked s pid k u)
    (hx : s.session (reqOf k.p).key = some x) (hop : (reqOf k.p).op = 7) (hseq : x.high < (reqOf k.p).seq)
    (hmac : shortMac x.rxKey 1 k.p.h (k.p.body.take 24) = k.p.body.drop 24) :
    closeSession pid s = endSession (reqOf k.p).key (told k stOk 0 u) := by
  have hreq : mgrRequest pid (fun r => r.op = 7) (fun _ _ s => (some (stOk, 0), s)) s = told k stOk 0 u :=
    mgrRequest_of_asked h (by simp [hop])
  obtain ⟨hk, hc, hf, -⟩ := h
  simp [closeSession, hk, hx, hop, hc, hf, hseq, hmac, hreq]

/-! ## The commands -/

section
variable (pid : Nat) (s : State)

theorem exec_read : exec (.read pid) s = .next (finish s (mgrRequest pid isRead readReq s)) :=
  run_wellFormed (i := .read pid) s _ rfl
theorem exec_write : exec (.write pid) s = .next (finish s (writeCmd .plain plainWrite pid s)) :=
  run_wellFormed (i := .write pid) s _ rfl
theorem exec_snapArm : exec (.snapArm pid) s = .next (finish s (mgrRequest pid (fun r => r.op = 3) snapArmReq s)) :=
  run_wellFormed (i := .snapArm pid) s _ rfl
theorem exec_snapRead : exec (.snapRead pid) s = .next (finish s (mgrRequest pid (fun r => r.op = 4) snapReadReq s)) :=
  run_wellFormed (i := .snapRead pid) s _ rfl
theorem exec_close : exec (.close pid) s = .next (finish s (closeSession pid s)) :=
  run_wellFormed (i := .close pid) s _ rfl
theorem exec_snapLatch {b : Nat} (hb : b < 4) : exec (.snapLatch b) s = .next (finish s (snapLatch b s)) :=
  run_wellFormed (i := .snapLatch b) s _ (decide_eq_true hb)

end

theorem isRead_of_read {r : MgrReq} (h : r.op = 1) : isRead r = true := by simp [isRead, h]

theorem isRead_of_unlisted {r : MgrReq} (h : r.op = 0 ∨ 7 < r.op) : isRead r = true := by
  rcases h with h | h <;> simp [isRead, h]

/-- Settles O56: each command is its request's rule (R433) and its action's answer. -/
theorem managerRequestsComplete : Obligations.ManagerRequestsComplete := by
  refine ⟨?read, ?unlisted, ?write, ?unused, ?access, ?snapArm, ?snapRead, ?snapLatch, ?close, ?noSession, ?bySeq⟩
  case read =>
    intro s u pid k h hop
    rw [exec_read, mgrRequest_of_asked h (isRead_of_read hop), replied_readReq hop]
  case unlisted =>
    intro s u pid k h hop
    rw [exec_read, mgrRequest_of_asked h (isRead_of_unlisted hop), readReq_unlisted (by omega), replied_refusal]
  case write =>
    intro s u pid k y q h hw
    rw [exec_write, writeCmd_of_askedWrite h hw]
  case unused =>
    intro s u pid k h hop hs hu hr
    rw [exec_write, writeCmd, mgrRequest_of_asked h (isWrite_of_unused hop hs), writeReq_unused hu hr,
      apply_ite (replied k), replied_some, replied_refusal]
  case access =>
    intro s u pid k y q h hop hs hu hw hr ha
    rw [exec_write, writeCmd, mgrRequest_of_asked h (isWrite_of_reg hop hs hw), writeReq_access hu hr ha, replied_refusal]
  case snapArm =>
    intro s u pid k y q h hop hu hr
    rw [exec_snapArm, mgrRequest_of_asked h (decide_eq_true hop), replied_snapArmReq hu hr]
    rfl
  case snapRead =>
    intro s u pid k h hop
    rw [exec_snapRead, mgrRequest_of_asked h (decide_eq_true hop), replied_snapReadReq]
  case snapLatch =>
    intro s b m hb hm hd hg
    rw [exec_snapLatch s hb, snapLatch_of_due hm hd hg]
  case close =>
    intro s u pid k x h hx hop hseq hmac
    rw [exec_close, closeSession_of_asked h hx hop hseq hmac]
  case noSession =>
    intro s pid k hk hc hop hx
    rw [exec_read, mgrRequest_no_session hk hc (isRead_of_read hop) hx]
  case bySeq =>
    intro s pid k x hk hc hop hx
    dsimp only
    rw [exec_read, mgrRequest_of_session hk hc (isRead_of_read hop) hx]
    congr 2
    split
    · rfl
    rcases lt_trichotomy (reqOf k.p).seq x.high with hlt | heq | hgt
    · rw [runReq_seq_lower hlt, if_pos hlt]
    · rw [runReq_seq_equal heq, if_neg heq.not_lt, if_pos heq]
      cases x.kept <;> rfl
    · rw [runReq_seq_higher hgt, if_neg hgt.not_gt, if_neg hgt.ne']
      dsimp only
      split
      · rw [replied_refusal]
      · rw [replied_readReq hop]

end Sys2Proof.Machine
end

section
/-! SUPPORT. The comparison of replicas (R46, R47), die by die: where the readings put the counters, and what the comparison shows when
nothing disagrees. Then the three monitors. -/

namespace Sys2Proof.Machine

/-! ## An update run for every element of a list -/

section
variable {α β : Type} {obs : State → β} {f g : α → State → State}

/-- What none of the updates changes, the whole run does not. -/
theorem State.forAll_keeps {l : List α} (h : ∀ a ∈ l, ∀ s, obs (f a s) = obs s) (s : State) : obs (s.forAll l f) = obs s := by
  induction l generalizing s with
  | nil => rfl
  | cons a l ih => exact (ih (fun b hb => h b (List.mem_cons_of_mem _ hb)) (f a s)).trans (h a List.mem_cons_self s)

/-- What only the update of `e` changes is changed once where `e` stands once. -/
theorem State.forAll_once {e : α} {next : β → β} (hsame : ∀ s, obs (f e s) = next (obs s))
    (hother : ∀ a s, a ≠ e → obs (f a s) = obs s) {l : List α} (hl : l.Nodup) (he : e ∈ l) (s : State) :
    obs (s.forAll l f) = next (obs s) := by
  induction l generalizing s with
  | nil => exact absurd he List.not_mem_nil
  | cons a l ih =>
    obtain ⟨ha, hl⟩ := List.nodup_cons.mp hl
    change obs ((f a s).forAll l f) = _
    rcases List.mem_cons.mp he with rfl | he
    · exact (State.forAll_keeps (fun b hb u => hother b u (ne_of_mem_of_not_mem hb ha)) _).trans (hsame s)
    · rw [ih hl he, hother a s (ne_of_mem_of_not_mem he ha).symm]

/-- Two updates agree on a list when they agree wherever `obs` reads as at the start, and keep it so. -/
theorem State.forAll_congr {l : List α} {s : State} (hkeep : ∀ a u, obs (f a u) = obs u)
    (h : ∀ a ∈ l, ∀ u, obs u = obs s → f a u = g a u) : s.forAll l f = s.forAll l g := by
  induction l generalizing s with
  | nil => rfl
  | cons a l ih =>
    change (f a s).forAll l f = (g a s).forAll l g
    rw [← h a List.mem_cons_self s rfl]
    exact ih fun b hb u hu => h b (List.mem_cons_of_mem _ hb) u (hu.trans (hkeep a s))

end

/-! ## Where a comparison finds the counters -/

/-- Counter A (`c` = 0) or B of the replica on die `d` stands `x` ahead of counter A of the lead. -/
def setOff (d c : Nat) (x : Int) (s : State) : State :=
  { s with time := { s.time with peers := tabSet {} s.time.peers [d, c] { s.peer d c with off := x } } }

/-- The reading of one die. -/
def readDie (l : List ReplicaReading) (d : Nat) (s : State) : State :=
  if d = s.leadDie then setOff d 1 (-(l.getD d ⟨0, 0⟩).ab) s
  else setOff d 1 ((l.getD d ⟨0, 0⟩).lead - (l.getD d ⟨0, 0⟩).ab) (setOff d 0 (l.getD d ⟨0, 0⟩).lead s)

/-- The lead, and the two differences of die `d`. -/
def diffsOf (d : Nat) (s : State) : Nat × Int × Int := (s.leadDie, s.leadDiff d, s.abDiff d)

/-- What its reading makes of a die's differences: counter A of the lead is what the others are compared with, so it stays. -/
def diffsRead (d : Nat) (r : ReplicaReading) (p : Nat × Int × Int) : Nat × Int × Int :=
  (p.1, if d = p.1 then p.2.1 else r.lead, if d = p.1 then p.2.1 + r.ab else r.ab)

section
variable (l : List ReplicaReading) (s : State) (d : Nat)

@[simp] theorem setOff_fld (c : Nat) (x : Int) (f : Fld) (k : List Nat) : (setOff d c x s).fld f k = s.fld f k := rfl

@[simp] theorem setOff_peer_same (c : Nat) (x : Int) : (setOff d c x s).peer d c = { s.peer d c with off := x } :=
  tabGet_set_same _ _ _ _

theorem setOff_peer_other {d' c c' : Nat} (x : Int) (h : d' ≠ d ∨ c' ≠ c) : (setOff d c x s).peer d' c' = s.peer d' c' :=
  tabGet_set_other _ _ _ _ (by simpa [imp_iff_not_or] using h)

theorem readDie_fld (f : Fld) (k : List Nat) : (readDie l d s).fld f k = s.fld f k := by
  unfold readDie; split <;> rfl

theorem readDie_peer_other {d' : Nat} (c : Nat) (h : d' ≠ d) : (readDie l d s).peer d' c = s.peer d' c := by
  unfold readDie; split <;> simp [setOff_peer_other, h]

theorem diffsOf_readDie_same : diffsOf d (readDie l d s) = diffsRead d (l.getD d ⟨0, 0⟩) (diffsOf d s) := by
  have hlead : (readDie l d s).leadDie = s.leadDie := readDie_fld l s d _ _
  simp only [diffsOf, diffsRead, State.leadDiff, State.abDiff, hlead]
  unfold readDie
  split <;> next h => simp [setOff_peer_other, h]

theorem diffsOf_readDie_other {d' : Nat} (h : d' ≠ d) : diffsOf d' (readDie l d s) = diffsOf d' s := by
  simp only [diffsOf, State.leadDie, State.leadDiff, State.abDiff, readDie_fld, readDie_peer_other l s d _ h]

theorem readCounters_eq : readCounters l s = s.forAll dies (readDie l) := rfl

@[simp] theorem readCounters_fld (f : Fld) (k : List Nat) : (readCounters l s).fld f k = s.fld f k := by
  rw [readCounters_eq]
  exact State.forAll_keeps (obs := fun s => s.fld f k) (fun d _ s => readDie_fld l s d f k) s

@[simp] theorem readCounters_leadDie : (readCounters l s).leadDie = s.leadDie := readCounters_fld l s _ _

variable {d}

theorem diffsOf_readCounters (hd : d ∈ dies) :
    diffsOf d (readCounters l s) = diffsRead d (l.getD d ⟨0, 0⟩) (diffsOf d s) := by
  rw [readCounters_eq]
  exact State.forAll_once (diffsOf_readDie_same l · d) (fun a s h => diffsOf_readDie_other l s a h.symm) (by decide) hd s

variable {s}

/-- Where counter A of the lead is compared with itself, a die's counters afterwards differ by what was read. -/
theorem diffs_readCounters (h0 : (s.peer s.leadDie 0).off = 0) (hd : d ∈ dies) :
    (readCounters l s).leadDiff d = (if d = s.leadDie then 0 else (l.getD d ⟨0, 0⟩).lead) ∧
      (readCounters l s).abDiff d = (l.getD d ⟨0, 0⟩).ab := by
  have h := diffsOf_readCounters l s hd
  simp only [diffsOf, diffsRead, Prod.mk.injEq] at h
  obtain ⟨-, hA, hB⟩ := h
  by_cases hl : d = s.leadDie
  · subst hl
    simpa [State.leadDiff, h0] using And.intro hA hB
  · simpa [hl] using And.intro hA hB

end

/-! ## A comparison in which nothing disagrees -/

/-- TK_REPLICA of die `d` shows two differences. -/
def showDiffs (ab lead : Nat) (d : Nat) (s : State) : State :=
  (s.setFld F.TK_REPLICA_AB_DIFF ab [d]).setFld F.TK_REPLICA_LEAD_DIFF lead [d]

/-- TK_REPLICA of die `d` shows the differences its counters have. -/
def showOwnDiffs (d : Nat) (s : State) : State := showDiffs (satSigned8 (s.abDiff d)) (satSigned8 (s.leadDiff d)) d s

/-- The replicas of `v` that have not failed and whose own counters, as `w` has them, differ by more than 2. -/
def abFailing (v w : State) : List Nat :=
  (dies.filter (fun d => v.fld F.TK_REPLICA_ROLE [d] ≠ 2)).filter (fun d => decide (2 < (w.abDiff d).natAbs))

/-- The followers of `v` that have not failed, are not in `own`, and whose counter A differs from the lead's by more than 4. -/
def leadFailing (own : List Nat) (v w : State) : List Nat :=
  (dies.filter (fun d => v.fld F.TK_REPLICA_ROLE [d] ≠ 2)).filter
    (fun d => d ≠ v.leadDie && !(own.contains d) && decide (4 < (w.leadDiff d).natAbs))

/-- The replicas `own` fail by themselves; those of `off` disagree with the lead, which fails in their stead where they are three or more. -/
def failReplicas (lead : Nat) (own off : List Nat) (s : State) : State :=
  let s := s.forAll own (fun d => failReplica d 0x04)
  let s := if decide (3 ≤ off.length) && !(own.contains lead) then failReplica lead 0x05 s
    else if 3 ≤ off.length then s else s.forAll off (fun d => failReplica d 0x05)
  if s.fld F.TK_REPLICA_ROLE [lead] = 2 then passLead s else s

/-- The steps of a comparison: read, show, then fail what is beyond the limits. -/
theorem replicaCompare_eq (l : List ReplicaReading) (s : State) :
    replicaCompare l s =
      (let v := readCounters l s
       let w := v.forAll dies showOwnDiffs
       failReplicas v.leadDie (abFailing v w) (leadFailing (abFailing v w) v w) w) := rfl

theorem failReplicas_none {lead : Nat} {s : State} (h : s.fld F.TK_REPLICA_ROLE [lead] ≠ 2) : failReplicas lead [] [] s = s :=
  if_neg h

theorem abFailing_eq_nil {w : State} (v : State) (h : ∀ d ∈ dies, (w.abDiff d).natAbs ≤ 2) : abFailing v w = [] :=
  List.filter_eq_nil_iff.mpr fun d hd => by simpa using h d (List.mem_of_mem_filter hd)

theorem leadFailing_eq_nil {w : State} (own : List Nat) (v : State) (h : ∀ d ∈ dies, (w.leadDiff d).natAbs ≤ 4) :
    leadFailing own v w = [] :=
  List.filter_eq_nil_iff.mpr fun d hd => by simp [h d (List.mem_of_mem_filter hd)]

section
variable (s : State)

theorem showDiffs_role (ab lead d : Nat) (k : List Nat) :
    (showDiffs ab lead d s).fld F.TK_REPLICA_ROLE k = s.fld F.TK_REPLICA_ROLE k := by
  rw [showDiffs, State.fld_setFld_ne _ _ (.inr (.inl (by decide))), State.fld_setFld_ne _ _ (.inr (.inl (by decide)))]

theorem forAll_showOwnDiffs_role (ds k : List Nat) :
    (s.forAll ds showOwnDiffs).fld F.TK_REPLICA_ROLE k = s.fld F.TK_REPLICA_ROLE k :=
  State.forAll_keeps (obs := fun s => s.fld F.TK_REPLICA_ROLE k) (fun d _ s => showDiffs_role s _ _ d k) s

theorem forAll_showOwnDiffs_time (ds : List Nat) : (s.forAll ds showOwnDiffs).time = s.time :=
  State.forAll_keeps (obs := State.time) (f := showOwnDiffs) (fun _ _ _ => rfl) s

theorem abDiff_of_time_eq {s u : State} (h : u.time = s.time) (d : Nat) : u.abDiff d = s.abDiff d := by
  simp only [State.abDiff, State.peer, h]

theorem leadDiff_of_time_eq {s u : State} (h : u.time = s.time) (d : Nat) : u.leadDiff d = s.leadDiff d := by
  simp only [State.leadDiff, State.peer, h]

end

section
variable {l : List ReplicaReading} {s : State}

/-- With every difference within the limits of R47 no replica fails, so the lead stays and the comparison only shows what it read. -/
theorem replicaCompare_of_agreement (hab : ∀ d ∈ dies, ((readCounters l s).abDiff d).natAbs ≤ 2)
    (hlead : ∀ d ∈ dies, ((readCounters l s).leadDiff d).natAbs ≤ 4)
    (hrole : s.fld F.TK_REPLICA_ROLE [s.leadDie] ≠ 2) :
    replicaCompare l s = (readCounters l s).forAll dies showOwnDiffs := by
  have htime := forAll_showOwnDiffs_time (readCounters l s) dies
  simp only [← abDiff_of_time_eq htime] at hab
  simp only [← leadDiff_of_time_eq htime] at hlead
  rw [replicaCompare_eq]
  dsimp only
  rw [abFailing_eq_nil _ hab, leadFailing_eq_nil _ _ hlead, failReplicas_none]
  rwa [forAll_showOwnDiffs_role, readCounters_leadDie, readCounters_fld]

/-- What the comparison shows is what it read. -/
theorem forAll_showOwnDiffs_readCounters (h0 : (s.peer s.leadDie 0).off = 0) :
    (readCounters l s).forAll dies showOwnDiffs =
      (readCounters l s).forAll dies (fun d => showDiffs (satSigned8 (l.getD d ⟨0, 0⟩).ab)
        (if d = s.leadDie then 0 else satSigned8 (l.getD d ⟨0, 0⟩).lead) d) := by
  refine State.forAll_congr (obs := State.time) (fun _ _ => rfl) fun d hd u hu => ?_
  obtain ⟨hA, hB⟩ := diffs_readCounters l h0 hd
  rw [showOwnDiffs, abDiff_of_time_eq hu, leadDiff_of_time_eq hu, hA, hB, apply_ite satSigned8]
  rfl

/-- Readings within the limits of R47 leave counters within them. -/
theorem diffs_within_of_readings (hlen : l.length = 8) (h : ∀ r ∈ l, r.ab.natAbs ≤ 2 ∧ r.lead.natAbs ≤ 4)
    (h0 : (s.peer s.leadDie 0).off = 0) {d : Nat} (hd : d ∈ dies) :
    ((readCounters l s).abDiff d).natAbs ≤ 2 ∧ ((readCounters l s).leadDiff d).natAbs ≤ 4 := by
  have hlt : d < l.length := hlen ▸ List.mem_range.mp (show d ∈ List.range 8 from hd)
  obtain ⟨hA, hB⟩ := diffs_readCounters l h0 hd
  obtain ⟨hab, hlead⟩ := h _ (List.getElem_mem hlt)
  rw [hA, hB, List.getD_eq_getElem _ _ hlt]
  refine ⟨hab, ?_⟩
  split
  · exact Nat.zero_le 4
  · exact hlead

end

/-! ## The clock monitor -/

/-- R48: beyond the threshold the disagreement is logged, which leaves the state of time as it was, and valid time becomes INVALID. -/
theorem clockMonitorFire_of_beyond {s : State} {ppb : Nat}
    (h : (if s.fld F.TK_HOLD_OSC_IN_FITTED = 1 then 30000 else 1000000) < ppb) :
    clockMonitorFire ppb s =
      if s.time.mode = .locked ∨ s.time.mode = .holdover then setMode .invalid (timeEvent 0x07 s) else timeEvent 0x07 s := by
  have hmode : (timeEvent 0x07 s).time = s.time := State.log_time ..
  rw [clockMonitorFire, if_pos h]
  simp [hmode, TimeMode.isValid]

/-! ## The three commands -/

section
variable (s : State)

theorem exec_paceUpdate {l : List Nat} (hlen : l.length = 64) (hl : ∀ r ∈ l, r < 65536) :
    exec (.paceUpdate l) s = .next (finish s (paceUpdate l s)) :=
  run_wellFormed (i := .paceUpdate l) s _ (decide_eq_true ⟨hlen, hl⟩)
theorem exec_replicaCompare {l : List ReplicaReading} (hlen : l.length = 8) :
    exec (.replicaCompare l) s = .next (finish s (replicaCompare l s)) :=
  run_wellFormed (i := .replicaCompare l) s _ (decide_eq_true hlen)
theorem exec_clockMonitorFire (ppb : Nat) : exec (.clockMonitorFire ppb) s = .next (finish s (clockMonitorFire ppb s)) :=
  run_wellFormed (i := .clockMonitorFire ppb) s _ rfl

end

/-- Settles O6: the pace monitor by its definition, the replicas because nothing that disagrees is found, the clock by its threshold. -/
theorem monitorsComplete : Obligations.MonitorsComplete := by
  refine ⟨?pace, ?replicas, ?clock⟩
  case pace =>
    intro s l hlen hl
    rw [exec_paceUpdate s hlen hl]
    rfl
  case replicas =>
    intro s l hlen hl hrole h0
    have hin := fun d (hd : d ∈ dies) => diffs_within_of_readings hlen hl h0 hd
    rw [exec_replicaCompare s hlen, replicaCompare_of_agreement (fun d hd => (hin d hd).1) (fun d hd => (hin d hd).2) hrole,
      forAll_showOwnDiffs_readCounters h0]
    rfl
  case clock =>
    intro s ppb h
    rw [exec_clockMonitorFire, clockMonitorFire_of_beyond h]

end Sys2Proof.Machine
end

section
/-! SUPPORT. Hall time: what entering a state of time leaves as it was, the exchange of stamps on a link, missing samples, holdover and the
step of the counter. -/

namespace Sys2Proof.Machine

/-! ## What a change of the state of time leaves (R49) -/

section
variable (s : State)

/-- Logging an event writes only registers of the Recorder. -/
theorem State.log_fld (cls code source : Nat) (detail : List Byte) (field flags : Nat) {f : Fld} (k : List Nat)
    (h : f.reg ∉ [Reg.EV_STATUS, .EV_LOST, .EV_LOST_FIRST, .EV_LOST_LAST]) :
    (s.log cls code source detail field flags).fld f k = s.fld f k := by
  have hkeep (u : State) (g : Fld) (hg : g.reg ∈ [Reg.EV_STATUS, .EV_LOST, .EV_LOST_FIRST, .EV_LOST_LAST]) (v : Nat) (l : List Nat) :
      (u.setFld g v l).fld f k = u.fld f k :=
    State.fld_setFld_ne u v (.inl fun e => h (e ▸ hg))
  simp only [State.log]
  split
  · exact hkeep _ F.EV_STATUS_FIFO_DEPTH (by decide) _ _
  · change ((State.bump _ F.EV_LOST_COUNT [cls]).setFld F.EV_LOST_LAST_COUNT _ [cls]).fld f k = _
    rw [hkeep _ _ (by decide), State.bump, hkeep _ _ (by decide)]
    split
    · exact hkeep _ F.EV_LOST_FIRST_COUNT (by decide) _ _
    · rfl

@[simp] theorem timeEvent_time (code : Nat) : (timeEvent code s).time = s.time := State.log_time ..

theorem timeEvent_boundPs (code : Nat) : (timeEvent code s).fld F.TK_STATUS_BOUND_PS = s.fld F.TK_STATUS_BOUND_PS :=
  State.log_fld s _ _ _ _ _ _ _ (by decide)

/-- RB_SUSPEND_AT of die `d` shows its earliest pending suspension. -/
def showSuspend (d : Nat) (s : State) : State :=
  match tabGet [] s.road.suspends [d] with
  | [] => s
  | e :: _ => s.setFld F.RB_SUSPEND_AT_COUNT (suspendBoundary s e.2) [d]

theorem showSuspends_eq : showSuspends s = s.forAll dies showSuspend := rfl

@[simp] theorem showSuspends_time : (showSuspends s).time = s.time := by
  rw [showSuspends_eq]
  refine State.forAll_keeps (obs := State.time) (fun d _ u => ?_) s
  unfold showSuspend
  split <;> rfl

theorem showSuspends_boundPs : (showSuspends s).fld F.TK_STATUS_BOUND_PS = s.fld F.TK_STATUS_BOUND_PS := by
  rw [showSuspends_eq]
  refine State.forAll_keeps (obs := fun u => u.fld F.TK_STATUS_BOUND_PS) (fun d _ u => ?_) s
  unfold showSuspend
  split
  · rfl
  · exact State.fld_setFld_ne u _ (.inl (by decide))

@[simp] theorem raiseAlarm_time (d cause : Nat) : (raiseAlarm d cause s).time = s.time := by
  unfold raiseAlarm
  split
  · rfl
  · simp

theorem raiseAlarm_boundPs (d cause : Nat) : (raiseAlarm d cause s).fld F.TK_STATUS_BOUND_PS = s.fld F.TK_STATUS_BOUND_PS := by
  unfold raiseAlarm
  split
  · rfl
  · exact (showSuspends_boundPs _).trans (State.fld_setFld_ne _ _ (.inl (by decide)))

@[simp] theorem timeStop_time : (timeStop s).time = s.time :=
  State.forAll_keeps (obs := State.time) (fun d _ u => by dsimp only; split <;> simp) s

theorem timeStop_boundPs : (timeStop s).fld F.TK_STATUS_BOUND_PS = s.fld F.TK_STATUS_BOUND_PS :=
  State.forAll_keeps (obs := fun u => u.fld F.TK_STATUS_BOUND_PS) (fun d _ u => by
    dsimp only
    split
    · rfl
    · rw [raiseAlarm_boundPs, State.log_fld _ _ _ _ _ _ _ _ (by decide)]
      exact State.fld_setFld_ne u _ (.inl (by decide))) s

@[simp] theorem rearmSwap_time : (rearmSwap s).time = s.time := by
  unfold rearmSwap
  split
  · split <;> rfl
  · rfl

@[simp] theorem rearmSwap_flds : (rearmSwap s).flds = s.flds := by
  unfold rearmSwap
  split
  · split <;> rfl
  · rfl

@[simp] theorem requalify_mode : (requalify s).time.mode = s.time.mode := by
  unfold requalify
  refine State.forAll_keeps (obs := fun u => u.time.mode) ?_ s
  exact fun _ _ _ => rfl

@[simp] theorem requalify_flds : (requalify s).flds = s.flds := by
  unfold requalify
  refine State.forAll_keeps (obs := State.flds) ?_ s
  exact fun _ _ _ => rfl

variable {s} in
theorem State.fld_of_flds_eq {u : State} (h : u.flds = s.flds) (f : Fld) (k : List Nat) : u.fld f k = s.fld f k := by
  rw [State.fld, State.fld, h]

/-- The state of time entered, with STATE and VALID, before its event and what follows it. -/
def showMode (m : TimeMode) (s : State) : State :=
  (({ s with time := { s.time with mode := m } } : State).setFld F.TK_STATUS_STATE m.code).setFld F.TK_STATUS_VALID (b2n m.isValid)

/-- What the change is logged as, and that qualification starts anew after INVALID (R63). -/
def logMode (m : TimeMode) (s : State) : State :=
  if m = .invalid then requalify (timeEvent 0x01 (showMode m s)) else timeEvent 0x01 (showMode m s)

theorem setMode_of_ne {m : TimeMode} (h : s.time.mode ≠ m) :
    setMode m s =
      if s.time.mode.isValid && !m.isValid then timeStop (logMode m s)
      else if !s.time.mode.isValid && m.isValid then rearmSwap (logMode m s) else logMode m s := by
  rw [setMode, if_neg h]
  rfl

theorem logMode_mode (m : TimeMode) : (logMode m s).time.mode = m := by
  unfold logMode
  split
  · rw [requalify_mode, timeEvent_time]
    rfl
  · rw [timeEvent_time]
    rfl

theorem logMode_boundPs (m : TimeMode) : (logMode m s).fld F.TK_STATUS_BOUND_PS = s.fld F.TK_STATUS_BOUND_PS := by
  have h : (timeEvent 0x01 (showMode m s)).fld F.TK_STATUS_BOUND_PS = s.fld F.TK_STATUS_BOUND_PS := by
    rw [timeEvent_boundPs, showMode, State.fld_setFld_ne _ _ (.inr (.inl (by decide))),
      State.fld_setFld_ne _ _ (.inr (.inl (by decide)))]
    rfl
  unfold logMode
  split
  · exact (State.fld_of_flds_eq (requalify_flds _) _ _).trans h
  · exact h

/-- The state entered is the state that holds. -/
@[simp] theorem setMode_mode (m : TimeMode) : (setMode m s).time.mode = m := by
  by_cases h : s.time.mode = m
  · rw [setMode, if_pos h, h]
  · rw [setMode_of_ne s h]
    split
    · rw [timeStop_time, logMode_mode]
    · split
      · rw [rearmSwap_time, logMode_mode]
      · exact logMode_mode s m

/-- BOUND_PS does not change with the state. -/
@[simp] theorem setMode_boundPs (m : TimeMode) : (setMode m s).fld F.TK_STATUS_BOUND_PS = s.fld F.TK_STATUS_BOUND_PS := by
  by_cases h : s.time.mode = m
  · rw [setMode, if_pos h]
  · rw [setMode_of_ne s h]
    split
    · rw [timeStop_boundPs, logMode_boundPs]
    · split
      · rw [State.fld_of_flds_eq (rearmSwap_flds _), logMode_boundPs]
      · exact logMode_boundPs s m

end

/-! ## The commands of this chapter as their effects -/

section
variable (s : State) (pid : Nat)

theorem exec_syncSend {h : Nat} (hh : h < 16) : exec (.syncSend h) s = .next (finish s (syncSend h s)) :=
  run_wellFormed (i := .syncSend h) s _ (decide_eq_true hh)
theorem exec_syncReceive : exec (.syncReceive pid) s = .next (finish s (syncReceive pid s)) :=
  run_wellFormed (i := .syncReceive pid) s _ rfl
theorem exec_replyReceive : exec (.replyReceive pid) s = .next (finish s (replyReceive pid s)) :=
  run_wellFormed (i := .replyReceive pid) s _ rfl
theorem exec_sampleMissing {n : Nat} (hn : n < 4) : exec (.sampleMissing n) s = .next (finish s (sampleMissing n s)) :=
  run_wellFormed (i := .sampleMissing n) s _ (decide_eq_true hn)
theorem exec_counterStep : exec .counterStep s = .next (finish s (counterStep s)) :=
  run_wellFormed (i := .counterStep) s _ rfl
theorem exec_holdoverUpdate : exec .holdoverUpdate s = .next (finish s (holdoverUpdate s)) :=
  run_wellFormed (i := .holdoverUpdate) s _ rfl

end

/-! ## Missing samples and lost sources (R51) -/

section
variable {s : State} {n : Nat}

theorem sampleMissing_of_link {t : Nat} (hkind : s.srcKind n = 1) (ht : missingSync s n = some t) :
    sampleMissing n s =
      (let u := badSample n (s.setSrc n { s.srcRec n with missFrom := t + 1 })
       u.setExch (s.srcHalf n) { u.exch (s.srcHalf n) with unanswered := (u.exch (s.srcHalf n)).unanswered.filter (syncOpen u (s.srcHalf n)) }) := by
  simp [sampleMissing, hkind, ht]

theorem sampleMissing_of_ptp (hkind : s.srcKind n = 2) (hlimit : (s.srcRec n).lastAt + 2 * nsUnits (s.sampleInterval n) ≤ s.now) :
    sampleMissing n s = badSample n (s.setSrc n { s.srcRec n with lastAt := s.now }) := by
  simp [sampleMissing, hkind, hlimit]

theorem sampleMissing_of_pins (hkind : s.srcKind n = 3)
    (hlimit : max (s.srcRec n).lastAt (s.time.ppsInAt.getD 0) + nsUnits 1100000000 ≤ s.now) :
    sampleMissing n s = badSample n (s.setSrc n { s.srcRec n with lastAt := s.now }) := by
  simp only [sampleMissing, hkind]
  exact if_pos hlimit

theorem badSample_of_lt (h : (s.srcRec n).bad < 2) :
    badSample n s = s.setSrc n { s.srcRec n with good := 0, bad := (s.srcRec n).bad + 1 } :=
  if_neg (by omega)

theorem badSample_third (h : 2 ≤ (s.srcRec n).bad) : badSample n s = loseSource n s := if_pos h

theorem loseSource_unused (h : s.srcInUse ≠ some n) :
    loseSource n s = s.setSrc n { s.srcRec n with good := 0, bad := 0, qualified := false, delivering := false } := if_neg h

theorem loseSource_inUse (h : s.srcInUse = some n) :
    loseSource n s = sourceGone n (s.setSrc n { s.srcRec n with good := 0, bad := 0, qualified := false, delivering := false }) :=
  if_pos h

theorem srcRec_setSrc_other {m : Nat} (r : SourceRec) (h : m ≠ n) : (s.setSrc n r).srcRec m = s.srcRec m :=
  tabGet_set_other _ _ _ _ (by simpa using h)

theorem enterHoldover_mode (s : State) : (enterHoldover s).time.mode = .holdover := setMode_mode _ _

/-- The source in use is lost in LOCKED and no other candidate is qualified: the device holds over. -/
theorem sourceGone_mode_of_locked (hmode : s.time.mode = .locked) (hq : ∀ m, m < 4 → m ≠ n → (s.srcRec m).qualified = false) :
    (sourceGone n s).time.mode = .holdover := by
  have hnone : ((List.range 4).filter (fun m => m ≠ n && s.srcKind m ≠ 0)).find? (fun m => (s.srcRec m).qualified) = none := by
    simp only [List.find?_eq_none, List.mem_filter, List.mem_range, Bool.and_eq_true, decide_eq_true_eq]
    rintro m ⟨hm, hne, -⟩
    simp [hq m hm hne]
  simp only [sourceGone, hnone, hmode, if_true, enterHoldover_mode]

end

/-- Settles O5: each kind of source has its limit (R51), and the third bad sample in a row loses the source. -/
theorem missingSamplesLoseASource : Obligations.MissingSamplesLoseASource := by
  refine ⟨?link, ?pins, ?ptp, fun s n => badSample_of_lt, ?unused, ?holdover⟩
  case link =>
    intro s n t hn hkind ht
    rw [exec_sampleMissing s hn, sampleMissing_of_link hkind ht]
  case pins =>
    intro s n hn hkind hlimit
    rw [exec_sampleMissing s hn, sampleMissing_of_pins hkind hlimit]
  case ptp =>
    intro s n hn hkind hlimit
    rw [exec_sampleMissing s hn, sampleMissing_of_ptp hkind (by rwa [nsUnits, Nat.mul_comm (s.sampleInterval n)])]
  case unused =>
    intro s n hbad huse
    rw [badSample_third hbad, loseSource_unused huse]
  case holdover =>
    intro s n hbad huse hmode hq
    rw [badSample_third hbad, loseSource_inUse huse]
    exact sourceGone_mode_of_locked hmode fun m hm hne => by rw [srcRec_setSrc_other _ hne, hq m hm hne]

/-! ## Holdover (R62) -/

/-- The bound of R62 at a count, from the entry to HOLDOVER at `t`. -/
def holdBound (s : State) (t : Nat) : Nat :=
  let ms := (s.now - t) / 16000000
  s.time.holdB0 + s.fld F.TK_HOLD_STAB_PPT * ms / 1000 + s.fld F.TK_HOLD_AGEING * ms * ms / (2 * 10 ^ 9)

theorem holdoverUpdate_of_holding {s : State} {t : Nat} (ht : s.time.holdAt = some t)
    (hmode : s.time.mode = .holdover ∨ s.time.mode = .invalid) :
    holdoverUpdate s =
      if s.time.mode = .holdover ∧ 2000 < holdBound s t then setMode .invalid (setBound (holdBound s t) s)
      else setBound (holdBound s t) s := by
  simp only [holdoverUpdate, ht, if_pos hmode]
  rfl

@[simp] theorem setBound_time (ps : Nat) (s : State) : (setBound ps s).time = s.time := rfl

/-- BOUND_PS takes a bound as far as its 32 bits reach. -/
@[simp] theorem setBound_boundPs (ps : Nat) (s : State) : (setBound ps s).fld F.TK_STATUS_BOUND_PS = min ps (2 ^ 32 - 1) :=
  (State.fld_setFld_same s F.TK_STATUS_BOUND_PS _ []).trans
    (Nat.mod_eq_of_lt (show min ps (2 ^ 32 - 1) < 2 ^ 32 by omega))

/-- Settles O8: the bound shown is the formula's, and a state of time is left only where it exceeds 2,000. -/
theorem holdoverBound : Obligations.HoldoverBound := by
  intro s t ht hmode
  refine ⟨_, exec_holdoverUpdate s, ?_⟩
  change (finish s (holdoverUpdate s)).fld F.TK_STATUS_BOUND_PS = min (holdBound s t) (2 ^ 32 - 1) ∧
    (s.time.mode = .holdover → (finish s (holdoverUpdate s)).time.mode = if 2000 < holdBound s t then .invalid else .holdover) ∧
    (s.time.mode = .invalid → (finish s (holdoverUpdate s)).time.mode = .invalid)
  rw [finish_fld_reg s _ _ _ (by decide), finish_time, holdoverUpdate_of_holding ht hmode]
  refine ⟨?bound, fun hhold => ?hold, fun hinv => ?inv⟩
  case bound => split <;> simp
  case hold => by_cases hb : 2000 < holdBound s t <;> simp [hhold, hb]
  case inv => simp [hinv]

/-! ## Time exchange on a link (R54 to R59) -/

/-- Half of a number with ties to even, as R57 writes it. -/
theorem halfEven_eq (n : Int) : halfEven n = if n % 2 = 1 ∧ n / 2 % 2 = 1 then n / 2 + 1 else n / 2 := by
  simp only [halfEven, Int.fdiv_eq_ediv_of_nonneg n (by decide : (0 : Int) ≤ 2)]

section
variable {s : State} {pid h : Nat} {k : Pkt} {reply : Bool}

theorem timeMsgAt_of_passed (hk : s.pkt pid = some k) (hin : k.input = .half h) (hst : k.stage = .passed)
    (hm : isTimeMsg reply k.p = true) (hlink : s.link h = 4) (heth : s.isEth h = false) :
    timeMsgAt s pid reply = some (h, k.issuedAt, timeMsgOf k.p) := by
  simp [timeMsgAt, hk, hin, hst, hm, hlink, heth]

theorem takeLocal_of_passed (hk : s.pkt pid = some k) (hst : k.stage = .passed) : takeLocal pid s = s.setPkt pid none := by
  simp [takeLocal, hk, hst]

theorem syncSend_of_due (hlink : s.link h = 4) (heth : s.isEth h = false) (hen : s.fld F.TK_PORT_CAL_EXCH_EN (hp h) = 1)
    (hdue : (s.exch h).t1 = 0 ∨ (s.exch h).t1 + usUnits (s.fld F.TK_PORT_CAL_INTERVAL_US (hp h)) ≤ s.now) :
    syncSend h s =
      (let q := ((s.exch h).seq + 1) % 65536
       let u := s.setExch h { s.exch h with seq := q, t1 := s.now, waiting := true, unanswered := (s.exch h).unanswered.filter (syncOpen s h) ++ [s.now] }
       sendOnLink h (timePacket u (ownTimeMsg u h false q s.now 0 0)) u) := by
  rw [syncSend, if_pos ⟨hlink, by simp [heth], hen, hdue⟩]
  rfl

theorem syncReceive_of_passed (hk : s.pkt pid = some k) (hin : k.input = .half h) (hst : k.stage = .passed)
    (hm : isTimeMsg false k.p = true) (hlink : s.link h = 4) (heth : s.isEth h = false) (hsilent : s.fld F.SM_STATUS_STATE ≠ 2) :
    syncReceive pid s =
      (let u := s.setPkt pid none
       sendOnLink h (timePacket u (ownTimeMsg u h true (timeMsgOf k.p).seq (timeMsgOf k.p).tA k.issuedAt s.now)) u) := by
  simp only [syncReceive, timeMsgAt_of_passed hk hin hst hm hlink heth, takeLocal_of_passed hk hst]
  exact if_neg hsilent

/-- The awaited REPLY gives a sample, once its SYNC is noted as answered. -/
theorem replyReceive_of_awaited (hk : s.pkt pid = some k) (hin : k.input = .half h) (hst : k.stage = .passed)
    (hm : isTimeMsg true k.p = true) (hlink : s.link h = 4) (heth : s.isEth h = false) (hw : (s.exch h).waiting = true)
    (hseq : (timeMsgOf k.p).seq = (s.exch h).seq) :
    replyReceive pid s =
      exchangeSample h (s.exch h).t1 k.issuedAt (timeMsgOf k.p) (answeredSync h (timeMsgOf k.p).tA (s.setPkt pid none)) := by
  simp only [replyReceive, timeMsgAt_of_passed hk hin hst hm hlink heth, takeLocal_of_passed hk hst]
  refine if_neg ?_
  rw [not_or, not_not]
  exact ⟨by simpa using show ((s.setPkt pid none).exch h).waiting = true from hw, hseq⟩

variable {t1 t4 : Nat} {m : TimeMsg}

/-- An exchange whose delay lies within 16 of d_ref is measured and fed (R57, R58). -/
theorem exchangeSample_of_near {r : Int} (hv : m.valid = true) (ht : t4 ≤ t1 + 64000) (href : (s.exch h).dRef = some r)
    (hd : (delayOf t1 m.tB m.tC t4 - r).natAbs ≤ 16) :
    exchangeSample h t1 t4 m s =
      (let θ := offsetOf t1 m.tB m.tC t4 (toSigned 32 (s.fld F.TK_PORT_CAL_ASYM (hp h)))
       feedSources (s.srcsOf 1 h) θ m.bound (m.hops + 1) m.srcIsYou
         ((s.setFld F.TK_PORT_MEAS_DELAY (ofSigned 32 (delayOf t1 m.tB m.tC t4)) (hp h)).setFld F.TK_PORT_MEAS_OFFSET (ofSigned 32 θ) (hp h))) := by
  simp [exchangeSample, hv, Nat.not_lt.mpr ht, href, Nat.not_lt.mpr hd]

/-- One of the first seven exchanges only helps to form d_ref (R58). -/
theorem exchangeSample_of_first (hv : m.valid = true) (ht : t4 ≤ t1 + 64000) (href : (s.exch h).dRef = none)
    (hlen : (s.exch h).dSamples.length < 7) :
    exchangeSample h t1 t4 m s = s.setExch h { s.exch h with dSamples := (s.exch h).dSamples ++ [delayOf t1 m.tB m.tC t4] } := by
  have h8 : ¬ 8 ≤ (s.exch h).dSamples.length + 1 := by omega
  simp [exchangeSample, hv, Nat.not_lt.mpr ht, href, h8]

theorem answeredSync_exch (tA : Nat) (s : State) :
    (answeredSync h tA s).exch h =
      { s.exch h with unanswered := (s.exch h).unanswered.filter (fun t => decide (t ≠ tA)), waiting := false } := by
  simp [answeredSync]

theorem answeredSync_dRef (tA : Nat) (s : State) : ((answeredSync h tA s).exch h).dRef = (s.exch h).dRef := by
  rw [answeredSync_exch]

theorem answeredSync_dSamples (tA : Nat) (s : State) : ((answeredSync h tA s).exch h).dSamples = (s.exch h).dSamples := by
  rw [answeredSync_exch]

end

/-- A good REPLY that is awaited is taken, measured and fed. -/
theorem replyReceive_of_good {s : State} {pid h : Nat} {k : Pkt} {r : Int} (hk : s.pkt pid = some k) (hin : k.input = .half h)
    (hst : k.stage = .passed) (hm : isTimeMsg true k.p = true) (hlink : s.link h = 4) (heth : s.isEth h = false)
    (hv : (timeMsgOf k.p).valid = true) (hw : (s.exch h).waiting = true) (hseq : (timeMsgOf k.p).seq = (s.exch h).seq)
    (ht : k.issuedAt ≤ (s.exch h).t1 + 64000) (href : (s.exch h).dRef = some r)
    (hd : (delayOf (s.exch h).t1 (timeMsgOf k.p).tB (timeMsgOf k.p).tC k.issuedAt - r).natAbs ≤ 16) :
    replyReceive pid s =
      (let m := timeMsgOf k.p
       let θ := offsetOf (s.exch h).t1 m.tB m.tC k.issuedAt (toSigned 32 (s.fld F.TK_PORT_CAL_ASYM (hp h)))
       feedSources (s.srcsOf 1 h) θ m.bound (m.hops + 1) m.srcIsYou
         (((answeredSync h m.tA (s.setPkt pid none)).setFld F.TK_PORT_MEAS_DELAY
           (ofSigned 32 (delayOf (s.exch h).t1 m.tB m.tC k.issuedAt)) (hp h)).setFld F.TK_PORT_MEAS_OFFSET (ofSigned 32 θ) (hp h))) := by
  rw [replyReceive_of_awaited hk hin hst hm hlink heth hw hseq,
    exchangeSample_of_near hv ht ((answeredSync_dRef _ (s.setPkt pid none)).trans href) hd]
  rfl

/-- Settles O4: each message by the conditions under which it acts, a REPLY by the exchange it answers. -/
theorem timeExchangeCompletes : Obligations.TimeExchangeCompletes := by
  refine ⟨?send, ?receive, ?good, ?first⟩
  case send =>
    intro s h hh hlink heth hen hdue
    rw [exec_syncSend s hh, syncSend_of_due hlink heth hen (by rwa [usUnits, Nat.mul_comm])]
    rfl
  case receive =>
    intro s pid h k hk hin hst hm hlink heth hsilent
    rw [exec_syncReceive, syncReceive_of_passed hk hin hst hm hlink heth hsilent]
    rfl
  case good =>
    intro s pid h k m t4 r hk hin hst hm hmsg ht4 hlink heth hv hw hseq ht href hd
    subst hmsg ht4
    rw [exec_replyReceive, replyReceive_of_good hk hin hst hm hlink heth hv hw hseq ht href hd]
  case first =>
    intro s pid h k m t4 hk hin hst hm hmsg ht4 hlink heth hv hw hseq ht href hlen
    subst hmsg ht4
    have hnone := (answeredSync_dRef (timeMsgOf k.p).tA (s.setPkt pid none)).trans href
    have hsamples : ((answeredSync h (timeMsgOf k.p).tA (s.setPkt pid none)).exch h).dSamples = (s.exch h).dSamples :=
      answeredSync_dSamples _ _
    rw [exec_replyReceive, replyReceive_of_awaited hk hin hst hm hlink heth hw hseq,
      exchangeSample_of_first hv ht hnone (hsamples ▸ hlen), hsamples]

/-- Settles O59: `halfEven` is the procedure's halving, and an accepted reply gives what `offsetOf` and `delayOf` give. -/
theorem offsetAndDelayOfAReply : Obligations.OffsetAndDelayOfAReply := by
  refine ⟨fun t1 t2 t3 t4 asym => ⟨halfEven_eq _, halfEven_eq _⟩, ?_⟩
  intro s pid h k m t4 r hk hin hst hm hmsg ht4 hlink heth hv hw hseq ht href
  dsimp only
  subst hmsg ht4
  simp only [← halfEven_eq]
  intro hd
  rw [exec_replyReceive, replyReceive_of_good hk hin hst hm hlink heth hv hw hseq ht href hd]
  rfl

/-! ## The step of the counter (R61) -/

theorem stepAllowed_iff {s : State} :
    stepAllowed s = true ↔ s.time.mode = .unset ∨ (s.fld F.TK_CTRL_STEP_ARM = 1 ∧ ∀ d ∈ dies, s.schedLive d = false) := by
  simp only [stepAllowed, Bool.or_eq_true, Bool.and_eq_true, decide_eq_true_eq, Bool.not_eq_true', List.any_eq_false,
    Bool.not_eq_true]

theorem counterStep_of_none {s : State} (h : s.time.stepTheta = none) : counterStep s = s := by
  simp [counterStep, h]

theorem counterStep_of_barred {s : State} (h : stepAllowed s = false) : counterStep s = s := by
  unfold counterStep
  split
  · rfl
  · simp [h]

theorem not_stepAllowed {s : State} (hmode : s.time.mode ≠ .unset)
    (h : s.fld F.TK_CTRL_STEP_ARM = 0 ∨ ∃ d ∈ dies, s.schedLive d = true) : stepAllowed s = false := by
  rw [← Bool.not_eq_true, stepAllowed_iff]
  rintro (hunset | ⟨harm, hlive⟩)
  · exact hmode hunset
  · rcases h with h0 | ⟨d, hd, hl⟩
    · omega
    · simp [hlive d hd] at hl

/-- Settles O7: the step is COUNTER_STEP's definition where one waits and is allowed, and nothing otherwise. -/
theorem counterStepCompletes : Obligations.CounterStepCompletes := by
  refine ⟨?allowed, ?none, ?barred⟩
  case allowed =>
    intro s θ hθ hall
    rw [exec_counterStep, counterStep, hθ]
    dsimp only
    rw [if_neg (by simp [stepAllowed_iff.mpr hall])]
  case none =>
    intro s h
    rw [exec_counterStep, counterStep_of_none h]
  case barred =>
    intro s hmode h
    rw [exec_counterStep, counterStep_of_barred (not_stepAllowed hmode h)]

end Sys2Proof.Machine
end

section
/-! SUPPORT. The state after reset, then PTP and the time pins (R64 to R67): each command by the conditions under which it acts. -/

namespace Sys2Proof.Machine

/-! ## The state after reset -/

/-- After reset the alert's cause is that time is not valid (R438), and the pins are at the levels that go with it. -/
theorem pinsFollow_reset : PinsFollow State.reset where
  cause := by decide +kernel
  faultN := by decide +kernel
  thermTripN := by decide +kernel
  dieFenceN := by decide +kernel
  smbAlertN := by decide +kernel

/-- Settles O3: the reset state meets the pins' invariant, and its lists are empty by definition. -/
theorem resetMeetsPins : Obligations.ResetMeetsPins := by
  refine ⟨pinsFollow_reset, rfl, rfl, memWf_reset, rfl, rfl, rfl, ?lead, ?owner, ?hedge, ?powered, ?mask, rfl⟩
  case lead => decide +kernel
  case owner => decide +kernel
  case hedge => decide +kernel
  case powered => decide +kernel
  case mask => decide +kernel

/-! ## PTP (R64, R65) -/

section
variable (s : State) {h : Nat} (hh : h < 16)
include hh

theorem exec_ptpSyncSend : exec (.ptpSyncSend h) s = .next (finish s (ptpSyncSend h s)) :=
  run_wellFormed (i := .ptpSyncSend h) s _ (decide_eq_true hh)
theorem exec_announceSend : exec (.announceSend h) s = .next (finish s (announceSend h s)) :=
  run_wellFormed (i := .announceSend h) s _ (decide_eq_true hh)
theorem exec_pdelayReqSend : exec (.pdelayReqSend h) s = .next (finish s (pdelayReqSend h s)) :=
  run_wellFormed (i := .pdelayReqSend h) s _ (decide_eq_true hh)
theorem exec_ptpMessageReceive {m : PtpMsg} (hm : m.wellFormed = true) :
    exec (.ptpMessageReceive h m) s = .next (finish s (ptpReceive h m s)) :=
  run_wellFormed (i := .ptpMessageReceive h m) s _ (decide_eq_true ⟨hh, hm⟩)

end

section
variable {s : State} {h : Nat}

theorem ptpSyncSend_of_due (heth : s.isEth h = true) (hlink : s.link h = 4) (hrole : s.ptpRole h = 1) (hv : s.timeValid = true)
    (hdue : (s.ptpPort h).syncAt = 0 ∨ (s.ptpPort h).syncAt + logUnits (s.fld F.TK_PTP_LOG_SYNC) ≤ s.now) :
    ptpSyncSend h s =
      sendPtp h 1 (s.ptpPort h).syncSeq (s.now / 16) (s.now % 16 * 4096) 0 0 0 (sendPtp h 0 (s.ptpPort h).syncSeq 0 0 0 0 0
        (s.setPtp h { s.ptpPort h with syncSeq := ((s.ptpPort h).syncSeq + 1) % 65536, syncAt := s.now })) := by
  rw [ptpSyncSend, if_pos ⟨heth, hlink, hrole, hv, hdue⟩]
  rfl

theorem announceSend_of_due (heth : s.isEth h = true) (hlink : s.link h = 4) (hrole : s.ptpRole h = 1) (hv : s.timeValid = true)
    (hdue : (s.ptpPort h).announceAt = 0 ∨ (s.ptpPort h).announceAt + logUnits (s.fld F.TK_PTP_LOG_ANNOUNCE) ≤ s.now) :
    announceSend h s =
      sendPtp h 2 (s.ptpPort h).announceSeq 0 0 (s.fld F.TK_STATUS_HOPS) (if s.time.mode = .holdover then 7 else 6)
        (toSigned 16 (s.fld F.TK_CTRL_TAI_UTC))
        (s.setPtp h { s.ptpPort h with announceSeq := ((s.ptpPort h).announceSeq + 1) % 65536, announceAt := s.now }) := by
  rw [announceSend, if_pos ⟨heth, hlink, hrole, hv, hdue⟩]
  rfl

theorem pdelayReqSend_of_due (heth : s.isEth h = true) (hlink : s.link h = 4) (hrole : s.ptpRole h ≠ 0)
    (hdue : (s.ptpPort h).pdelayAt = 0 ∨ (s.ptpPort h).pdelayAt + logUnits (s.fld F.TK_PTP_LOG_PDELAY) ≤ s.now) :
    pdelayReqSend h s =
      (let q := ((s.ptpPort h).pdelaySeq + 1) % 65536
       sendPtp h 3 q 0 0 0 0 0 (s.setPtp h { s.ptpPort h with pdelaySeq := q, pdelayAt := s.now, pdelayT2 := none, pdelayT4 := none })) := by
  rw [pdelayReqSend, if_pos ⟨heth, hlink, hrole, hdue⟩]

variable {m : PtpMsg}

theorem ptpReceive_unsupported (heth : s.isEth h = true) (hlink : s.link h = 4) (hb : m.body = .unsupported) :
    ptpReceive h m s = s.bump F.TK_EVENTS_SAMPLES_REJECTED := by
  simp [ptpReceive, heth, hlink, hb]

/-- A supported message that came by the transport in use and is of the device's domain acts. -/
theorem ptpReceive_supported (heth : s.isEth h = true) (hlink : s.link h = 4) (h6 : m.ipv6 = decide (s.fld F.TK_PTP_IPV6 = 1))
    (hdom : m.domain = s.fld F.TK_PTP_DOMAIN) (hrole : s.ptpRole h ≠ 0) (hb : m.body ≠ .unsupported) :
    ptpReceive h m s = ptpTake h m.body s := by
  simp [ptpReceive, heth, hlink, hb, h6, hdom, hrole]

theorem ptpTake_sync (hrole : s.ptpRole h = 2) (q : Nat) :
    ptpTake h (.sync q) s = s.setPtp h { s.ptpPort h with rxSync := some (q, s.now) } := if_pos hrole

/-- The sample of a Follow_Up counts from now in every source it feeds, which the count stands still for. -/
theorem ptpTake_followUp {q rx : Nat} (hrole : s.ptpRole h = 2) (hrx : (s.ptpPort h).rxSync = some (q, rx)) (o : Nat) :
    ptpTake h (.followUp q o) s =
      ptpSample h o rx ((s.setPtp h { s.ptpPort h with rxSync := none }).forAll (s.srcsOf 2 h)
        (fun n u => u.setSrc n { u.srcRec n with lastAt := s.now })) := by
  simp only [ptpTake, hrx, hrole, and_self, if_true]
  refine congrArg (ptpSample h o rx) (State.forAll_congr (obs := fun u => u.now) ?_ fun n _ u hu => ?_)
  · exact fun _ _ => rfl
  · simp only [hu]
    rfl

theorem ptpTake_pdelayReq (q wait : Nat) :
    ptpTake h (.pdelayReq q wait) s =
      sendPtp h 5 q (s.now / 16) (s.now % 16 * 4096) 0 0 0
        (sendPtp h 4 q ((s.now - wait) / 16) ((s.now - wait) % 16 * 4096) 0 0 0 s) := rfl

end

/-- Settles O9: what each port sends, and what each kind of message received does. -/
theorem ptpCompletes : Obligations.PtpCompletes := by
  refine ⟨?sync, ?announce, ?pdelay, ?pdelayReq, ?unsupported, ?rxSync, ?followUp⟩
  case sync =>
    intro s h hh heth hlink hrole hv hdue
    rw [exec_ptpSyncSend s hh, ptpSyncSend_of_due heth hlink hrole hv hdue]
    rfl
  case announce =>
    intro s h hh heth hlink hrole hv hdue
    rw [exec_announceSend s hh, announceSend_of_due heth hlink hrole hv hdue]
    rfl
  case pdelay =>
    intro s h hh heth hlink hrole hdue
    rw [exec_pdelayReqSend s hh, pdelayReqSend_of_due heth hlink hrole hdue]
    rfl
  case pdelayReq =>
    intro s h m q wait hh hm heth hlink h6 hdom hrole hb
    rw [exec_ptpMessageReceive s hh hm, ptpReceive_supported heth hlink h6 hdom hrole (by simp [hb]), hb, ptpTake_pdelayReq]
    rfl
  case unsupported =>
    intro s h m hh hm heth hlink hb
    rw [exec_ptpMessageReceive s hh hm, ptpReceive_unsupported heth hlink hb]
  case rxSync =>
    intro s h m q hh hm heth hlink h6 hdom hrole hb
    rw [exec_ptpMessageReceive s hh hm, ptpReceive_supported heth hlink h6 hdom (by omega) (by simp [hb]), hb, ptpTake_sync hrole]
  case followUp =>
    intro s h m q rx o hh hm heth hlink h6 hdom hrole hb hrx
    rw [exec_ptpMessageReceive s hh hm, ptpReceive_supported heth hlink h6 hdom (by omega) (by simp [hb]), hb,
      ptpTake_followUp hrole hrx]

/-! ## Time pins (R66, R67) -/

section
variable (s : State)

theorem exec_ppsInEdge : exec .ppsInEdge s = .next (finish s (ppsInEdge s)) := run_wellFormed (i := .ppsInEdge) s _ rfl
theorem exec_todMessage {l : List Byte} (hl : l.length = 16) : exec (.todMessage l) s = .next (finish s (todMessage l s)) :=
  run_wellFormed (i := .todMessage l) s _ (decide_eq_true hl)
theorem exec_ppsOutRise : exec .ppsOutRise s = .next (finish s (ppsOutRise s)) := run_wellFormed (i := .ppsOutRise) s _ rfl
theorem exec_ppsOutFall : exec .ppsOutFall s = .next (finish s (ppsOutFall s)) := run_wellFormed (i := .ppsOutFall) s _ rfl

end

section
variable {s : State}

/-- An edge whose message came in its time gives every pins source a sample (R66). -/
theorem ppsInEdge_of_message {p : Nat} {t : TodRec} (hsrc : s.pinSrcs ≠ []) (hp : s.time.ppsInAt = some p) (ht : s.time.tod = some t)
    (hin : p + nsUnits 100000000 ≤ t.arrivedAt ∧ t.arrivedAt ≤ p + nsUnits 900000000 ∧ p + nsUnits 900000000 ≤ s.now) :
    ppsInEdge s =
      ({ s with time := { s.time with ppsInAt := some s.now, tod := none } } : State).forAll s.pinSrcs (fun n u =>
        acceptSample n ((s.now : Int) - s.fld F.TK_PPS_IN_CABLE_DELAY - (t.seconds * 16000000000 : Nat)) 0 0 u) := by
  simp only [ppsInEdge, hp, ht]
  exact (if_neg hsrc).trans (if_pos hin)

/-- A message that is whole and marks its second as that of the next edge (R66). -/
theorem todMessage_of_whole {l : List Byte} (hsync : byteNat l 0 2 = 0x594B) (hver : byteNat l 2 1 = 1)
    (hcrc : byteNat l 14 2 = crc16 (l.take 14)) (hflag : (byteNat l 3 1).testBit 0 = true) :
    todMessage l s =
      { (s.setFld F.TK_PPS_IN_TOD_CLASS (byteNat l 12 1)).setFld F.TK_PPS_IN_TOD_OK 1 with
        time := { s.time with tod := some ⟨byteNat l 4 6, s.now⟩ } } := by
  rw [todMessage, if_pos ⟨hsync, hver, hcrc⟩]
  simp only [if_pos hflag]
  rfl

/-- At a multiple of the period the latest multiple is now. -/
theorem ppsOutRise_of_multiple {k : Nat} (hv : s.timeValid = true) (hen : s.fld F.TK_CTRL_PPS_OUT_EN = 1)
    (hsilent : s.fld F.SM_STATUS_STATE ≠ 2) (hp : nsUnits (s.fld F.TK_PPS_OUT_PERIOD_NS) ≠ 0)
    (hk : s.now = k * nsUnits (s.fld F.TK_PPS_OUT_PERIOD_NS)) (hlow : s.time.ppsOutHigh = false)
    (hrise : s.time.ppsOutRiseAt ≠ some s.now) :
    ppsOutRise s =
      { s with time := { s.time with ppsOutHigh := true, ppsOutRiseAt := some s.now, ppsOutWidth := s.fld F.TK_PPS_OUT_WIDTH_NS } } := by
  have hm : s.now / nsUnits (s.fld F.TK_PPS_OUT_PERIOD_NS) * nsUnits (s.fld F.TK_PPS_OUT_PERIOD_NS) = s.now :=
    Nat.div_mul_cancel (hk ▸ Nat.dvd_mul_left _ _)
  simp only [ppsOutRise, if_neg hp, hm]
  exact if_pos ⟨hv, hen, hsilent, hp, by omega, by simp [hlow], hrise⟩

theorem ppsOutFall_of_passed {t : Nat} (hhigh : s.time.ppsOutHigh = true) (ht : s.time.ppsOutRiseAt = some t)
    (hw : t + nsUnits s.time.ppsOutWidth ≤ s.now) :
    ppsOutFall s = { s with time := { s.time with ppsOutHigh := false } } := by
  rw [ppsOutFall, if_pos ⟨hhigh, by simpa [ht] using hw⟩]

end

/-- Settles O10: the pins by the conditions of R66 and R67. -/
theorem timePinsComplete : Obligations.TimePinsComplete := by
  refine ⟨?edge, ?message, ?rise, ?fall⟩
  case edge =>
    intro s p t hsrc hp ht h1 h2 h3
    rw [exec_ppsInEdge, ppsInEdge_of_message hsrc hp ht ⟨h1, h2, h3⟩]
  case message =>
    intro s l hl hsync hver hcrc hflag
    rw [exec_todMessage s hl, todMessage_of_whole hsync hver hcrc hflag]
  case rise =>
    intro s k hv hen hsilent hp hk hlow hrise
    rw [exec_ppsOutRise, ppsOutRise_of_multiple hv hen hsilent (by rw [nsUnits]; omega) (by rwa [nsUnits, Nat.mul_comm _ 16]) hlow hrise]
  case fall =>
    intro s t hhigh ht hw
    rw [exec_ppsOutFall, ppsOutFall_of_passed hhigh ht (by rwa [nsUnits, Nat.mul_comm])]

end Sys2Proof.Machine
end

section
/-! SUPPORT. Barriers (R69, R71): how a barrier packet is taken, then what each message and each moment does. -/

namespace Sys2Proof.Machine

/-! ## A barrier packet is taken -/

section
variable {s u : State} {pid kind : Nat} {m : BarrierMsg} {b : BarrierRec} {live : State → BarrierRec → Bool}
  {f : BarrierMsg → BarrierRec → State → State}

/-- A packet that is heard acts while its barrier is live. -/
theorem onBarrier_of_heard (h : BarrierHeard s pid kind m b u) (hlive : live u b = true) : onBarrier pid kind live f s = f m b u := by
  obtain ⟨⟨k, hk, hc, rfl⟩, rfl, hb, hid, hfield⟩ := h
  simp [onBarrier, hk, hc, hb, hid, hfield, hlive]

/-- A packet that finds no live barrier is discarded and logged. -/
theorem onBarrier_of_not_live {k : Pkt} (hk : barrierPkt s pid kind = some k) (hc : checkOk k.p = true)
    (hnone : ∀ b, (freePkt pid 8 s).time.barrier = some b → live (freePkt pid 8 s) b = false) :
    onBarrier pid kind live f s = timeEvent 0x09 (freePkt pid 8 s) := by
  simp only [onBarrier, hk, hc, Bool.not_true, Bool.false_eq_true, if_false]
  split
  · next b hb => simp [hnone b hb]
  · rfl

end

/-! ## The root -/

section
variable {s u : State} {pid : Nat} {m : BarrierMsg} {b : BarrierRec}

theorem barrierArrive_of_heard (h : BarrierHeard s pid 1 m b u) (hopen : b.open_ = true) (hroot : b.root = u.device)
    (hidx : m.index < b.n) : barrierArrive pid s = arriveHere m.index m.src b u := by
  rw [barrierArrive, onBarrier_of_heard h hopen, if_pos ⟨hroot, hidx⟩]

/-- A new arrival is noted; the N-th ends the gather. -/
theorem arriveHere_of_new {index src : Nat} (hg : b.gathered = false) (hnew : b.arrivals.any (fun a => a.1 = index) = false) :
    arriveHere index src b s =
      (let c := { b with arrivals := b.arrivals ++ [(index, src)] }
       if b.n ≤ b.arrivals.length + 1 then gatherDone c (s.setBarrier (some c)) else s.setBarrier (some c)) := by
  rw [arriveHere, if_neg (by rw [hg, hnew]; simp)]
  simp only [List.length_append, List.length_singleton]

/-- A LATE at a root that has gathered joins the late ones, and the outcome is late. -/
theorem barrierLate_of_heard (h : BarrierHeard s pid 3 m b u) (hroot : b.root = u.device) (hidx : m.index < b.n)
    (hg : b.gathered = true) (hphase : b.phase ≠ .aborted) :
    barrierLate pid s =
      (let c := { b with lateOnes := (b.lateOnes.filter (· ≠ m.index)) ++ [m.index] }
       (u.setBarrier (some c)).emit (.barrierOutcome b.id 3 c.lateOnes)) := by
  have hlive : b.collects u = true := by simp [BarrierRec.collects, hroot, hg, hphase]
  rw [barrierLate, onBarrier_of_heard h hlive, if_pos hidx]
  simp [barrierOutcome, hphase]

theorem barrierTimeout_of_due (hb : s.time.barrier = some b) (hroot : b.root = s.device) (hg : b.gathered = false)
    (hphase : b.phase ≠ .aborted) (hdue : b.openedAt + usUnits b.timeoutUs ≤ s.now) :
    barrierTimeout s =
      (admitOver b 2 ((s.forAll (b.arrivals.filter (fun a => a.2 ≠ s.device)) (fun a u => barrierSend 4 { b with index := a.1 } a.2 0 u)).setBarrier
        (some { b with phase := .aborted, gathered := true }))).emit (.barrierOutcome b.id 2 b.lateOnes) := by
  simp only [barrierTimeout, hb]
  rw [if_pos ⟨hroot, by simp [hg], hphase, hdue⟩]
  rfl

end

/-! ## A participant -/

section
variable {s u : State} {pid : Nat} {m : BarrierMsg} {b : BarrierRec}

theorem barrierArriveSend_of_ready (hb : s.time.barrier = some b) (hphase : b.phase = .opened) (hv : s.timeValid = true)
    (hbound : s.fld F.TK_STATUS_BOUND_PS ≤ 1500) (hready : barrierReady s b = true) (hroot : b.root ≠ s.device) :
    barrierArriveSend s =
      barrierSend 1 { b with phase := .arrived } b.root s.now (s.setBarrier (some { b with phase := .arrived })) := by
  simp only [barrierArriveSend, hb]
  rw [if_pos ⟨hphase, hv, hbound, hready⟩]
  exact if_neg hroot

theorem open_of_phase (h : b.phase = .opened ∨ b.phase = .arrived ∨ b.phase = .released) : b.open_ = true := by
  simpa [BarrierRec.open_, or_assoc] using h

theorem barrierRelease_of_heard (h : BarrierHeard s pid 2 m b u) (hidx : m.index = b.index) (hphase : b.phase = .arrived) :
    barrierRelease pid s = releaseHere m.count b u := by
  rw [barrierRelease, onBarrier_of_heard h (open_of_phase (.inr (.inl hphase))), if_neg (not_not.mpr hidx), if_pos hphase]

/-- RELEASE of a Field launch before M arms the gate at M. -/
theorem releaseHere_of_launch {count : Nat} (hkind : b.kind = 1) (hm : s.now < count) :
    releaseHere count b s =
      (s.setBarrier (some { b with relAt := s.now, phase := .released, m := count })).armGate .barrier count := by
  simp [releaseHere, admitArmedFor, hkind, Nat.not_le.mpr hm]

theorem barrierAbort_of_heard (h : BarrierHeard s pid 4 m b u) (hidx : m.index = b.index) (hphase : b.phase = .arrived ∨ b.phase = .opened) :
    barrierAbort pid s = admitOver b 2 (u.setBarrier (some { b with phase := .aborted })) := by
  have hopen : b.open_ = true := open_of_phase (hphase.elim (fun h => .inr (.inl h)) .inl)
  have hnot : b.phase ≠ .released := by rcases hphase with h | h <;> simp [h]
  rw [barrierAbort, onBarrier_of_heard h hopen, if_neg (not_not.mpr hidx), if_neg hnot]

/-- A participant that may release launches the Field, and the root reports it. -/
theorem barrierFire_of_launch (hb : s.time.barrier = some b) (hphase : b.phase = .released) (hgate : s.gateAt .barrier = some b.m)
    (hm : b.m ≤ s.now) (hkind : b.kind = 1) (hmay : mayRelease (s.dropGate .barrier) b = true) :
    barrierFire s =
      (let u := (s.dropGate .barrier).setBarrier (some { b with phase := .fired })
       launchField b (if b.root = s.device then barrierOutcome { b with phase := .fired } u else u)) := by
  simp only [barrierFire, hb]
  rw [if_pos ⟨hphase, hgate, hm⟩, if_pos hmay, if_pos hkind]
  rfl

theorem barrierFire_of_barred (hb : s.time.barrier = some b) (hphase : b.phase = .released) (hgate : s.gateAt .barrier = some b.m)
    (hm : b.m ≤ s.now) (hmay : mayRelease (s.dropGate .barrier) b = false) :
    barrierFire s = barrierGoLate b 3 (s.dropGate .barrier) := by
  simp only [barrierFire, hb]
  rw [if_pos ⟨hphase, hgate, hm⟩, if_neg (by simp [hmay])]

/-- The conditions of a Field launch at M (R69, R70). -/
theorem mayRelease_of_launch (hkind : b.kind = 1) :
    mayRelease s b = true ↔
      s.timeValid = true ∧ s.fld F.TK_STATUS_BOUND_PS ≤ 1500 ∧ s.gateLate s.leadDie b.m = false ∧ barrierReady s b = true := by
  simp [mayRelease, hkind, and_assoc]

theorem mayRelease_of_bound (h : 1500 < s.fld F.TK_STATUS_BOUND_PS) : mayRelease s b = false := by
  simp [mayRelease, Nat.not_le.mpr h]

end

/-! ## The commands -/

section
variable (s : State) (pid : Nat)

theorem exec_barrierArriveSend : exec .barrierArriveSend s = .next (finish s (barrierArriveSend s)) :=
  run_wellFormed (i := .barrierArriveSend) s _ rfl
theorem exec_barrierArrive : exec (.barrierArrive pid) s = .next (finish s (barrierArrive pid s)) :=
  run_wellFormed (i := .barrierArrive pid) s _ rfl
theorem exec_barrierRelease : exec (.barrierRelease pid) s = .next (finish s (barrierRelease pid s)) :=
  run_wellFormed (i := .barrierRelease pid) s _ rfl
theorem exec_barrierTimeout : exec .barrierTimeout s = .next (finish s (barrierTimeout s)) :=
  run_wellFormed (i := .barrierTimeout) s _ rfl
theorem exec_barrierAbort : exec (.barrierAbort pid) s = .next (finish s (barrierAbort pid s)) :=
  run_wellFormed (i := .barrierAbort pid) s _ rfl
theorem exec_barrierLate : exec (.barrierLate pid) s = .next (finish s (barrierLate pid s)) :=
  run_wellFormed (i := .barrierLate pid) s _ rfl
theorem exec_barrierFire : exec .barrierFire s = .next (finish s (barrierFire s)) :=
  run_wellFormed (i := .barrierFire) s _ rfl

end

/-- Settles O11: what the root and a participant do with each message, and at the timeout and at M. -/
theorem barrierCompletes : Obligations.BarrierCompletes := by
  refine ⟨?arrive, ?gathered, ?late, ?timeout, ?arriveSend, ?release, ?abort, ?fire, ?fireLate, ?stray⟩
  case arrive =>
    intro s u pid m b h hopen hroot hidx hg hnew hlen
    rw [exec_barrierArrive, barrierArrive_of_heard h hopen hroot hidx, arriveHere_of_new hg hnew]
    dsimp only
    rw [if_neg (by omega)]
  case gathered =>
    intro s u pid m b h hopen hroot hidx hg hnew hlen
    rw [exec_barrierArrive, barrierArrive_of_heard h hopen hroot hidx, arriveHere_of_new hg hnew]
    dsimp only
    rw [if_pos hlen.ge]
  case late =>
    intro s u pid m b h hroot hidx hg hphase
    rw [exec_barrierLate, barrierLate_of_heard h hroot hidx hg hphase]
  case timeout =>
    intro s b hb hroot hg hphase hdue
    rw [exec_barrierTimeout, barrierTimeout_of_due hb hroot hg hphase (by rwa [usUnits, Nat.mul_comm])]
  case arriveSend =>
    intro s b hb hphase hv hbound hready hroot
    rw [exec_barrierArriveSend, barrierArriveSend_of_ready hb hphase hv hbound hready hroot]
  case release =>
    intro s u pid m b h hidx hphase hkind hm
    rw [exec_barrierRelease, barrierRelease_of_heard h hidx hphase, releaseHere_of_launch hkind hm]
  case abort =>
    intro s u pid m b h hidx hphase
    rw [exec_barrierAbort, barrierAbort_of_heard h hidx hphase]
  case fire =>
    intro s b hb hphase hgate hm hlate hkind hv hbound hready
    rw [exec_barrierFire, barrierFire_of_launch hb hphase hgate hm hkind ((mayRelease_of_launch hkind).mpr ⟨hv, hbound, hlate, hready⟩)]
  case fireLate =>
    intro s b hb hphase hgate hm hbound
    rw [exec_barrierFire, barrierFire_of_barred hb hphase hgate hm (mayRelease_of_bound hbound)]
  case stray =>
    intro s pid k hk hc hnone
    rw [exec_barrierRelease, barrierRelease, onBarrier_of_not_live hk hc hnone]

end Sys2Proof.Machine
end

section
/-! SUPPORT. Transfers of manager sessions (R434, R435): what a transfer request answers in either direction, how MGR_DATA moves a transfer
on, and the seal of a table version. -/

namespace Sys2Proof.Machine

/-! ## Transfer requests -/

section
variable {u : State} {k : Pkt} {r : MgrReq} {p : Packet} {z : Session}

/-- The transfer that a request opens. -/
def openedXfer (r : MgrReq) (p : Packet) (now : Nat) : Xfer :=
  { seq := r.seq, target := r.addr % 256, arg := r.addr / 256, len := r.value % 2 ^ 32, req := p, at_ := now }

theorem isXfer_of_op {t : Nat} (hop : r.op = 5 ∨ r.op = 6) (ht : r.addr % 256 = t) : isXfer t r = true := by
  simp [isXfer, hop, ht]

/-- What XFER_IN of target action `act` comes to: an open transfer, or what an object of no bytes is answered. -/
def startXfer (act : ObjAct) (k : Pkt) (z : Session) (r : MgrReq) (p : Packet) (v : State) : State :=
  let x := openedXfer r p v.now
  if x.len = 0 then told k (act x [] v).1.1 (act x [] v).1.2 (act x [] v).2
  else v.setSession r.key (some { z with xfer := some x })

/-- A transfer the wrong way, or of an object that is not there, is refused. -/
def refuseXfer (k : Pkt) (v : State) : State := told k stTarget (noValue v) v.tick

/-- What XFER_OUT comes to where the range holds `bytes`. -/
def sendXfer (k : Pkt) (z : Session) (r : MgrReq) (p : Packet) (bytes : List Byte) (v : State) : State :=
  told k stOk bytes.length (sendRange v.leadDie p r.key z.txKey (r.addr % 256) r.seq (r.value % 2 ^ 32) bytes v)

theorem replied_openIn {act : ObjAct} (hz : (abandonXfer r.key u).session r.key = some z) :
    replied k (openIn act r p u) = startXfer act k z r p (abandonXfer r.key u) := by
  simp only [openIn, hz]
  exact (apply_ite (replied k) _ _ _).trans rfl

theorem replied_wrongWay : replied k (wrongWay r p u) = refuseXfer k (abandonXfer r.key u) := rfl

theorem replied_sendObject {obj : MgrReq → Nat → Nat → State → Option (List Byte)} (hz : (abandonXfer r.key u).session r.key = some z) :
    replied k (sendObject obj r p u) =
      (obj r (r.value % 2 ^ 32) (r.value / 2 ^ 32) (abandonXfer r.key u)).elim (refuseXfer k (abandonXfer r.key u))
        (fun bytes => sendXfer k z r p bytes (abandonXfer r.key u)) := by
  simp only [sendObject, hz]
  cases obj r (r.value % 2 ^ 32) (r.value / 2 ^ 32) (abandonXfer r.key u) <;> rfl

theorem inOnly_in {act : ObjAct} (h : r.op = 5) : inOnly act r p u = openIn act r p u := if_pos h

theorem inOnly_out {act : ObjAct} (h : r.op = 6) : inOnly act r p u = wrongWay r p u := if_neg (by omega)

theorem outOnly_in {obj : MgrReq → Nat → Nat → State → Option (List Byte)} (h : r.op = 5) :
    outOnly obj r p u = wrongWay r p u := if_neg (by omega)

theorem outOnly_out {obj : MgrReq → Nat → Nat → State → Option (List Byte)} (h : r.op = 6) :
    outOnly obj r p u = sendObject obj r p u := if_pos h

theorem tableReq_in (h : r.op = 5) (hlen : r.value % 2 ^ 32 ≤ tableSize (r.addr % 256)) :
    tableReq r p u = openIn loadedAct r p u := if_pos ⟨h, hlen⟩

theorem tableReq_refused (h : r.op = 6 ∨ tableSize (r.addr % 256) < r.value % 2 ^ 32) : tableReq r p u = wrongWay r p u :=
  if_neg (by omega)

theorem attestReq_in (h : r.op = 5) : attestReq r p u = openIn attestAct r p u := if_pos h

theorem attestReq_out (h : r.op = 6) : attestReq r p u = sendObject reportObj r p u := if_neg (by omega)

end

/-! ## MGR_DATA -/

section
variable {s u v : State} {k : Pkt} {pid : Nat} {p : Packet} {z : Session} {x : Xfer}

@[simp] theorem addPiece_len (now : Nat) : (addPiece x p now).len = x.len := rfl

/-- MGR_DATA that is no handshake message and finds no session. -/
theorem dataRowOf_no_session (ht : (dataHdrOf p).target ≠ 1) (hz : dataSession s p = none) : dataRowOf s p = .plain := by
  simp [dataRowOf, ht, hz]

section
variable (ht : (dataHdrOf p).target ≠ 1) (hz : dataSession s p = some z) (hx : z.xfer = some x) (hfit : dataFits x p = true)
include ht hz hx hfit

/-- A piece that leaves its object unfinished belongs to no command of its own. -/
theorem dataRowOf_unfinished (hcov : piecesCover (addPiece x p s.now).got x.len = false) : dataRowOf s p = .plain := by
  simp [dataRowOf, ht, hz, hx, hfit, hcov]

/-- Nor does one that completes an object of a target other than fuse orders, admissions and the relay. -/
theorem dataRowOf_target (h : x.target ≠ 5 ∧ x.target ≠ 6 ∧ x.target ≠ 7) : dataRowOf s p = .plain := by
  obtain ⟨h5, h6, h7⟩ := h
  simp only [dataRowOf, if_neg ht, hz, Option.bind_some, hx, hfit, Bool.not_true, Bool.false_eq_true, if_false]
  split <;> rfl

end

section
variable {row : DataRow} {early : Xfer → Nat → List Byte → State → Option State} {act : ObjAct}
variable (hk : mgrPkt s pid 0x8F = some k) (hc : checkOk k.p = true) (hrow : dataRowOf s k.p = row)
include hk hc hrow

theorem mgrData_no_session (hz : dataSession (freePkt pid 8 s) k.p = none) :
    mgrData pid row early act s = (freePkt pid 8 s).bump F.DV_MGR_STAT_MAC_FAILS := by
  simp [mgrData, hk, hc, hrow, hz]

/-- MGR_DATA that fits adds its piece, and its target acts once the pieces cover the length. -/
theorem mgrData_of_fit (hz : dataSession (freePkt pid 8 s) k.p = some z) (hx : z.xfer = some x) (hfit : dataFits x k.p = true)
    (hearly : early x (dataHdrOf k.p).off (k.p.data.take (dataHdrOf k.p).len) (freePkt pid 8 s) = some v) :
    mgrData pid row early act s =
      (let y := addPiece x k.p v.now
       let u := v.setSession (dataHdrOf k.p).key (some { z with xfer := some y })
       if piecesCover y.got y.len then ended k y (act y (objectOf y) u) else u) := by
  simp only [mgrData, hk, hc, hrow, hz, hx, hfit, hearly, ne_eq, not_true_eq_false, Bool.not_true, Bool.false_eq_true, if_false]
  rfl

end

/-- MGR_DATA that completes an object of a target without a command of its own ends the transfer with what the target answers. -/
theorem mgrDataReceive_of_filled {l : List Byte} (h : Filled s pid k x l u) (ht : x.target ≠ 5 ∧ x.target ≠ 6 ∧ x.target ≠ 7) :
    mgrData pid .plain earlyBytes wholeAct s = ended k x (wholeAct x l u) := by
  obtain ⟨hk, hc, hne, z, y, v, hzs, hz, hy, hfit, hearly, rfl, hcov, rfl, rfl⟩ := h
  rw [mgrData_of_fit hk hc (dataRowOf_target hne hzs hy hfit ht) hz hy hfit hearly]
  exact if_pos hcov

theorem wholeAct_loaded {l : List Byte} (h : x.target = 2 ∨ x.target = 3 ∨ x.target = 4) : wholeAct x l u = ((stOk, 0), u) := by
  rcases h with h | h | h <;> simp [wholeAct, h, loadedAct]

theorem wholeAct_barrier {l : List Byte} {b : BarrierRec} (h : x.target = 13) (hb : barrierOf l u.now = some b) :
    wholeAct x l u = if barrierOpen u = true then ((stState, noValue u), u.tick) else ((stOk, 0), u.setBarrier (some b)) := by
  simp [wholeAct, h, barrierAct, hb]

theorem wholeAct_attest {l rep : List Byte} (h : x.target = 11) (hlen : l.length = 36) (hzero : allZero ((l.drop 2).take 2) = true)
    (hslot : (l.getD 1 0).toNat < 16) (hsign : signReport (l.getD 0 0).toNat (l.getD 1 0).toNat (l.drop 4) u = some (rep, v)) :
    wholeAct x l u = ((stOk, 0), { v with trust := { v.trust with report := rep } }) := by
  simp only [wholeAct, h, attestAct]
  rw [if_pos ⟨hlen, hzero, hslot⟩, hsign]

end

/-! ## Gaps, and the seal of a table version -/

theorem xferGap_of_passed {s : State} {key : Nat} {z : Session} {x : Xfer} (hz : s.session key = some z) (hx : z.xfer = some x)
    (hgap : x.at_ + usUnits 10000 ≤ s.now) :
    xferGap key s = endXfer s.leadDie key x stGap (noValue s) (s.tick.bump F.DV_MGR_STAT_ABANDONED) := by
  simp only [xferGap, hz, Option.bind_some, hx]
  exact if_pos hgap

/-! ## The commands -/

section
variable (s : State) (pid : Nat)

theorem exec_signpost : exec (.signpost pid) s = .next (finish s (mgrRequest pid (isXfer 2) tableReq s)) :=
  run_wellFormed (i := .signpost pid) s _ rfl
theorem exec_rank : exec (.rank pid) s = .next (finish s (mgrRequest pid (isXfer 3) tableReq s)) :=
  run_wellFormed (i := .rank pid) s _ rfl
theorem exec_roadBook : exec (.roadBook pid) s = .next (finish s (mgrRequest pid (isXfer 4) (inOnly loadedAct) s)) :=
  run_wellFormed (i := .roadBook pid) s _ rfl
theorem exec_admission : exec (.admission pid) s = .next (finish s (mgrRequest pid (isXfer 6) (inOnly strayAdmission) s)) :=
  run_wellFormed (i := .admission pid) s _ rfl
theorem exec_dump : exec (.dump pid) s = .next (finish s (mgrRequest pid (isXfer 8) (outOnly dumpObj) s)) :=
  run_wellFormed (i := .dump pid) s _ rfl
theorem exec_registers : exec (.registers pid) s = .next (finish s (mgrRequest pid (isXfer 9) (outOnly registersObj) s)) :=
  run_wellFormed (i := .registers pid) s _ rfl
theorem exec_events : exec (.events pid) s = .next (finish s (mgrRequest pid (isXfer 10) (outOnly eventsObj) s)) :=
  run_wellFormed (i := .events pid) s _ rfl
theorem exec_attestTransfer : exec (.attestTransfer pid) s = .next (finish s (mgrRequest pid (isXfer 11) attestReq s)) :=
  run_wellFormed (i := .attestTransfer pid) s _ rfl
theorem exec_bridge : exec (.bridge pid) s = .next (finish s (mgrRequest pid (isXfer 12) (outOnly bridgeObj) s)) :=
  run_wellFormed (i := .bridge pid) s _ rfl
theorem exec_barrier : exec (.barrier pid) s = .next (finish s (mgrRequest pid (isXfer 13) (inOnly barrierAct) s)) :=
  run_wellFormed (i := .barrier pid) s _ rfl
theorem exec_mgrDataReceive : exec (.mgrDataReceive pid) s = .next (finish s (mgrData pid .plain earlyBytes wholeAct s)) :=
  run_wellFormed (i := .mgrDataReceive pid) s _ rfl
theorem exec_xferGapTimeout {key : Nat} (hkey : key < 4) : exec (.xferGapTimeout key) s = .next (finish s (xferGap key s)) :=
  run_wellFormed (i := .xferGapTimeout key) s _ (decide_eq_true hkey)
theorem exec_signpostSealDone : exec .signpostSealDone s = .next (finish s (postSealDone s)) :=
  run_wellFormed (i := .signpostSealDone) s _ rfl

end

/-! ## A transfer request as a command of its target -/

section
variable {s u : State} {pid t : Nat} {k : Pkt} {z : Session} {act : ReqAct} {c : Instr}
  (hc : exec c s = .next (finish s (mgrRequest pid (isXfer t) act s))) (h : Asked s pid k u)
  (hop : (reqOf k.p).op = 5 ∨ (reqOf k.p).op = 6) (ht : (reqOf k.p).addr % 256 = t)
include hc h hop ht

/-- The target takes the object in. -/
theorem exec_of_openIn {obj : ObjAct} (hz : (abandonXfer (reqOf k.p).key u).session (reqOf k.p).key = some z)
    (hact : act (reqOf k.p) k.p u = openIn obj (reqOf k.p) k.p u) :
    exec c s = .next (finish s (startXfer obj k z (reqOf k.p) k.p (abandonXfer (reqOf k.p).key u))) := by
  rw [hc, mgrRequest_of_asked h (isXfer_of_op hop ht), hact, replied_openIn hz]

/-- The target has no such direction, or the length lies outside the object. -/
theorem exec_of_wrongWay (hact : act (reqOf k.p) k.p u = wrongWay (reqOf k.p) k.p u) :
    exec c s = .next (finish s (refuseXfer k (abandonXfer (reqOf k.p).key u))) := by
  rw [hc, mgrRequest_of_asked h (isXfer_of_op hop ht), hact, replied_wrongWay]

/-- The target gives the range out. -/
theorem exec_of_sendObject {obj : MgrReq → Nat → Nat → State → Option (List Byte)}
    (hz : (abandonXfer (reqOf k.p).key u).session (reqOf k.p).key = some z)
    (hact : act (reqOf k.p) k.p u = sendObject obj (reqOf k.p) k.p u) :
    exec c s = .next (finish s
      ((obj (reqOf k.p) ((reqOf k.p).value % 2 ^ 32) ((reqOf k.p).value / 2 ^ 32) (abandonXfer (reqOf k.p).key u)).elim
        (refuseXfer k (abandonXfer (reqOf k.p).key u))
        (fun bytes => sendXfer k z (reqOf k.p) k.p bytes (abandonXfer (reqOf k.p).key u)))) := by
  rw [hc, mgrRequest_of_asked h (isXfer_of_op hop ht), hact, replied_sendObject hz]

end

/-- Settles O58: the requests by their targets' rules, MGR_DATA by the transfer it fits, then the gap and the seal. -/
theorem transfersComplete : Obligations.TransfersComplete := by
  refine ⟨?requests, ?piece, ?macFails, ?loaded, ?barrier, ?attest, ?gap, ?sealed⟩
  case requests =>
    intro s u pid k z h
    dsimp only
    intro hz
    refine ⟨fun hop => ?opIn, fun hop => ?opOut⟩
    case opIn =>
      exact ⟨fun ht hlen => (exec_of_openIn (exec_signpost s pid) h (.inl hop) ht hz (tableReq_in hop (by rwa [ht])) :),
        fun ht hlen => (exec_of_openIn (exec_rank s pid) h (.inl hop) ht hz (tableReq_in hop (by rwa [ht])) :),
        fun ht => (exec_of_openIn (exec_roadBook s pid) h (.inl hop) ht hz (inOnly_in hop) :),
        fun ht => (exec_of_openIn (exec_admission s pid) h (.inl hop) ht hz (inOnly_in hop) :),
        fun ht => (exec_of_openIn (exec_attestTransfer s pid) h (.inl hop) ht hz (attestReq_in hop) :),
        fun ht => (exec_of_openIn (exec_barrier s pid) h (.inl hop) ht hz (inOnly_in hop) :),
        fun ht hlen => (exec_of_wrongWay (exec_signpost s pid) h (.inl hop) ht (tableReq_refused (.inr (by rwa [ht]))) :),
        fun ht hlen => (exec_of_wrongWay (exec_rank s pid) h (.inl hop) ht (tableReq_refused (.inr (by rwa [ht]))) :),
        fun ht => (exec_of_wrongWay (exec_dump s pid) h (.inl hop) ht (outOnly_in hop) :),
        fun ht => (exec_of_wrongWay (exec_registers s pid) h (.inl hop) ht (outOnly_in hop) :),
        fun ht => (exec_of_wrongWay (exec_events s pid) h (.inl hop) ht (outOnly_in hop) :),
        fun ht => (exec_of_wrongWay (exec_bridge s pid) h (.inl hop) ht (outOnly_in hop) :)⟩
    case opOut =>
      refine ⟨fun ht => (exec_of_wrongWay (exec_signpost s pid) h (.inr hop) ht (tableReq_refused (.inl hop)) :),
        fun ht => (exec_of_wrongWay (exec_rank s pid) h (.inr hop) ht (tableReq_refused (.inl hop)) :),
        fun ht => (exec_of_wrongWay (exec_roadBook s pid) h (.inr hop) ht (inOnly_out hop) :),
        fun ht => (exec_of_wrongWay (exec_admission s pid) h (.inr hop) ht (inOnly_out hop) :),
        fun ht => (exec_of_wrongWay (exec_barrier s pid) h (.inr hop) ht (inOnly_out hop) :),
        fun ht => ?dump,
        fun ht => (exec_of_sendObject (exec_registers s pid) h (.inr hop) ht hz (outOnly_out hop) :),
        fun ht => (exec_of_sendObject (exec_events s pid) h (.inr hop) ht hz (outOnly_out hop) :),
        fun ht => ?report,
        fun ht => (exec_of_sendObject (exec_bridge s pid) h (.inr hop) ht hz (outOnly_out hop) :)⟩
      case dump =>
        rw [exec_of_sendObject (exec_dump s pid) h (.inr hop) ht hz (outOnly_out hop), dumpObj]
        generalize List.find? _ _ = found
        cases found <;> rfl
      case report =>
        rw [exec_of_sendObject (exec_attestTransfer s pid) h (.inr hop) ht hz (attestReq_out hop), reportObj]
        split <;> rfl
  case piece =>
    intro s v pid k z x hk hc hne hzs hz hx hfit hearly hcov
    rw [exec_mgrDataReceive, mgrData_of_fit hk hc (dataRowOf_unfinished hne hzs hx hfit hcov) hz hx hfit hearly]
    simp only [addPiece_len, hcov, Bool.false_eq_true, if_false]
  case macFails =>
    intro s pid k hk hc hne hzs hz
    rw [exec_mgrDataReceive, mgrData_no_session hk hc (dataRowOf_no_session hne hzs) hz]
  case loaded =>
    intro s u pid k x l h ht
    rw [exec_mgrDataReceive, mgrDataReceive_of_filled h (by omega), wholeAct_loaded ht]
  case barrier =>
    intro s u pid k x l b h ht hb
    rw [exec_mgrDataReceive, mgrDataReceive_of_filled h (by omega), wholeAct_barrier ht hb]
  case attest =>
    intro s u v pid k x l rep h ht hlen hzero hslot hsign
    rw [exec_mgrDataReceive, mgrDataReceive_of_filled h (by omega), wholeAct_attest ht hlen hzero hslot hsign]
  case gap =>
    intro s key z x hkey hz hx hgap
    rw [exec_xferGapTimeout s hkey, xferGap_of_passed hz hx (by rwa [usUnits, Nat.mul_comm])]
  case sealed =>
    intro s hbusy hver
    exact (exec_signpostSealDone s).trans (congrArg (fun t => Host.Outcome.next (finish s t)) (if_pos ⟨hbusy, hver⟩))

end Sys2Proof.Machine
end

section
/-! SUPPORT. Links: what the Time Keeper's answer to a lost link leaves of PH_LINK and of the count (R51). -/

namespace Sys2Proof.Machine

/-! ## What the Time Keeper leaves of a link -/

/-- `t` has the count of `s` and shows what `s` shows in PH_LINK. -/
structure SameLink (s t : State) : Prop where
  now : t.now = s.now
  fld : ∀ (f : Fld) (k : List Nat), f.reg = .PH_LINK → t.fld f k = s.fld f k

namespace SameLink

variable {s t : State}

theorem refl (s : State) : SameLink s s := ⟨rfl, fun _ _ _ => rfl⟩

theorem of_eq {u : State} (h : SameLink s t) (hflds : u.flds = t.flds) (hnow : u.now = t.now) : SameLink s u :=
  ⟨hnow.trans h.now, fun f k hf => (State.fld_of_flds_eq hflds f k).trans (h.fld f k hf)⟩

theorem setFld (h : SameLink s t) {g : Fld} (hg : g.reg ≠ .PH_LINK) (v : Nat) (l : List Nat) : SameLink s (t.setFld g v l) :=
  ⟨h.now, fun f k hf => (State.fld_setFld_ne t v (.inl fun e => hg (e.trans hf))).trans (h.fld f k hf)⟩

theorem forAll {α : Type} {f : α → State → State} (hf : ∀ a u, SameLink s u → SameLink s (f a u)) (l : List α) (h : SameLink s t) :
    SameLink s (t.forAll l f) := by
  induction l generalizing t with
  | nil => exact h
  | cons a l ih => exact ih (hf a t h)

theorem log (h : SameLink s t) (cls code source : Nat) (detail : List Byte) (field flags : Nat) :
    SameLink s (t.log cls code source detail field flags) :=
  ⟨(congrArg TimeState.count (State.log_time t ..)).trans h.now,
    fun f k hf => (State.log_fld t _ _ _ _ _ _ k (by rw [hf]; decide)).trans (h.fld f k hf)⟩

theorem showSuspends (h : SameLink s t) : SameLink s (Machine.showSuspends t) := by
  rw [showSuspends_eq]
  refine forAll (fun d u hu => ?_) dies h
  unfold showSuspend
  split
  · exact hu
  · exact hu.setFld (by decide) _ _

theorem raiseAlarm (h : SameLink s t) (d cause : Nat) : SameLink s (Machine.raiseAlarm d cause t) := by
  unfold Machine.raiseAlarm
  split
  · exact h
  · have hpending (l : Tab (List (Nat × Nat))) : SameLink s { t with road := { t.road with suspends := l } } := h.of_eq rfl rfl
    exact ((hpending _).setFld (by decide) _ _).showSuspends

theorem timeStop (h : SameLink s t) : SameLink s (Machine.timeStop t) := by
  refine forAll (fun d u hu => ?_) dies h
  dsimp only
  split
  · exact hu
  · exact ((hu.setFld (by decide) _ _).log ..).raiseAlarm ..

theorem requalify (h : SameLink s t) : SameLink s (Machine.requalify t) :=
  forAll (f := fun n u => u.setSrc n { u.srcRec n with good := 0, qualified := false }) (fun _ _ hu => hu.of_eq rfl rfl) (List.range 4) h

theorem setMode (h : SameLink s t) (m : TimeMode) : SameLink s (Machine.setMode m t) := by
  by_cases hm : t.time.mode = m
  · rwa [Machine.setMode, if_pos hm]
  · have hmode : SameLink s { t with time := { t.time with mode := m } } := h.of_eq rfl rfl
    have hshow : SameLink s (showMode m t) := (hmode.setFld (by decide) _ _).setFld (by decide) _ _
    have hlog : SameLink s (logMode m t) := by
      unfold logMode
      split
      · exact (hshow.log ..).requalify
      · exact hshow.log ..
    rw [setMode_of_ne t hm]
    split
    · exact hlog.timeStop
    · split
      · exact hlog.of_eq (rearmSwap_flds _) (congrArg TimeState.count (rearmSwap_time _))
      · exact hlog

theorem showBound (h : SameLink s t) : SameLink s (Machine.showBound t) := by
  unfold Machine.showBound
  split
  · dsimp only
    split
    · have hshown (hops b : Nat) : SameLink s (setBound b (t.setFld F.TK_STATUS_HOPS hops)) :=
        (h.setFld (by decide) _ _).setFld (by decide) _ _
      split
      · exact (hshown _ _).setMode _
      · exact hshown _ _
    · exact h
  · exact h

theorem selectSource (h : SameLink s t) (n : Nat) : SameLink s (Machine.selectSource n t) := by
  have hshown := ((h.setFld (g := F.TK_STATUS_SRC_KIND) (by decide) (t.srcKind n) []).setFld (g := F.TK_STATUS_SRC_INDEX) (by decide) n []).showBound
  unfold Machine.selectSource
  dsimp only
  split
  · exact hshown
  · split
    · exact hshown
    · exact (hshown.setFld (by decide) _ _).log ..

theorem enterHoldover (h : SameLink s t) : SameLink s (Machine.enterHoldover t) := by
  have hheld : SameLink s { t with time := { t.time with holdB0 := t.fld F.TK_STATUS_BOUND_PS, holdAt := some t.now } } := h.of_eq rfl rfl
  have hfree {u : State} (hu : SameLink s u) : SameLink s (freeRun u) := hu.of_eq rfl rfl
  exact (hfree ((hheld.setFld (by decide) _ _).setFld (by decide) _ _)).setMode _

theorem sourceGone (h : SameLink s t) (n : Nat) : SameLink s (Machine.sourceGone n t) := by
  unfold Machine.sourceGone
  dsimp only
  split
  · exact h.selectSource _
  · split
    · exact h.enterHoldover
    · split
      · exact h.selectSource _
      · exact (h.setFld (by decide) _ _).of_eq rfl rfl

/-- Losing the candidates on a half-port touches nothing of a link (R51). -/
theorem loseHalf (h : SameLink s t) (half : Nat) : SameLink s (Machine.loseHalf half t) := by
  refine forAll (fun n u hu => ?_) _ h
  have hlost : SameLink s (u.setSrc n { u.srcRec n with good := 0, bad := 0, qualified := false, delivering := false }) := hu.of_eq rfl rfl
  unfold loseSource
  dsimp only
  split
  · exact hlost.sourceGone n
  · exact hlost

end SameLink
end Sys2Proof.Machine
end

section
/-! SUPPORT. Links: entering DOWN and the other states, failed attempts (R87), failed blocks (R80), and the headers that arrival checks discard
(R127). -/

namespace Sys2Proof.Machine

/-! ## Counters and records -/

section
variable (s : State)

/-- A counter reads one more, up to its largest value. -/
theorem State.fld_bump_same (f : Fld) (k : List Nat) : (s.bump f k).fld f k = min (s.fld f k + 1) (2 ^ f.width - 1) :=
  (State.fld_setFld_same s f _ k).trans (Nat.mod_eq_of_lt (lt_of_le_of_lt (min_le_right _ _) (Nat.sub_lt (Nat.two_pow_pos _) Nat.one_pos)))

@[simp] theorem State.setHalf_fld (h : Nat) (r : HalfPort) (f : Fld) (k : List Nat) : (s.setHalf h r).fld f k = s.fld f k := rfl
@[simp] theorem State.setHalf_link (h h' : Nat) (r : HalfPort) : (s.setHalf h r).link h' = s.link h' := rfl
@[simp] theorem State.setHalf_now (h : Nat) (r : HalfPort) : (s.setHalf h r).now = s.now := rfl
@[simp] theorem State.setLane_now (h l : Nat) (r : Lane) : (s.setLane h l r).now = s.now := rfl
@[simp] theorem State.bump_now (f : Fld) (k : List Nat) (n : Nat) : (s.bump f k n).now = s.now := rfl
@[simp] theorem State.bump_half (f : Fld) (k : List Nat) (n h : Nat) : (s.bump f k n).half h = s.half h := rfl
@[simp] theorem State.bump_lane (f : Fld) (k : List Nat) (n h l : Nat) : (s.bump f k n).lane h l = s.lane h l := rfl

@[simp] theorem State.half_setLane (h l : Nat) (r : Lane) :
    (s.setLane h l r).half h = { s.half h with lanes := tabSet {} (s.half h).lanes [l] r } := State.half_setHalf_same ..

end

/-! ## Entering a state of *Link states* -/

section
variable (s : State) (h : Nat)

theorem leaveUp_of_not_up {s : State} {h : Nat} (hup : s.link h ≠ 4) : leaveUp h s = s := if_neg hup

theorem setLink_link {st : Nat} (hst : st < 8) : (setLink h st s).link h = st :=
  (State.fld_setFld_same _ F.PH_LINK_STATE st (hp h)).trans (Nat.mod_eq_of_lt hst)

variable {s h} in
/-- A link that was not in UP enters another state: only STATE changes in PH_LINK. -/
theorem setLink_fld {st : Nat} (hup : s.link h ≠ 4) {f : Fld} (hf : f.reg = .PH_LINK) (hlo : f.lo ≠ F.PH_LINK_STATE.lo) (k : List Nat) :
    (setLink h st s).fld f k = s.fld f k := by
  have hshow : SameLink s (showSilent h (st = 6) s) := ((SameLink.refl s).setFld (by decide) _ _).setFld (by decide) _ _
  have hrec (r : HalfPort) : SameLink s ((showSilent h (st = 6) s).setHalf h r) := hshow.of_eq rfl rfl
  simp only [setLink, leaveUp_of_not_up hup]
  rw [State.fld_setFld_ne _ _ (.inr (.inl (Ne.symm hlo)))]
  split
  · exact (hrec _).fld f k hf
  · exact (((hrec _).setFld (by decide) _ _).setFld (by decide) _ _).fld f k hf

variable {s h} in
theorem setLink_now {st : Nat} (hup : s.link h ≠ 4) : (setLink h st s).now = s.now := by
  simp only [setLink, leaveUp_of_not_up hup]
  split <;> rfl

/-- What follows the entry into DOWN, RELINK or SILENT touches neither the count nor PH_LINK. -/
theorem goDown_sameLink (st : Nat) : SameLink (setLink h st s) (goDown h st s) := by
  have hrec (r : HalfPort) : SameLink (setLink h st s) ((setLink h st s).setHalf h r) := (SameLink.refl _).of_eq rfl rfl
  have hkeys {u : State} (hu : SameLink (setLink h st s) u) : SameLink (setLink h st s) (dropKeys h u) := by
    have herased : SameLink (setLink h st s) (((u.setHalf h { u.half h with keys := {} }).setSecret h 0 none).setSecret h 1 none) :=
      hu.of_eq rfl rfl
    exact (herased.setFld (by decide) _ _).setFld (by decide) _ _
  have hforgot {u : State} (hu : SameLink (setLink h st s) u) : SameLink (setLink h st s) (resetExchange h (dropHandshake h u)) :=
    hu.of_eq rfl rfl
  exact (hforgot (hkeys (hrec _))).loseHalf h

theorem goDown_link {st : Nat} (hst : st < 8) : (goDown h st s).link h = st :=
  ((goDown_sameLink s h st).fld _ _ rfl).trans (setLink_link s h hst)

end

/-! ## A failed attempt (R87) -/

section
variable {s : State} {h : Nat}

/-- The effect of a counted failure of a link that was not in UP. -/
theorem attemptFailed_counted (hup : s.link h ≠ 4) (hfails : s.fld F.PH_LINK_TRAIN_FAILS (hp h) < 255) :
    (attemptFailed h true s).link h = 0 ∧
    (attemptFailed h true s).fld F.PH_LINK_TRAIN_FAILS (hp h) = s.fld F.PH_LINK_TRAIN_FAILS (hp h) + 1 ∧
    (if s.fld F.PH_LINK_TRAIN_FAILS (hp h) < 2 then ((attemptFailed h true s).half h).restartAt = some (s.now + 16000000)
     else ((attemptFailed h true s).half h).stayDown = true ∧ ((attemptFailed h true s).half h).restartAt = none) := by
  have hsame := goDown_sameLink s h 0
  have hnow : (goDown h 0 s).now = s.now := hsame.now.trans (setLink_now hup)
  have hlink : ((goDown h 0 s).bump F.PH_LINK_TRAIN_FAILS (hp h)).link h = 0 :=
    (State.fld_setFld_ne _ _ (.inr (.inl (by decide)))).trans (goDown_link s h (by decide))
  have hcount : ((goDown h 0 s).bump F.PH_LINK_TRAIN_FAILS (hp h)).fld F.PH_LINK_TRAIN_FAILS (hp h) = s.fld F.PH_LINK_TRAIN_FAILS (hp h) + 1 := by
    rw [State.fld_bump_same, hsame.fld _ _ rfl, setLink_fld hup rfl (by decide)]
    have hmax : 2 ^ F.PH_LINK_TRAIN_FAILS.width - 1 = 255 := by decide
    rw [hmax]
    omega
  simp only [attemptFailed, if_true, hcount]
  by_cases hthird : 3 ≤ s.fld F.PH_LINK_TRAIN_FAILS (hp h) + 1
  · rw [if_pos hthird, if_neg (by omega)]
    simp [hlink, hcount]
  · rw [if_neg hthird, if_pos (by omega)]
    simp [hlink, hcount, hnow]

theorem exec_phaseTimeout (hh : h < 16) (s : State) : exec (.phaseTimeout h) s = .next (finish s (phaseTimeout h s)) :=
  run_wellFormed (i := .phaseTimeout h) s _ (decide_eq_true hh)

theorem phaseTimeout_of_due (hst : s.link h = 1 ∨ s.link h = 2 ∨ s.link h = 3)
    (hdue : (s.half h).since + usUnits (phaseLimitUs (s.link h)) ≤ s.now) (htry : (s.half h).relinkTry = none) :
    phaseTimeout h s = attemptFailed h true (linkEvent h 0x02 0 [] s) := by
  simp [phaseTimeout, hst, hdue, htry]

theorem linkEvent_sameLink (code reason : Nat) (more : List Byte) (s : State) : SameLink s (linkEvent h code reason more s) :=
  (SameLink.refl s).log ..

end

/-- Settles O13: the timeout is a counted failed attempt, whose record is read off after the link went down. -/
theorem phaseTimeoutFailsTheAttempt : Obligations.PhaseTimeoutFailsTheAttempt := by
  intro s h hh hst hdue htry hfails
  have hsame := linkEvent_sameLink (h := h) 0x02 0 [] s
  have hlink : (linkEvent h 0x02 0 [] s).link h = s.link h := hsame.fld _ _ rfl
  have hcount := hsame.fld F.PH_LINK_TRAIN_FAILS (hp h) rfl
  have hfail := attemptFailed_counted (h := h) (s := linkEvent h 0x02 0 [] s) (by omega) (by omega)
  rw [hcount, hsame.now, ← phaseTimeout_of_due hst (by rwa [usUnits, Nat.mul_comm]) htry] at hfail
  refine ⟨_, exec_phaseTimeout hh s, ?_⟩
  rw [State.link, finish_fld_reg _ _ _ _ (by decide), finish_fld_reg _ _ _ _ (by decide)]
  exact hfail

/-! ## Failed blocks (R80) -/

/-- The loss is due by the lane's run with this block in it, or by the failures of the last microsecond with this one behind them. -/
theorem failedBlock_lossDue (s : State) (h l : Nat) :
    ((failedBlock h l s).half h).lossDue =
      ((s.half h).lossDue || decide (4 ≤ (s.lane h l).failRun + 1) ||
        decide (64 ≤ ((s.half h).failTimes.filter (fun t => decide (s.now < t + usUnits 1)) ++ [s.now]).length)) := by
  simp [failedBlock]

/-- Settles O16: a block more than three in a row is four, and one more than 63 within 1 µs is 64. -/
theorem failedBlocksMakeLossDue : Obligations.FailedBlocksMakeLossDue := by
  intro s h l
  refine ⟨State.fld_bump_same s F.LK_FEC_UNCORRECTABLE (hp h), ?_⟩
  rw [failedBlock_lossDue, List.length_append]
  simp only [List.length_singleton, Nat.reduceLeDiff]

/-! ## A packet's header arrives (R127, R130, R131) -/

section
variable {s u : State} {h : Nat} {p : Packet} {x : RxPacket}

theorem exec_packetArrival (hh : h < 16) (hwf : p.wellFormed = true) (s : State) :
    exec (.packetArrival h p) s = .next (finish s (packetArrival h p s)) :=
  run_wellFormed (i := .packetArrival h p) s _ (decide_eq_true ⟨hh, hwf⟩)

theorem packetArrival_of_headerComes (hc : HeaderComes s h p x u) :
    packetArrival h p s = noteHeader h x.pos (arrive h p u).1 (awaitedTag s u h x p) (arrive h p u).2 := by
  obtain ⟨hlink, heth, htyp, hfind, hbad, rfl⟩ := hc
  simp only [packetArrival, hlink, heth, htyp, hfind, hbad]
  rfl

@[simp] theorem noteHeader_fld (pos pid : Nat) (want : List Byte) (s : State) (f : Fld) (k : List Nat) :
    (noteHeader h pos pid want s).fld f k = s.fld f k := rfl

theorem arrive_discard {f : Fld} {k : List Nat} (hd : arrivalDecision u h p = .discard f k) :
    arrive h p u = holdRefused h p 0 (u.bump f k) := by
  rw [arrive, hd]

/-- A discard counts in its field, and changes neither a cell nor memory. -/
theorem packetArrival_of_discard {f : Fld} {k : List Nat} (hh : h < 16) (hwf : p.wellFormed = true) (hc : HeaderComes s h p x u)
    (hf : f.reg ≠ .DV_ALERT) (hd : arrivalDecision u h p = .discard f k) :
    ∃ t, exec (.packetArrival h p) s = .next t ∧ t.fld f k = min (u.fld f k + 1) (2 ^ f.width - 1) ∧ t.gran.cells = u.gran.cells ∧
      ∀ a, tabGet 0 t.mem a = tabGet 0 u.mem a := by
  refine ⟨_, exec_packetArrival hh hwf s, ?_⟩
  rw [packetArrival_of_headerComes hc, arrive_discard hd, finish_fld_reg _ _ _ _ hf, noteHeader_fld]
  exact ⟨State.fld_bump_same u f k, rfl, fun _ => rfl⟩

theorem mgrType_of_fieldless {t : Nat} (h : fieldless t = false) : mgrType t = false := by
  simp only [fieldless, mgrType, Bool.or_eq_false_iff] at h ⊢
  tauto

variable (hform : formatOk p = true) (hlocal : linkLocal p.h.typ = false) (hless : fieldless p.h.typ = false) (hmap : u.map1 h p.h.field = true)
include hform hlocal hless hmap

theorem arrivalDecision_of_no_time (hv : u.timeValid = false) : arrivalDecision u h p = .discard F.NI_DROP_A_NO_TIME [h / 2] := by
  simp [arrivalDecision, hform, hlocal, hless, hmap, hv, mgrType_of_fieldless hless]

variable (hv : u.timeValid = true) (hahead : u.ahead p.h = false)
include hv hahead

theorem arrivalDecision_of_aged (hage : u.aged p.h = true) : arrivalDecision u h p = .discard F.NI_DROP_A_AGED [h / 2] := by
  simp [arrivalDecision, hform, hlocal, hless, hmap, hv, hahead, hage, mgrType_of_fieldless hless]

theorem arrivalDecision_of_no_hops (hage : u.aged p.h = false) (htr : p.h.tr = 1) (hver : u.verUsable p.h.tv = true)
    (hdev : p.h.dstDevice ≠ u.device) (hhop : p.h.hop = 0) : arrivalDecision u h p = .discard F.LK_DROP_HOP_LIMIT (hp h) := by
  simp [arrivalDecision, hform, hlocal, hless, hmap, hv, hahead, hage, htr, hver, hdev, hhop, mgrType_of_fieldless hless]

end

/-- Settles O21: each of the three conditions is the discard of the check that finds it. -/
theorem discardsOnArrivalStoreNothing : Obligations.DiscardsOnArrivalStoreNothing := by
  intro s u h p x hh hwf hc hform hlocal hless hmap
  exact ⟨fun hv => packetArrival_of_discard hh hwf hc (by decide) (arrivalDecision_of_no_time hform hlocal hless hmap hv),
    fun hv hahead hage => packetArrival_of_discard hh hwf hc (by decide) (arrivalDecision_of_aged hform hlocal hless hmap hv hahead hage),
    fun hv hahead hage htr hver hdev hhop => packetArrival_of_discard hh hwf hc (by decide)
      (arrivalDecision_of_no_hops hform hlocal hless hmap hv hahead hage htr hver hdev hhop)⟩

end Sys2Proof.Machine
end

section
/-! SUPPORT. Links in TRAIN and ALIGN (R81 to R87): frames, taps, rows, and the commands that carry them. -/

namespace Sys2Proof.Machine

/-! ## Frames (R82) -/

@[simp] theorem length_beBytes (n v : Nat) : (beBytes n v).length = n := by
  induction n with
  | zero => rfl
  | succ n ih => simp [beBytes, ih]

@[simp] theorem length_prbsBytes (n st : Nat) : (prbsBytes n st).1.length = n := by
  induction n generalizing st with
  | zero => rfl
  | succ n ih => simp [prbsBytes, ih]

@[simp] theorem length_infoBytes (i : LinkInfo) : (infoBytes i).length = 16 := length_beBytes ..

theorem length_frameHead (control status : Nat) (i : LinkInfo) : (frameHead control status (infoBytes i)).length = 32 := by
  simp [frameHead]

/-- A frame begins with the marker. -/
theorem take_frameHead (control status : Nat) (info fill : List Byte) :
    (frameHead control status info ++ fill).take 8 = beBytes 8 0xFFFFFFFF00000000 := by
  simp [frameHead]

theorem beNat_marker : beNat (beBytes 8 0xFFFFFFFF00000000) = 0xFFFFFFFF00000000 := by decide

section
variable {s : State} {h l : Nat}

/-- The bytes of the frame that a lane sends now. -/
def nextFrame (s : State) (h l control : Nat) : List Byte :=
  frameHead control (statusOf (s.lane h l)) (infoBytes (ownInfo s h l)) ++ (prbsBytes 648 ((s.lane h l).fill.getD (0x1FFF - l))).1

theorem length_nextFrame (s : State) (h l control : Nat) : (nextFrame s h l control).length = 680 := by
  rw [nextFrame, List.length_append, length_frameHead, length_prbsBytes]

theorem sendFrame_out (hc : (s.lane h l).counted = false) (control : Nat) :
    (sendFrame h l control s).out = s.out ++ [.frameOut h l (nextFrame s h l control)] := by
  simp only [sendFrame, hc]
  rfl

/-! ## Frames and requests in TRAIN (R83, R84) -/

theorem trainingFrame_of_train {f : TrainFrame} {inv : Bool} {b : List Byte} (hl : l < s.laneCount h) (hin : frameIn f.bytes = some (inv, b))
    (hlink : s.link h = 1) : trainingFrame h l f s = trainFrame h l inv b f s := by
  simp [trainingFrame, hin, hl, hlink]

theorem tapUpdate_of_requests (hlink : s.link h = 1) (hpre : (s.lane h l).pendPreset = 0) :
    tapUpdate h l s = s.setLane h l
      (let m := moveTaps (s.lane h l).taps (s.lane h l).pend (s.lane h l).status
       { s.lane h l with taps := m.1, status := m.2, pend := [0, 0, 0, 0, 0] }) := by
  simp [tapUpdate, hlink, hpre]

theorem tapUpdate_of_preset (hlink : s.link h = 1) (hpre : (s.lane h l).pendPreset ≠ 0) :
    tapUpdate h l s = s.setLane h l { s.lane h l with
      taps := presetTaps (s.lane h l).pendPreset, status := [1, 1, 1, 1, 1], pend := [0, 0, 0, 0, 0], pendPreset := 0 } := by
  simp [tapUpdate, hlink, hpre]

theorem signalDetect_of_free (hed : s.edborHalf h = true) (hlink : s.link h = 0) (hstay : (s.half h).stayDown = false)
    (hwait : (s.half h).restartAt = none) : signalDetect h s = enterTrain h s := by
  simp [signalDetect, hed, hlink, hstay, hwait]

theorem trainRestart_of_due {t : Nat} (hwait : (s.half h).restartAt = some t) (hdue : t ≤ s.now) (hlink : s.link h = 0)
    (hed : s.edborHalf h = true) (hstay : (s.half h).stayDown = false) : trainRestart h s = enterTrain h s := by
  simp [trainRestart, hwait, hdue, hlink, hed, hstay]

end

section
variable (s : State) {h : Nat}

theorem exec_trainingFrame {l : Nat} {f : TrainFrame} (hwf : (Instr.trainingFrame h l f).wellFormed = true) :
    exec (.trainingFrame h l f) s = .next (finish s (trainingFrame h l f s)) := run_wellFormed (i := .trainingFrame h l f) s _ hwf
theorem exec_alignUnit {row : List AlignLane} (hwf : (Instr.alignUnit h row).wellFormed = true) :
    exec (.alignUnit h row) s = .next (finish s (alignUnit h row s)) := run_wellFormed (i := .alignUnit h row) s _ hwf
theorem exec_signalDetect (hh : h < 16) : exec (.signalDetect h) s = .next (finish s (signalDetect h s)) :=
  run_wellFormed (i := .signalDetect h) s _ (decide_eq_true hh)
theorem exec_trainRestart (hh : h < 16) : exec (.trainRestart h) s = .next (finish s (trainRestart h s)) :=
  run_wellFormed (i := .trainRestart h) s _ (decide_eq_true hh)
theorem exec_tapUpdate {l : Nat} (hh : h < 16) (hl : l < 16) : exec (.tapUpdate h l) s = .next (finish s (tapUpdate h l s)) :=
  run_wellFormed (i := .tapUpdate h l) s _ (decide_eq_true ⟨hh, hl⟩)

end

/-- Settles O12: each command by the conditions under which it acts, a frame sent by its parts. -/
theorem trainingCompletes : Obligations.TrainingCompletes := by
  refine ⟨?signal, ?agrees, ?differs, ?bytes, ?requests, ?preset, ?restart⟩
  case signal =>
    intro s h hh hed hlink hstay hwait
    rw [exec_signalDetect s hh, signalDetect_of_free hed hlink hstay hwait]
  case agrees =>
    intro s h l f inv b hwf hl hin hlink hinfo
    rw [exec_trainingFrame s hwf, trainingFrame_of_train hl hin hlink, trainFrame, if_neg (by simp [hinfo])]
  case differs =>
    intro s h l f inv b hwf hl hin hlink hinfo
    rw [exec_trainingFrame s hwf, trainingFrame_of_train hl hin hlink, trainFrame, if_pos hinfo]
  case bytes =>
    intro s h l c hc
    exact ⟨_, length_nextFrame s h l c, by rw [nextFrame, take_frameHead, beNat_marker], sendFrame_out hc c⟩
  case requests =>
    intro s h l hh hl hlink hpre
    rw [exec_tapUpdate s hh hl, tapUpdate_of_requests hlink hpre]
  case preset =>
    intro s h l hh hl hlink hpre
    rw [exec_tapUpdate s hh hl, tapUpdate_of_preset hlink hpre]
  case restart =>
    intro s h t hh hwait hdue hlink hed hstay
    rw [exec_trainRestart s hh, trainRestart_of_due hwait hdue hlink hed hstay]

/-! ## ALIGN (R85) -/

section
variable {s : State} {h : Nat}

/-- What an ALIGN row sent leaves of the link: its lanes, and what its receiver has found. -/
theorem sendAlignRow_keeps (s : State) (h : Nat) :
    (sendAlignRow h s).flds = s.flds ∧ ((sendAlignRow h s).half h).lanes = (s.half h).lanes ∧
      ((sendAlignRow h s).half h).readyRun = (s.half h).readyRun := by
  rw [sendAlignRow]
  split
  · exact ⟨rfl, rfl, rfl⟩
  · exact ⟨rfl, by simp, by simp⟩

theorem sendAlignRow_fld (s : State) (h : Nat) (f : Fld) (k : List Nat) : (sendAlignRow h s).fld f k = s.fld f k :=
  State.fld_of_flds_eq (sendAlignRow_keeps s h).1 f k

theorem sendAlignRow_laneCount (s : State) (h : Nat) : (sendAlignRow h s).laneCount h = s.laneCount h := by
  rw [State.laneCount, State.isWhole, sendAlignRow_fld]
  rfl

theorem sendAlignRow_logical (s : State) (h l : Nat) : (sendAlignRow h s).logical h l = s.logical h l := by
  simp only [State.logical, State.lane, (sendAlignRow_keeps s h).2.1]

theorem sendAlignRow_rowAligned (s : State) (h : Nat) (row : List AlignLane) : rowAligned (sendAlignRow h s) h row = rowAligned s h row := by
  simp only [rowAligned, sendAlignRow_laneCount, sendAlignRow_logical]

theorem sendAlignRow_lastSent (hsent : (s.half h).lastSent = false) :
    ((sendAlignRow h s).half h).lastSent = ((s.half h).deskewed && decide (16 ≤ (s.half h).readyRun)) := by
  simp [sendAlignRow, hsent]

/-- What a row that is deskewed leaves, in state `u` once this end's row has gone: its LAST, the run of RX_READY, and the scramblers. -/
def alignedRow (u : State) (h : Nat) (row : List AlignLane) : State :=
  let last := row.all (fun x => (unitArg x.unit).testBit 2)
  (u.setHalf h { u.half h with
    deskewed := true, readyRun := if row.all (fun x => (unitArg x.unit).testBit 3) then min 16 ((u.half h).readyRun + 1) else 0, lastRcvd := last,
    rxPos := 0, rowBlocks := [], scram := if last then (List.range (u.laneCount h)).map (fun n => ([n], scramStart n)) else [] }).setFld
    F.PH_LINK_SKEW_UNITS (rowSkew row) (hp h)

theorem alignedRow_link (u : State) (h : Nat) (row : List AlignLane) : (alignedRow u h row).link h = u.link h :=
  State.fld_setFld_ne _ _ (.inr (.inl (by decide)))

theorem alignedRow_lastRcvd (u : State) (h : Nat) (row : List AlignLane) :
    ((alignedRow u h row).half h).lastRcvd = row.all (fun x => (unitArg x.unit).testBit 2) :=
  congrArg HalfPort.lastRcvd (State.half_setHalf_same u h _)

theorem alignUnit_of_aligned {row : List AlignLane} (hlink : s.link h = 2) (hrcvd : (s.half h).lastRcvd = false) (hrow : rowAligned s h row = true) :
    alignUnit h row s = alignEnds h (alignedRow (sendAlignRow h s) h row) := by
  rw [alignUnit, if_neg (by simp [hlink, hrcvd])]
  simp only [sendAlignRow_rowAligned, hrow, Bool.true_and, if_true]
  rfl

theorem alignEnds_of_align (hlink : s.link h = 2) :
    alignEnds h s = if (s.half h).lastSent = true ∧ (s.half h).lastRcvd = true then alignDone h s else s := by
  simp [alignEnds, hlink]

end

/-- Settles O14: a deskewed row by its record, after which ALIGN ends where both directions have. -/
theorem alignRowCompletes : Obligations.AlignRowCompletes := by
  refine ⟨?row, fun s h => sendAlignRow_lastSent⟩
  intro s h row hwf hlink hrcvd hrow
  have hlink' : (alignedRow (sendAlignRow h s) h row).link h = 2 :=
    (alignedRow_link ..).trans ((sendAlignRow_fld s h _ _).trans hlink)
  rw [exec_alignUnit s hwf, alignUnit_of_aligned hlink hrcvd hrow, alignEnds_of_align hlink', alignedRow_lastRcvd]
  simp only [alignedRow, sendAlignRow_laneCount, (sendAlignRow_keeps s h).2.2]

end Sys2Proof.Machine
end

section
/-! SUPPORT. Links that carry packets: blocks and SEAL units (R78, R80, R97), the ways out of UP (R88, R90), and circuit relink (R105). -/

namespace Sys2Proof.Machine

/-! ## Blocks (R78, R80) -/

section
variable (s : State) {h : Nat}

theorem exec_blockReceive {l : Nat} {levels : List Nat} (hwf : (Instr.blockReceive h l levels).wellFormed = true) :
    exec (.blockReceive h l levels) s = .next (finish s (blockReceive h l levels s)) := run_wellFormed (i := .blockReceive h l levels) s _ hwf
theorem exec_linkLoss (hh : h < 16) (lost : Bool) : exec (.linkLoss h lost) s = .next (finish s (linkLoss h lost s)) :=
  run_wellFormed (i := .linkLoss h lost) s _ (decide_eq_true hh)
theorem exec_downUnitReceive {u : List Byte} (hh : h < 16) (hu : u.length = 64) :
    exec (.downUnitReceive h u) s = .next (finish s (downUnitReceive h u s)) :=
  run_wellFormed (i := .downUnitReceive h u) s _ (decide_eq_true ⟨hh, hu⟩)
theorem exec_sealUnit {u : List Byte} (hh : h < 16) (hu : u.length = 64) : exec (.sealUnit h u) s = .next (finish s (sealUnit h u s)) :=
  run_wellFormed (i := .sealUnit h u) s _ (decide_eq_true ⟨hh, hu⟩)
theorem exec_relinkSignal {found : List Nat} (hh : h < 16) (hf : ∀ e ∈ found, e < 8) :
    exec (.relinkSignal h found) s = .next (finish s (relinkSignal h found s)) :=
  run_wellFormed (i := .relinkSignal h found) s _ (decide_eq_true ⟨hh, hf⟩)
theorem exec_relinkTimeout (hh : h < 16) : exec (.relinkTimeout h) s = .next (finish s (relinkTimeout h s)) :=
  run_wellFormed (i := .relinkTimeout h) s _ (decide_eq_true hh)

end

section
variable {s : State} {h : Nat}

theorem takesBlocks_of_key_or_up (heth : s.isEth h = false) (hlink : s.link h = 3 ∨ s.link h = 4) : s.takesBlocks h = true := by
  simp [State.takesBlocks, heth, hlink]

/-! ## The ways out of UP (R80, R88, R90) -/

theorem linkLoss_of_due {lost : Bool} (hlink : s.link h = 4) (hdue : lost = true ∨ (s.half h).lossDue = true) :
    linkLoss h lost s = goDown h (if s.isCircuit h then 5 else 0) (linkEvent h 0x05 0 [] s) := if_pos ⟨hlink, hdue⟩

theorem downUnitReceive_of_down {u : List Byte} (hsilent : s.link h ≠ 6) (hdown : s.link h ≠ 0) (heth : s.isEth h = false) (hu : unitType u = 2) :
    downUnitReceive h u s = goDown h 0 (linkEvent h 0x03 (unitArg u) [] s) := by
  rw [downUnitReceive, if_neg (by simp [hsilent, hdown, heth, hu])]

theorem trainingFrame_of_up {l : Nat} {f : TrainFrame} (hl : l < s.laneCount h) (hin : (frameIn f.bytes).isSome = true) (heth : s.isEth h = false)
    (hlink : s.link h = 4) : trainingFrame h l f s = goDown h 0 (linkEvent h 0x06 0 [] s) := by
  obtain ⟨⟨inv, b⟩, hb⟩ := Option.isSome_iff_exists.mp hin
  simp [trainingFrame, hb, hl, hlink, heth]

/-! ## Circuit relink (R105) -/

theorem trainingFrame_of_relink {l : Nat} {f : TrainFrame} {inv : Bool} {b : List Byte} (hl : l < s.laneCount h)
    (hin : frameIn f.bytes = some (inv, b)) (hlink : s.link h = 5) : trainingFrame h l f s = relinkFrame h l inv b f s := by
  simp [trainingFrame, hin, hl, hlink]

/-- A relink frame of an entry that is ready is answered, and the last one takes the link to ALIGN under it. -/
theorem relinkFrame_of_entry {l e : Nat} {f : TrainFrame} {inv : Bool} {b : List Byte} (htry : (s.half h).relinkTry ≠ none)
    (hre : (frameSays b).info.relink = true)
    (hfind : (List.range 8).find? (fun e => relinkReady s h e && relinkNames s h e (frameSays b).info) = some e) :
    relinkFrame h l inv b f s =
      (let i := (frameSays b).info
       let u := sendFrame h l 0 (s.setLane h l { s.lane h l with info := some i, inverted := inv, wantPre := f.wantPre })
       let v := enterAlign h (showPartner h i (abandonRelay h [e] u))
       if countdownDone u h then v.setHalf h { v.half h with relinkTry := some e } else u) := by
  rw [relinkFrame, if_neg (by simpa using htry)]
  simp only [hre, if_true, hfind]

theorem relinkTimeout_of_due (hlink : s.link h = 5) (htry : (s.half h).relinkTry = none)
    (hdue : (s.half h).since + usUnits 10000 ≤ s.now) : relinkTimeout h s = goDown h 0 s :=
  if_pos ⟨hlink, by simp [htry], hdue⟩

end

/-- Settles O15: a link whose positions have begun takes the block, which is BLOCK_RECEIVE's definition from there. -/
theorem blockReceiveCompletes : Obligations.BlockReceiveCompletes := by
  intro s h l levels hwf hl heth hlink
  have htakes : ¬ ((!s.takesBlocks h) = true ∨ s.laneCount h ≤ l) := by simp [takesBlocks_of_key_or_up heth hlink, hl]
  exact (exec_blockReceive s hwf).trans (congrArg (fun t => Host.Outcome.next (finish s t)) (if_neg htakes))

/-- Settles O17: each way out of UP by its condition, and a SEAL unit by the list of those that blocks have brought. -/
theorem linkLeavesUp : Obligations.LinkLeavesUp := by
  refine ⟨?loss, ?downUnit, ?frame, ?sealUnit⟩
  case loss =>
    intro s h lost hh hlink hdue
    rw [exec_linkLoss s hh, linkLoss_of_due hlink hdue]
  case downUnit =>
    intro s h u hh hu hsilent hdown heth htype
    rw [exec_downUnitReceive s hh hu, downUnitReceive_of_down hsilent hdown heth htype]
  case frame =>
    intro s h l f hwf hl hin heth hlink
    rw [exec_trainingFrame s hwf, trainingFrame_of_up hl hin heth hlink]
  case sealUnit =>
    intro s h at_ u rest hh hu hlink heth htype hmin hmax hseals
    have hacts : ¬ (s.link h ≠ 4 ∨ s.isEth h = true ∨ unitType u ≠ 1 ∨ unitArg u < 1 ∨ 3 < unitArg u) := by
      simp [hlink, heth, htype]; omega
    have hunit := sealUnit.eq_1 h u s
    rw [if_neg hacts] at hunit
    simp only [hseals, reduceCtorEq, if_false] at hunit
    exact (exec_sealUnit s hh hu).trans (congrArg (fun t => Host.Outcome.next (finish s t)) hunit)

/-- Settles O18: the entry tried or named decides, and a timeout without one gives up. -/
theorem relinkCompletes : Obligations.RelinkCompletes := by
  refine ⟨?signal, ?frame, ?timeout⟩
  case signal =>
    intro s h found hh hf hlink
    exact (exec_relinkSignal s hh hf).trans (congrArg (fun t => Host.Outcome.next (finish s t)) (if_neg (not_not.mpr hlink)))
  case frame =>
    intro s h l e f inv b i hwf hl hin hi hlink htry hre hfind
    subst hi
    rw [exec_trainingFrame s hwf, trainingFrame_of_relink hl hin hlink, relinkFrame_of_entry htry hre hfind]
  case timeout =>
    intro s h hh hlink htry hdue
    rw [exec_relinkTimeout s hh, relinkTimeout_of_due hlink htry hdue]

end Sys2Proof.Machine
end

section
/-! SUPPORT. Ethernet mode (R107 to R111): the link, the bridge and the tunnels. -/

namespace Sys2Proof.Machine

section
variable (s : State) {h : Nat} (hh : h < 16)
include hh

theorem exec_ethLinkUp : exec (.ethLinkUp h) s = .next (finish s (ethLinkUp h s)) :=
  run_wellFormed (i := .ethLinkUp h) s _ (decide_eq_true hh)
theorem exec_ethLinkDown : exec (.ethLinkDown h) s = .next (finish s (ethLinkDown h s)) :=
  run_wellFormed (i := .ethLinkDown h) s _ (decide_eq_true hh)
theorem exec_ethFrameReceive (b : List Byte) : exec (.ethFrameReceive h b) s = .next (finish s (ethFrameReceive h b s)) :=
  run_wellFormed (i := .ethFrameReceive h b) s _ (decide_eq_true hh)
theorem exec_tunnelDatagram {g : Datagram} (hg : g.wellFormed = true) :
    exec (.tunnelDatagram h g) s = .next (finish s (tunnelDatagram h g s)) :=
  run_wellFormed (i := .tunnelDatagram h g) s _ (decide_eq_true ⟨hh, hg⟩)

end

theorem exec_macAgeExpire {vlan mac : Nat} (hv : vlan < 4096) (hm : mac < 2 ^ 48) (s : State) :
    exec (.macAgeExpire vlan mac) s = .next (finish s (macAgeExpire vlan mac s)) :=
  run_wellFormed (i := .macAgeExpire vlan mac) s _ (decide_eq_true ⟨hv, hm⟩)

section
variable {s : State} {h : Nat}

/-! ## The bridge (R108, R109) -/

/-- A frame that is too long only counts. -/
theorem ethFrameReceive_of_long {b : List Byte} (heth : s.isEth h = true) (hlink : s.link h = 4) (hlen : 9216 < b.length) :
    ethFrameReceive h b s =
      { s with bridge := { s.bridge with tooLong := tabSet 0 s.bridge.tooLong [h] (tabGet 0 s.bridge.tooLong [h] + 1) } } := by
  rw [ethFrameReceive, if_neg (by simp [heth, hlink]), if_pos hlen]

/-- A good frame of a VLAN of which the half-port is a member is bridged. -/
theorem ethFrameReceive_of_member {b : List Byte} {v : VlanRec} (heth : s.isEth h = true) (hlink : s.link h = 4) (hmin : 64 ≤ b.length)
    (hmax : b.length ≤ 9216) (hfcs : b.drop (b.length - 4) = leBytes 4 (crc32 (b.take (b.length - 4)))) (hen : s.fld F.LK_ETH_CFG_BRIDGE_EN = 1)
    (hbr : notBridged s h (ethFrameOf (b.take (b.length - 4))) = false) (hres : isReservedGroup (ethFrameOf (b.take (b.length - 4))).dst = false)
    (hv : s.bridge.vlans.find? (fun x => x.vlan = frameVlan s h (ethFrameOf (b.take (b.length - 4)))) = some v) (hm : v.member.testBit h = true) :
    ethFrameReceive h b s = bridgeFrame h v (ethFrameOf (b.take (b.length - 4))) s := by
  rw [ethFrameReceive, if_neg (by simp [heth, hlink]), if_neg (Nat.not_lt.mpr hmax)]
  dsimp only
  rw [if_neg (by rw [not_or, not_lt, not_not]; exact ⟨hmin, hfcs⟩), if_neg (by simp [hen, hbr, hres]), hv]
  exact if_pos hm

/-- What stays in the table of addresses is what is not the entry named, or was seen in time. -/
theorem mem_macs_macAgeExpire (vlan mac : Nat) (e : MacEntry) :
    e ∈ (macAgeExpire vlan mac s).bridge.macs ↔
      e ∈ s.bridge.macs ∧ ¬ (e.vlan = vlan ∧ e.mac = mac ∧ e.seen + s.fld F.LK_ETH_CFG_MAC_AGE_S * 16000000000 ≤ s.now) := by
  simp only [macAgeExpire, List.mem_filter, decide_eq_true_eq, Bool.and_eq_true, not_and, and_assoc]
  tauto

/-! ## Tunnels (R110, R111) -/

/-- A datagram under the phase in use, from the peer, with its tag and a new SEQ: its packet arrives with its tag known. -/
theorem tunnelDatagram_of_good {n : Nat} {g : Datagram} (hn : s.tunnelOf h = some n) (hlink : s.link h = 4) (hpeer : fromPeer s n g = true)
    (hlocal : linkLocal g.p.h.typ = false) (hkey : s.kpHeld h g.p.h.kp = true) (htag : g.tag = hopTag s h g.seq g.p)
    (hphase : g.p.h.kp = (s.half h).keys.rxKp) (hseq : staleSeq s h g.seq = false) :
    tunnelDatagram h g s =
      (let u := keepSeqs h (seenSeqs s h ++ [g.seq]) (takePhase h g.p.h.kp s)
       let p := { g.p with h := { g.p.h with tailback := if g.ecn = 3 ∧ g.p.h.tailback = 0 then 1 else g.p.h.tailback } }
       tagVerdict h (arrive h p u).1 true (arrive h p u).2) := by
  have hold : ((s.half h).keys.rxNew && decide (g.p.h.kp ≠ (s.half h).keys.rxKp)) = false := by simp [hphase]
  simp only [tunnelDatagram, hn]
  rw [if_neg (by simp [hlink, hpeer, hlocal]), if_neg (by simp [hkey, htag])]
  simp only [hold, Bool.not_false, hseq, Bool.and_false, Bool.false_eq_true, if_false]

end

/-- Settles O19: each command by the conditions under which it acts; of a table of addresses, what stays in it. -/
theorem ethernetCompletes : Obligations.EthernetCompletes := by
  refine ⟨?up, ?down, ?long, ?member, ?age, ?tunnel⟩
  case up =>
    intro s h hh heth hup hsilent
    rw [exec_ethLinkUp s hh, ethLinkUp, if_pos ⟨heth, hup, hsilent⟩]
  case down =>
    intro s h hh heth hlink
    rw [exec_ethLinkDown s hh, ethLinkDown, if_pos ⟨heth, hlink⟩]
  case long =>
    intro s h b hh heth hlink hlen
    rw [exec_ethFrameReceive s hh, ethFrameReceive_of_long heth hlink hlen]
  case member =>
    intro s h b v hh heth hlink hmin hmax hfcs hen hbr hres hv hm
    rw [exec_ethFrameReceive s hh, ethFrameReceive_of_member heth hlink hmin hmax hfcs hen hbr hres hv hm]
  case age =>
    intro s vlan mac hv hm
    refine ⟨_, exec_macAgeExpire hv hm s, fun e => ?_⟩
    rw [finish_bridge]
    exact mem_macs_macAgeExpire vlan mac e
  case tunnel =>
    intro s h n g hh hg hn hlink hpeer hlocal hkey htag hphase hseq
    rw [exec_tunnelDatagram s hh hg, tunnelDatagram_of_good hn hlink hpeer hlocal hkey htag hphase hseq]

end Sys2Proof.Machine
end

section
/-! SUPPORT. The link handshake and its keys (R86, R98, R346 to R348): how a message is taken, what each step sends, and rekeying. -/

namespace Sys2Proof.Machine

/-! ## A message is taken (R346, R349) -/

/-- Handshake `r` of half-port `h`, in KEY, takes its messages now. -/
structure TakesHs (s : State) (h : Nat) (r : HsRec) : Prop where
  link : s.link h = 3
  ready : s.trustReady = true
  hs : s.hsOn h = some r
  turn : s.hsTurn r.startedAt h = true

section
variable {s v : State} {h : Nat} {r : HsRec} {b : List Byte} {f : HsRec → List Byte → State → HsStep}

theorem linkMessage_of_takes (ht : TakesHs s h r) (b : List Byte) (f : HsRec → List Byte → State → HsStep) :
    linkMessage h (some b) f s = linkStep h (f r b s) s := by
  obtain ⟨hlink, hready, hhs, hturn⟩ := ht
  simp [linkMessage, State.keyPhase, hlink, hready, hhs, hturn]

/-- HELLO in KEY begins nothing anew. -/
theorem hello_of_key (hlink : s.link h = 3) (m : Option (List Byte)) :
    hello h m s = linkMessage h m (fun r b s => onHello r 0 (roleOk s h) b s) s := by
  simp [hello, hlink]

/-! ## What a step leaves (R346) -/

/-- A handshake without keys, or whose messages have not all passed, goes on. -/
theorem linkSettle_of_open (hs : s.hsOn h = some r) (hopen : r.keys = none ∨ r.over = false) : linkSettle h s = s := by
  rcases hopen with hnone | hover
  · simp [linkSettle, hs, hnone]
  · unfold linkSettle
    rw [hs]
    dsimp only
    split
    · simp [hover]
    · rfl

theorem linkSettle_of_over {tx rx : LinkSecret} (hs : s.hsOn h = some r) (hover : r.over = true) (hk : r.keys = some (tx, rx))
    (heth : s.isEth h = false) :
    linkSettle h s = installBoth h (enterUp h (((s.setHs h none).setSecret h 0 (some tx)).setSecret h 1 (some rx))) := by
  have heth' : (((s.setHs h none).setSecret h 0 (some tx)).setSecret h 1 (some rx)).isEth h = false := heth
  simp [linkSettle, hs, hk, hover, heth']

/-- A step that goes on with one message, of a handshake that is not at its end. -/
theorem linkStep_go {n : Nat} {m : List Byte} (hopen : r.keys = none ∨ r.over = false) :
    linkStep h (.go r [(n, m)] v) s = (sendHs h n 0 m (v.setHs h (some r))).setHs h (some r) :=
  linkSettle_of_open (State.hsOn_setHs_same _ h (some r)) hopen

/-! ## The steps -/

theorem onHello_of_new (hgot : 1 ∉ r.got) (hform : helloForm 0 b = true) (hnonce : helloNonce b ≠ helloNonce r.myHello) {port : Nat → Bool}
    (hrole : port (certKind ((helloChain b).take 5518)) = true) :
    onHello r 0 port b s =
      match chainCheck s ((helloChain b).take 5518) ((helloChain b).drop 5518) with
      | .error e => .abort e
      | .ok pk => takeHello r b pk (cacheIssuer ((helloChain b).drop 5518) s) := by
  simp only [onHello, hgot, hform, hnonce, hrole]
  rfl

theorem onKemct_of_turn {label : String} (h1 : 1 ∈ r.got) (h2 : 2 ∉ r.got) (hlen : b.length = 1088) :
    onKemct label r b s =
      (let r1 : HsRec := { r with peerKem := b, got := r.got ++ [2], sent := r.sent ++ [3] }
       let x := signWith label (transcript label r1) s
       .go r1 [(3, x.1)] x.2) := by
  rw [onKemct, if_neg (by simp [h1, h2]), if_neg (not_not.mpr hlen)]

theorem onFinish_of_turn {label : String} (h2 : 2 ∈ r.got) (h3 : 3 ∉ r.got) :
    onFinish label r b s =
      if sigOk r.partner label (transcript label r) b = true then
        .go { r with keys := some (pairOf r), got := r.got ++ [3], sent := r.sent ++ [4] } [(4, [])] s
      else .abort 0x04 := by
  rw [onFinish, if_neg (by simp [h2, h3])]

theorem onDone_of_turn (h1 : 1 ∈ r.got) (h4 : 4 ∉ r.got) : onDone r s = .go { r with got := r.got ++ [4] } [] s := by
  rw [onDone, if_neg (by simp [h1, h4])]

end

/-! ## What the link makes of them -/

section
variable {s : State} {h : Nat} {r : HsRec} {b : List Byte}

/-- HELLO of a chain that is accepted is answered with KEMCT. -/
theorem hello_of_takes (ht : TakesHs s h r) (hgot : 1 ∉ r.got) (hkeys : r.keys = none) (hform : helloForm 0 b = true)
    (hnonce : helloNonce b ≠ helloNonce r.myHello) (hrole : roleOk s h (certKind ((helloChain b).take 5518)) = true) :
    hello h (some b) s =
      match chainCheck s ((helloChain b).take 5518) ((helloChain b).drop 5518) with
      | .error e => abortActs h e (sendHs h 5 e [] s)
      | .ok pk =>
        let v := cacheIssuer ((helloChain b).drop 5518) s
        let ct := bytesOfLen 1088 (Config.kemCipher (helloKem b) v.fresh)
        let r1 : HsRec := { r with peerHello := b, partner := pk, kemDraw := v.fresh, myKem := ct, got := r.got ++ [1], sent := r.sent ++ [2] }
        (sendHs h 2 0 ct (v.tick.setHs h (some r1))).setHs h (some r1) := by
  rw [hello_of_key ht.link, linkMessage_of_takes ht, onHello_of_new hgot hform hnonce hrole]
  cases chainCheck s ((helloChain b).take 5518) ((helloChain b).drop 5518) with
  | error e => rfl
  | ok pk => exact linkStep_go (.inl hkeys)

theorem kemct_of_takes (ht : TakesHs s h r) (h1 : 1 ∈ r.got) (h2 : 2 ∉ r.got) (hkeys : r.keys = none) (hlen : b.length = 1088) :
    linkMessage h (some b) (onKemct "YFK LINK HS") s =
      (let r1 : HsRec := { r with peerKem := b, got := r.got ++ [2], sent := r.sent ++ [3] }
       let x := signWith "YFK LINK HS" (transcript "YFK LINK HS" r1) s
       (sendHs h 3 0 x.1 (x.2.setHs h (some r1))).setHs h (some r1)) := by
  rw [linkMessage_of_takes ht, onKemct_of_turn h1 h2 hlen]
  exact linkStep_go (.inl hkeys)

/-- FINISH that verifies forms the keys; DONE of the partner has yet to come. -/
theorem finish_of_takes (ht : TakesHs s h r) (h2 : 2 ∈ r.got) (h3 : 3 ∉ r.got) (h4 : 4 ∉ r.got) :
    linkMessage h (some b) (onFinish "YFK LINK HS") s =
      if sigOk r.partner "YFK LINK HS" (transcript "YFK LINK HS" r) b = true then
        let r1 : HsRec := { r with keys := some (pairOf r), got := r.got ++ [3], sent := r.sent ++ [4] }
        (sendHs h 4 0 [] (s.setHs h (some r1))).setHs h (some r1)
      else abortActs h 0x04 (sendHs h 5 0x04 [] s) := by
  rw [linkMessage_of_takes ht, onFinish_of_turn h2 h3]
  split
  · exact linkStep_go (.inr (by simp [HsRec.over, h4]))
  · rfl

/-- DONE after all that: both directions are installed and the link enters UP. -/
theorem done_of_takes {tx rx : LinkSecret} (ht : TakesHs s h r) (heth : s.isEth h = false) (h1 : 1 ∈ r.got) (h4 : 4 ∉ r.got) (hsent : 4 ∈ r.sent)
    (hkeys : r.keys = some (tx, rx)) :
    linkMessage h (some []) (fun r _ s => onDone r s) s =
      installBoth h (enterUp h ((((s.setHs h (some { r with got := r.got ++ [4] })).setHs h none).setSecret h 0 (some tx)).setSecret h 1 (some rx))) := by
  rw [linkMessage_of_takes ht, onDone_of_turn h1 h4]
  exact linkSettle_of_over (State.hsOn_setHs_same s h _) (by simp [HsRec.over, hsent]) hkeys heth

/-! ## Rekeying (R98) -/

theorem rekeyStart_of_due (hlink : s.link h = 4) (hv : (s.half h).keys.txValid = true)
    (hdue : 2 ^ 31 ≤ (s.half h).keys.txCount ∨ (s.half h).keys.txAt + usUnits 300000000 ≤ s.now) :
    rekeyStart h s = s.setFld F.LC_STATUS_REKEY_PENDING 1 (hp h) := if_pos ⟨hlink, hv, hdue⟩

theorem rotateSecret_of_some {dir : Nat} {x : LinkSecret} (hx : s.secret h dir = some x) :
    rotateSecret h dir s = s.setSecret h dir (some (nextSecret x.peer x.chain x.nextKey x.nextSalt)) := by
  rw [rotateSecret, hx]

theorem keyInstalled_of_pending {x : LinkSecret} (hlink : s.link h = 4) (hpend : s.fld F.LC_STATUS_REKEY_PENDING (hp h) = 1) (hx : s.secret h 0 = some x) :
    keyInstalled h s =
      (((s.setHalf h { s.half h with keys := { (s.half h).keys with txKp := 1 - (s.half h).keys.txKp, txCount := 0, txAt := s.now } }).setSecret h 0
        (some (nextSecret x.peer x.chain x.nextKey x.nextSalt))).setFld F.LC_STATUS_REKEY_PENDING 0 (hp h)).setFld F.PH_LINK_TX_KP
        (1 - (s.half h).keys.txKp) (hp h) := by
  have hx' (k : HalfPort) : (s.setHalf h k).secret h 0 = some x := hx
  rw [keyInstalled, if_pos ⟨hlink, hpend⟩]
  simp only [rotateSecret_of_some (hx' _)]

theorem keyRetire_of_due (hlink : s.link h = 4) (heth : s.isEth h = false) (hv : (s.half h).keys.txValid = true)
    (hdue : 2 ^ 32 ≤ (s.half h).keys.txCount ∨ (s.half h).keys.txAt + usUnits 600000000 ≤ s.now) : keyRetire h s = enterKey h s := by
  rw [keyRetire, if_pos ⟨hlink, hv, hdue⟩, if_neg (by simp [heth])]

theorem abortActs_of_link (heth : s.isEth h = false) (reason : Nat) :
    abortActs h reason s = if reason = 2 ∨ reason = 3 then attemptFailed h true s else refuseIdentity h reason s := by
  simp only [abortActs, heth, Bool.false_eq_true, if_false]

end

/-! ## The commands -/

section
variable (s : State) {h : Nat} (hh : h < 16)
include hh

theorem exec_hello (m : Option (List Byte)) : exec (.hello h m) s = .next (finish s (hello h m s)) :=
  run_wellFormed (i := .hello h m) s _ (decide_eq_true hh)
theorem exec_kemct (m : Option (List Byte)) : exec (.kemct h m) s = .next (finish s (linkMessage h m (onKemct "YFK LINK HS") s)) :=
  run_wellFormed (i := .kemct h m) s _ (decide_eq_true hh)
theorem exec_finish (m : Option (List Byte)) : exec (.finish h m) s = .next (finish s (linkMessage h m (onFinish "YFK LINK HS") s)) :=
  run_wellFormed (i := .finish h m) s _ (decide_eq_true hh)
theorem exec_done : exec (.done h) s = .next (finish s (linkMessage h (some []) (fun r _ s => onDone r s) s)) :=
  run_wellFormed (i := .done h) s _ (decide_eq_true hh)
theorem exec_abort {reason : Nat} (hr : reason < 256) :
    exec (.abort h reason) s = .next (finish s (if s.keyPhase h ∧ (s.hsOn h).isSome then abortActs h reason s else s)) :=
  run_wellFormed (i := .abort h reason) s _ (by simp [Instr.wellFormed, hh, hr])
theorem exec_rekeyStart : exec (.rekeyStart h) s = .next (finish s (rekeyStart h s)) :=
  run_wellFormed (i := .rekeyStart h) s _ (decide_eq_true hh)
theorem exec_keyInstalled : exec (.keyInstalled h) s = .next (finish s (keyInstalled h s)) :=
  run_wellFormed (i := .keyInstalled h) s _ (decide_eq_true hh)
theorem exec_keyRetire : exec (.keyRetire h) s = .next (finish s (keyRetire h s)) :=
  run_wellFormed (i := .keyRetire h) s _ (decide_eq_true hh)

end

/-- Settles O50: each message by the turn it comes in, and the keys by their age. -/
theorem linkHandshakeCompletes : Obligations.LinkHandshakeCompletes := by
  refine ⟨?hello, ?kemct, ?finish, ?done, ?abort, ?rekey, ?installed, ?retire⟩
  case hello =>
    intro s h r b hh hlink hready hhs hturn hgot hkeys hform hnonce hrole
    exact (exec_hello s hh _).trans (congrArg (fun t => Host.Outcome.next (finish s t))
      (hello_of_takes ⟨hlink, hready, hhs, hturn⟩ hgot hkeys hform hnonce hrole))
  case kemct =>
    intro s h r b hh hlink hready hhs hturn h1 h2 hkeys hlen
    rw [exec_kemct s hh, kemct_of_takes ⟨hlink, hready, hhs, hturn⟩ h1 h2 hkeys hlen]
  case finish =>
    intro s h r b hh hlink hready hhs hturn h2 h3 h4
    rw [exec_finish s hh, finish_of_takes ⟨hlink, hready, hhs, hturn⟩ h2 h3 h4]
  case done =>
    intro s h r tx rx hh hlink hready hhs hturn heth h1 h4 hsent hkeys
    rw [exec_done s hh, done_of_takes ⟨hlink, hready, hhs, hturn⟩ heth h1 h4 hsent hkeys]
  case abort =>
    intro s h reason r hh hr hphase hhs heth
    rw [exec_abort s hh hr, if_pos ⟨hphase, by simp [hhs]⟩, abortActs_of_link heth]
  case rekey =>
    intro s h hh hlink hv hdue
    rw [exec_rekeyStart s hh, rekeyStart_of_due hlink hv (by rwa [usUnits, Nat.mul_comm])]
  case installed =>
    intro s h x hh hlink hpend hx
    rw [exec_keyInstalled s hh, keyInstalled_of_pending hlink hpend hx]
  case retire =>
    intro s h hh hlink heth hv hdue
    rw [exec_keyRetire s hh, keyRetire_of_due hlink heth hv (by rwa [usUnits, Nat.mul_comm])]

end Sys2Proof.Machine
end

section
/-! SUPPORT. Registers whose write is an action of its own (R74, R120, R130, R184, R185, R192, R261, R419, R435): what each row makes of a write. -/

namespace Sys2Proof.Machine

/-! ## What each row makes of a write -/

section
variable (y : RegSpec) (q : List Nat) (v : Nat) (u : State)

/-- A half-port that is written 1 and exists is retrained; half 0 goes first. -/
theorem retrainWrite_eq (d : Nat) :
    retrainWrite y [d] v u =
      (let t := if v.testBit 0 = true ∧ u.halfExists (2 * d) = true then retrain (2 * d) u else u
       .ok (if v.testBit 1 = true ∧ t.halfExists (2 * d + 1) = true then retrain (2 * d + 1) t else t)) := by
  cases h0 : v.testBit 0 <;> cases h1 : v.testBit 1 <;> simp [retrainWrite, State.forAll, h0, h1]

theorem sealBank_eq :
    sealBank y q v u =
      if u.bankState (v % 2) = 1 then .ok ((u.setBankState (v % 2) 2).setFld F.RB_SEAL_BANK (v % 2)) else .error stState := by
  simp only [sealBank, sealBankWrite]
  by_cases h : u.bankState (v % 2) = 1 <;> simp [h]

theorem discardBank_eq :
    discardBank y q v u =
      (let t := ((u.setBankState (v % 2) 0).setBankBytes (v % 2) []).setFld F.RB_SEAL_BANK (v % 2)
       if u.bankState (v % 2) = 1 then .ok t
       else if u.bankState (v % 2) = 3 ∧ ¬(u.fld F.RB_BANKS_PENDING = 1 ∧ u.swapBank = v % 2) then .ok (setPendingSched t) else .error stState) := by
  simp only [discardBank, discardBankWrite]
  by_cases h1 : u.bankState (v % 2) = 1
  · simp [h1]
  · by_cases h3 : u.bankState (v % 2) = 3 ∧ ¬(u.fld F.RB_BANKS_PENDING = 1 ∧ u.swapBank = v % 2)
    · simp only [if_pos (Or.inr h3), if_neg h1, if_pos h3, if_pos h3.1]
    · simp only [if_neg (not_or.mpr ⟨h1, h3⟩), if_neg h1, if_neg h3]

variable {v u} in
/-- A launch that R68 bars is refused with what bars it. -/
theorem armWrite_of_barred (hbar : launchBar u v ≠ stOk) (f : State → Option State) : armWrite v f u = .error (launchBar u v) := if_pos hbar

variable {v u} in
/-- Else its precondition decides. -/
theorem armWrite_of_open (hbar : launchBar u v = stOk) (f : State → Option State) :
    armWrite v f u = (f u).elim (.error stState) .ok := by
  rw [armWrite, if_neg (not_not.mpr hbar)]
  cases f u <;> rfl

theorem swapAt_eq :
    swapAt y q v u =
      if launchBar u v ≠ stOk then .error (launchBar u v)
      else if v < u.now + 16000 * 1000 ∨ u.boundaryOk v = false then .error stRange
      else if u.bankState u.swapBank = 3 ∧ u.fld F.RB_BANKS_PENDING = 0 then
        .ok (showSuspends (((u.armGate .rbSwap v).setFld F.RB_BANKS_PENDING 1).setFld F.RB_SWAP_AT_COUNT v))
      else .error stState := by
  have hms : usUnits 1000 = 16000 * 1000 := Nat.mul_comm ..
  by_cases hbar : launchBar u v = stOk
  case neg => rw [swapAt, if_neg (fun h => hbar h.1), armWrite_of_barred hbar, if_pos hbar]
  by_cases hrange : v < u.now + 16000 * 1000 ∨ u.boundaryOk v = false
  case pos =>
    rw [swapAt, hms, if_pos ⟨hbar, by simpa only [Bool.not_eq_true'] using hrange⟩, if_neg (not_not.mpr hbar), if_pos hrange]
  obtain ⟨hlead, hstep⟩ := not_or.mp hrange
  rw [swapAt, hms, if_neg (fun h => hrange (by simpa only [Bool.not_eq_true'] using h.2)), armWrite_of_open hbar, swapWrite, hms,
    if_neg (not_not.mpr hbar), if_neg hrange]
  by_cases hst : u.bankState u.swapBank = 3 ∧ u.fld F.RB_BANKS_PENDING = 0
  · rw [if_pos ⟨Nat.not_lt.mp hlead, hst.1, hst.2, Bool.eq_true_of_not_eq_false hstep⟩, if_pos hst, Option.elim_some]
  · rw [if_neg (fun h => hst ⟨h.2.1, h.2.2.1⟩), if_neg hst, Option.elim_none]

theorem resumeAt_eq :
    resumeAt y q v u =
      (let t := (u.armGate .rbResume v).setFld F.RB_RESUME_AT_COUNT v
       if launchBar u v ≠ stOk then .error (launchBar u v)
       else if u.activeBankNo = none then .error stState
       else if u.isBoundary v = false then .error stRange
       else .ok { t with road := { t.road with resumeMask := t.fld F.RB_RESUME_MASK } }) := by
  by_cases hbar : launchBar u v = stOk
  · cases hb : u.activeBankNo with
    | none => simp [resumeAt, armWrite_of_open hbar, resumeWrite, hbar, hb]
    | some b => cases hstep : u.isBoundary v <;> simp [resumeAt, armWrite_of_open hbar, resumeWrite, hbar, hb, hstep]
  · simp [resumeAt, armWrite_of_barred hbar, hbar]

theorem switchAt_eq :
    switchAt y q v u =
      if launchBar u v ≠ stOk then .error (launchBar u v)
      else if u.verState u.otherVer = 2 ∧ u.fld F.SG_CTRL_PENDING = 0 then
        .ok (((u.armGate .sgSwitch v).setFld F.SG_CTRL_PENDING 1).setFld F.SG_SWITCH_AT_COUNT v)
      else .error stState := by
  by_cases hbar : launchBar u v = stOk
  · by_cases hst : u.verState u.otherVer = 2 ∧ u.fld F.SG_CTRL_PENDING = 0 <;> simp [switchAt, armWrite_of_open hbar, switchWrite, hbar, hst]
  · simp [switchAt, armWrite_of_barred hbar, hbar]

end

/-! ## The commands -/

section
variable (s : State) (pid : Nat)

theorem exec_retrain : exec (.retrain pid) s = .next (finish s (writeCmd .retrain retrainWrite pid s)) :=
  run_wellFormed (i := .retrain pid) s _ rfl
theorem exec_tlCtrlReset : exec (.tlCtrlReset pid) s = .next (finish s (writeCmd .tileReset tileResetWrite pid s)) :=
  run_wellFormed (i := .tlCtrlReset pid) s _ rfl
theorem exec_bankSeal : exec (.bankSeal pid) s = .next (finish s (writeCmd .bankSeal sealBank pid s)) :=
  run_wellFormed (i := .bankSeal pid) s _ rfl
theorem exec_bankDiscard : exec (.bankDiscard pid) s = .next (finish s (writeCmd .bankDiscard discardBank pid s)) :=
  run_wellFormed (i := .bankDiscard pid) s _ rfl
theorem exec_rbSwapAt : exec (.rbSwapAt pid) s = .next (finish s (writeCmd .swapAt swapAt pid s)) :=
  run_wellFormed (i := .rbSwapAt pid) s _ rfl
theorem exec_rbResumeAt : exec (.rbResumeAt pid) s = .next (finish s (writeCmd .resumeAt resumeAt pid s)) :=
  run_wellFormed (i := .rbResumeAt pid) s _ rfl
theorem exec_sgSwitchAt : exec (.sgSwitchAt pid) s = .next (finish s (writeCmd .switchAt switchAt pid s)) :=
  run_wellFormed (i := .sgSwitchAt pid) s _ rfl
theorem exec_niAgeAt : exec (.niAgeAt pid) s = .next (finish s (writeCmd .ageAt ageAt pid s)) :=
  run_wellFormed (i := .niAgeAt pid) s _ rfl
theorem exec_stepArm : exec (.stepArm pid) s = .next (finish s (writeCmd .stepArm stepArmWrite pid s)) :=
  run_wellFormed (i := .stepArm pid) s _ rfl
theorem exec_dmAck : exec (.dmAck pid) s = .next (finish s (writeCmd .dumpAck dumpAck pid s)) :=
  run_wellFormed (i := .dmAck pid) s _ rfl
theorem exec_signpostSeal : exec (.signpostSeal pid) s = .next (finish s (writeCmd .postSeal postSeal pid s)) :=
  run_wellFormed (i := .signpostSeal pid) s _ rfl
theorem exec_signpostDiscard : exec (.signpostDiscard pid) s = .next (finish s (writeCmd .postDiscard postDiscard pid s)) :=
  run_wellFormed (i := .signpostDiscard pid) s _ rfl

end

@[simp] theorem answered_ok (k : Pkt) (y : RegSpec) (q : List Nat) (u t : State) : answered k y q u (.ok t) = told k stOk (t.regWord y q) t := rfl

/-- A command that is the write asked for is answered with what its row makes of it. -/
theorem exec_of_askedWrite {s u : State} {pid : Nat} {k : Pkt} {y : RegSpec} {q : List Nat} {c : Instr} {w : WriteRow} {act : WriteAct}
    {x : Except Nat State} (h : AskedWrite s pid k u y q) (hc : exec c s = .next (finish s (writeCmd w act pid s)))
    (hw : writeRowOf y.reg (reqOf k.p).value = w) (hx : act y q (reqOf k.p).value u = x) :
    exec c s = .next (finish s (answered k y q u x)) := by
  rw [hc, writeCmd_of_askedWrite h hw, hx]

/-- Settles O57: each write belongs to its register's row, whose answer is the row's equation. -/
theorem registerActionsComplete : Obligations.RegisterActionsComplete := by
  intro s u pid k y q h
  refine ⟨?retrain, ?tileReset, ?bankSeal, ?bankDiscard, ?swap, ?resume, ?switch, ?age, ?stepArm, ?dumpAck, ?postSeal, ?postDiscard⟩
  case retrain =>
    rintro d hreg rfl hv
    rw [exec_of_askedWrite h (exec_retrain s pid) (by simp [writeRowOf, hreg, hv]) (retrainWrite_eq y _ u d), answered_ok]
  case tileReset =>
    rintro d t hreg rfl hv
    exact exec_of_askedWrite h (exec_tlCtrlReset s pid) (by simp [writeRowOf, hreg, hv]) rfl
  case bankSeal =>
    intro hreg hv
    exact exec_of_askedWrite h (exec_bankSeal s pid) (by simp [writeRowOf, hreg, hv]) (sealBank_eq y q _ u)
  case bankDiscard =>
    intro hreg hv
    exact exec_of_askedWrite h (exec_bankDiscard s pid) (by simp [writeRowOf, hreg, hv]) (discardBank_eq y q _ u)
  case swap =>
    intro hreg
    exact exec_of_askedWrite h (exec_rbSwapAt s pid) (by simp [writeRowOf, hreg]) (swapAt_eq y q _ u)
  case resume =>
    intro hreg
    exact exec_of_askedWrite h (exec_rbResumeAt s pid) (by simp [writeRowOf, hreg]) (resumeAt_eq y q _ u)
  case switch =>
    intro hreg
    exact exec_of_askedWrite h (exec_sgSwitchAt s pid) (by simp [writeRowOf, hreg]) (switchAt_eq y q _ u)
  case age =>
    intro hreg
    exact exec_of_askedWrite h (exec_niAgeAt s pid) (by simp [writeRowOf, hreg]) rfl
  case stepArm =>
    intro hreg hv
    exact exec_of_askedWrite h (exec_stepArm s pid) (by simp [writeRowOf, hreg, hv]) rfl
  case dumpAck =>
    intro hreg
    exact exec_of_askedWrite h (exec_dmAck s pid) (by simp [writeRowOf, hreg]) rfl
  case postSeal =>
    intro hreg hv
    exact exec_of_askedWrite h (exec_signpostSeal s pid) (by simp [writeRowOf, hreg, hv]) rfl
  case postDiscard =>
    intro hreg hseal hv
    exact exec_of_askedWrite h (exec_signpostDiscard s pid) (by simp [writeRowOf, hreg, hseal, hv]) rfl

end Sys2Proof.Machine
end

section
/-! SUPPORT. Chapter 4 at a tile NI: what a unit makes of a packet its output has passed to it (R128, R129), what the answer to a packet
leaves of tile memory, and delivery (R115, R135). -/

namespace Sys2Proof.Machine

/-! ## A packet is handed over (R128, R129) -/

section
variable {s : State} {pid : Nat} {k : Pkt}

theorem receive_of_handed {out : Nat} {types : List Nat} (h : Handed s pid k out) (ht : k.p.h.typ ∈ types) (f : Pkt → State → State) :
    receive pid out types f s = f k (taking s pid k) := by
  obtain ⟨hk, hst, hout, hcheck⟩ := h
  simp only [receive, hk]
  rw [if_pos ⟨hst, hout, ht⟩, if_pos hcheck]
  rfl

theorem ownedThen_of_owned (ho : s.ownsTile2 k.die k.dstTile k.p.h.field = true) (f : State → State) : ownedThen k f s = f s := if_pos ho

variable (s pid k)

@[simp] theorem taking_roleEpoch (d t : Nat) : (taking s pid k).roleEpoch d t = s.roleEpoch d t := rfl
@[simp] theorem taking_readMem (d t off n : Nat) : (taking s pid k).readMem d t off n = s.readMem d t off n := rfl
@[simp] theorem taking_mem : (taking s pid k).mem = s.mem := rfl

end

/-! ## What an answer leaves of tile memory (R158, R159) -/

section
variable (s : State)

@[simp] theorem updatePressure_mem (d : Nat) : (updatePressure d s).mem = s.mem := by
  unfold updatePressure
  dsimp only
  split
  · rfl
  · rw [State.log_mem, State.setFld_mem]

@[simp] theorem addDepth_mem (d out q n : Nat) : (addDepth s d out q n).mem = s.mem := by
  unfold addDepth
  split_ifs <;> rfl

@[simp] theorem chargeCells_mem (d o n : Nat) (managedToo : Bool) : (chargeCells s d o n managedToo).mem = s.mem := by
  unfold chargeCells
  dsimp only
  split_ifs <;> rfl

@[simp] theorem markCells_mem (d owner stamp : Nat) (cs : List Nat) (first : Bool) : (markCells d owner stamp cs first s).mem = s.mem := by
  induction cs generalizing first s with
  | nil => rfl
  | cons c cs ih => exact ih _ _

@[simp] theorem storePkt_mem (k : Pkt) : (storePkt k s).2.mem = s.mem := by
  unfold storePkt
  dsimp only
  split <;> rfl

@[simp] theorem setRun_mem (i : Nat) (r : SlotRun) : (s.setRun i r).mem = s.mem := rfl

@[simp] theorem storeSched_mem (p : Packet) (rec : RbRecord) (step k tile : Nat) (input : Input) (made : Bool) :
    (storeSched p rec step k tile input made s).2.mem = s.mem := by
  unfold storeSched
  dsimp only
  rw [storePkt_mem, setRun_mem, chargeCells_mem, markCells_mem]

@[simp] theorem hedgeFault_mem (d code field place : Nat) : (hedgeFault d code field place s).mem = s.mem := rfl

@[simp] theorem chosen_mem (d : Nat) (h : Hdr) (r : RouteTo) : (chosen d h r s).mem = s.mem := by
  unfold chosen advanceRot
  split_ifs <;> rfl

@[simp] theorem waitFor_mem (k : Pkt) (kind : WaitKind) : (waitFor k kind s).mem = s.mem := rfl

@[simp] theorem countNak_mem (d code : Nat) : (countNak d code s).mem = s.mem := by
  unfold countNak
  split <;> rfl

@[simp] theorem echoGone_mem (d unit : Nat) (h : Hdr) : (echoGone d unit h s).mem = s.mem := rfl

@[simp] theorem countRef_mem (d t ref : Nat) : (countRef d t ref s).mem = s.mem := by
  unfold countRef
  split <;> rfl

variable {s} {u : State}

theorem allocate_mem {d o n out q : Nat} {cs : List Nat} (h : allocate d o n out q s = some (cs, u)) : u.mem = s.mem := by
  unfold allocate at h
  dsimp only at h
  split_ifs at h
  obtain ⟨-, rfl⟩ := h
  simp

theorem storeAt_mem {p : Packet} {r : RouteTo} {input : Input} {made : Bool} {pid : Nat} (h : storeAt p r input made s = some (pid, u)) :
    u.mem = s.mem := by
  unfold storeAt at h
  dsimp only at h
  split at h
  · cases h
  · next cs v hv =>
    obtain rfl := congrArg Prod.snd (Option.some.inj h)
    rw [storePkt_mem, allocate_mem hv]

/-- What a device makes is stored, waits or is discarded; none of it touches memory. -/
theorem launch_mem {d : Nat} {p : Packet} {input : Input} {kind : WaitKind} {handoff : Bool} (h : launch d p input kind handoff s = .ok u) :
    u.mem = s.mem := by
  unfold launch at h
  dsimp only at h
  split at h
  case isTrue =>
    split at h <;> cases h <;> simp
  case isFalse =>
    split at h
    case h_1 => cases h; rfl
    case h_2 => cases h
    case h_3 r hroute =>
      split at h
      · cases h
      split at h
      · cases h
      split at h
      · cases h; simp
      split at h
      case h_1 v hfound =>
        obtain ⟨-, hstored⟩ := Option.ite_none_left_eq_some.mp hfound
        cases h
        rw [← chosen_mem s d p.h r, ← storeAt_mem hstored]
        split <;> rfl
      case h_2 => cases h; simp

theorem sendResponse_mem (d : Nat) (p : Packet) (input : Input) : (sendResponse d p input s).mem = s.mem := by
  unfold sendResponse
  split
  · rfl
  · split
    · rfl
    · split
      · next hlaunch => exact launch_mem hlaunch
      all_goals rfl

theorem sendNak_mem (d : Nat) (p : Packet) (code role : Nat) (input : Input) : (sendNak d p code role input s).mem = s.mem := by
  unfold sendNak
  split
  · rfl
  · exact sendResponse_mem ..

theorem refuse_mem (d unit : Nat) (p : Packet) (code role : Nat) (input : Input) : (refuse d unit p code role input s).mem = s.mem := by
  unfold refuse
  dsimp only
  rw [sendNak_mem]
  split_ifs <;> simp

end

/-! ## Windows and references (R115, R233) -/

section
variable {s : State} {k : Pkt} {d t ref n w off ref a : Nat} {bytes : List Byte}

/-- Only a reference of another generation is counted, and that one is refused. -/
theorem countRef_of_refSlot (h : refSlot s d t ref = some n) : countRef d t ref s = s := by
  unfold refSlot at h
  refine if_neg ?_
  rintro ⟨hnone, hres, hgen⟩
  rw [if_neg hnone, if_neg (fun hc => hgen hc.2)] at h
  cases h

theorem countRef_windowAt (ref off len : Nat) (write : Bool) : windowAt (countRef d t ref s) d t w off len write = windowAt s d t w off len write := by
  have hwin (f : Fld) (l : List Nat) (hf : f.reg = .NI_WINDOW) : (countRef d t ref s).fld f l = s.fld f l := by
    unfold countRef
    split
    · exact State.fld_setFld_ne s _ (.inl (by rw [hf]; decide))
    · rfl
  simp only [windowAt, hwin F.NI_WINDOW_BASE_BLK _ rfl, hwin F.NI_WINDOW_LENGTH_BLK _ rfl, hwin F.NI_WINDOW_RD _ rfl, hwin F.NI_WINDOW_WR _ rfl]

/-! ## Requests at a tile (R128, R135) -/

theorem deliverWrite_of_granted (hw : windowAt s k.die k.dstTile w off bytes.length true = some a) (hr : refSlot s k.die k.dstTile ref = some n)
    (ha : s.aged k.p.h = false) :
    deliverWrite k w off ref bytes true s =
      sendAck k.die k.dstTile k.p (.tile k.die k.dstTile) (creditRef k.die k.dstTile n false (commit k.die k.dstTile a bytes s)) := by
  simp [deliverWrite, countRef_of_refSlot hr, hw, hr, ha]

theorem deliverWrite_of_refused {aligned : Bool} (h : aligned = true → windowAt s k.die k.dstTile w off bytes.length true = none) :
    deliverWrite k w off ref bytes aligned s = refuse k.die k.dstTile k.p 4 0 (.tile k.die k.dstTile) (countRef k.die k.dstTile ref s) := by
  have hnone : (if aligned then windowAt s k.die k.dstTile w off bytes.length true else none) = none := by
    split
    · next ht => exact h ht
    · rfl
  simp only [deliverWrite, countRef_windowAt, hnone]

theorem deliverGet_of_granted (hoff : k.p.pay 1 5 % 64 = 0) (hback : k.p.pay 9 5 % 64 = 0)
    (hw : windowAt s k.die k.dstTile (k.p.pay 0 1) (k.p.pay 1 5) (k.p.pay 6 2 * 64) false = some a) (ha : s.aged k.p.h = false) :
    deliverGet k s =
      answer k.die k.dstTile k.p 0x81 1 (k.p.pay 6 2) (dataBody (k.p.pay 8 1) (k.p.pay 9 5) (k.p.pay 14 4) 0 0 0 0 0 0)
        (s.readMem k.die k.dstTile a (k.p.pay 6 2 * 64)) (.tile k.die k.dstTile) s := by
  simp [deliverGet, hoff, hback, hw, ha]

variable (ho : s.ownsTile2 k.die k.dstTile k.p.h.field = true)
include ho

theorem deliver_of_other_epoch (he : k.p.h.roleEpoch ≠ s.roleEpoch k.die k.dstTile) :
    deliver k s = refuse k.die k.dstTile k.p 2 (s.roleEpoch k.die k.dstTile) (.tile k.die k.dstTile) s := by
  simp [deliver, ownedThen_of_owned ho, he]

variable (he : k.p.h.roleEpoch = s.roleEpoch k.die k.dstTile)
include he

theorem deliver_getReq (ht : k.p.h.typ = 0x01) : deliver k s = deliverGet k s := by
  simp [deliver, ownedThen_of_owned ho, he, ht]

theorem deliver_putShort (ht : k.p.h.typ = 0x02) :
    deliver k s = deliverWrite k (k.p.pay 0 1) (k.p.pay 1 5) (k.p.pay 8 4) ((k.p.body.drop 16).take (k.p.pay 6 1))
      (oneBlock (k.p.pay 1 5) (k.p.pay 6 1)) s := by
  simp [deliver, ownedThen_of_owned ho, he, ht]

theorem deliver_data (ht : k.p.h.typ ∈ [0x80, 0x83, 0x85]) :
    deliver k s = deliverWrite k k.p.window k.p.offset k.p.waybillRef k.p.data (k.p.offset % 64 = 0 && mxWhole k.p) s := by
  simp only [List.mem_cons, List.not_mem_nil, or_false] at ht
  rcases ht with ht | ht | ht <;> simp [deliver, ownedThen_of_owned ho, he, ht]

end

theorem mem_requests_of_data {n : Nat} (h : n ∈ [0x80, 0x83, 0x85]) : n ∈ [0x01, 0x02, 0x80, 0x83, 0x85] :=
  List.mem_cons_of_mem _ (List.mem_cons_of_mem _ h)

theorem exec_tileDelivery (pid : Nat) (s : State) :
    exec (.tileDelivery pid) s = .next (finish s (receive pid 2 [0x01, 0x02, 0x80, 0x83, 0x85] deliver s)) :=
  run_wellFormed (i := .tileDelivery pid) s _ rfl

theorem exec_tileDelivery_of_handed {s : State} {pid : Nat} {k : Pkt} (h : Handed s pid k 2) (ht : k.p.h.typ ∈ [0x01, 0x02, 0x80, 0x83, 0x85]) :
    exec (.tileDelivery pid) s = .next (finish s (deliver k (taking s pid k))) := by
  rw [exec_tileDelivery, receive_of_handed h ht]

/-- Settles O26: the role epoch chooses between a refusal and what the packet's type asks, and an answer leaves memory alone. -/
theorem tileDeliveryCompletes : Obligations.TileDeliveryCompletes := by
  refine ⟨?data, ?short, ?get, ?epoch, ?window⟩
  case data =>
    intro s pid a n k h ht ho he hoff hmx hw hr ha
    rw [exec_tileDelivery_of_handed h (mem_requests_of_data ht), deliver_data (s := taking s pid k) ho he ht, hoff, hmx]
    change Host.Outcome.next (finish s (deliverWrite _ _ _ _ _ true _)) = _
    rw [deliverWrite_of_granted (s := taking s pid k) hw hr ha]
  case short =>
    intro s pid a n k h ht ho he hblock hw hr ha
    rw [exec_tileDelivery_of_handed h (by simp [ht]), deliver_putShort (s := taking s pid k) ho he ht, oneBlock, decide_eq_true hblock,
      deliverWrite_of_granted (s := taking s pid k) hw hr ha]
  case get =>
    intro s pid a k h ht ho he hoff hback hw ha
    rw [exec_tileDelivery_of_handed h (by simp [ht]), deliver_getReq (s := taking s pid k) ho he ht,
      deliverGet_of_granted (s := taking s pid k) hoff hback hw ha, taking_readMem]
  case epoch =>
    intro s pid k h ht ho he
    rw [exec_tileDelivery_of_handed h ht, deliver_of_other_epoch (s := taking s pid k) ho he, taking_roleEpoch]
  case window =>
    intro s pid k h ht ho he hbad
    have hwin : (decide (k.p.offset % 64 = 0) && mxWhole k.p) = true →
        windowAt (taking s pid k) k.die k.dstTile k.p.window k.p.offset k.p.data.length true = none := by
      intro hgood
      obtain ⟨hoff, hmx⟩ : k.p.offset % 64 = 0 ∧ mxWhole k.p = true := by simpa using hgood
      exact (hbad.resolve_left (not_not.mpr hoff)).resolve_left (by simp [hmx])
    refine ⟨_, ?_, rfl, fun a => ?_⟩
    · rw [exec_tileDelivery_of_handed h (mem_requests_of_data ht), deliver_data (s := taking s pid k) ho he ht, deliverWrite_of_refused hwin]
    · rw [finish_mem, refuse_mem, countRef_mem, taking_mem]

end Sys2Proof.Machine
end

section
/-! SUPPORT. A packet from its header to its queue: what its arrival stores or holds (R127, R159), the verdict of its tag (R99, R143), and when
it is linked (R151). -/

namespace Sys2Proof.Machine

section
variable {s u v : State} {h pid : Nat} {p q : Packet} {r : RouteTo} {x : RxPacket} {k : Pkt} {tag : List Byte}

/-! ## Arrival (R127) -/

theorem arrive_of_route (hd : arrivalDecision u h p = .route q r)
    (hs : storeAt q r (.half h) false (chosen (h / 2) q.h r u) = some (pid, v)) : arrive h p u = (pid, v) := by
  simp only [arrive, hd, hs]

theorem arrive_of_nak {c : Nat} (hd : arrivalDecision u h p = .nak c) : arrive h p u = holdRefused h p c u := by
  simp only [arrive, hd]

/-! ## The tag of a packet (R99, R143) -/

theorem tagVerdict_of_fail (hk : s.pkt pid = some k) : tagVerdict h pid false s = cipherFail h (discardPkt pid (2 + h % 2) s) := by
  simp [tagVerdict, hk]

/-- Only a refusal with a NAK code is answered. -/
theorem tagVerdict_of_refused {c : Nat} (hk : s.pkt pid = some k) (hst : k.stage = .refused c) (hc : c ≠ 0) :
    tagVerdict h pid true s = sendNak (h / 2) k.p c 0 .mgmt (countNak k.die c (s.setPkt pid none)) := by
  obtain ⟨c, rfl⟩ := Nat.exists_eq_succ_of_ne_zero hc
  simp [tagVerdict, hk, hst]

theorem tagVerdict_of_filling (hk : s.pkt pid = some k) (hst : k.stage = .filling) :
    tagVerdict h pid true s = eligible pid (s.setPkt pid (some { k with tagOk := true })) := by
  simp [tagVerdict, hk, hst]

/-! ## Eligibility (R143, R151) -/

theorem eligible_of_written (hk : s.pkt pid = some k) (hst : k.stage = .filling) (htag : k.tagOk = true) (hw : k.cells.length ≤ k.written)
    (hrb : k.rbSlot = none) : eligible pid s = linkInput k.input (s.setPkt pid (some { k with stage := .ready })) := by
  simp [eligible, makeReady, hk, hst, htag, hw, hrb]

theorem packetEligible_of_made (hrx : s.rxOf pid = none) : packetEligible pid tag s = eligible pid s := by
  simp [packetEligible, hrx]

/-- The last unit of a data packet has come, and none of its blocks failed: its tag is compared with the one awaited. -/
theorem packetEligible_of_received (hrx : s.rxOf pid = some (h, x)) (hc : x.control = false) (hl : x.left = 0) (hb : x.bad = false) :
    packetEligible pid tag s = tagVerdict h pid (decide (tag = x.want)) (removeRx h x.pos s) := by
  simp [packetEligible, hrx, hc, hl, hb]

@[simp] theorem removeRx_pkt (pos : Nat) : (removeRx h pos s).pkt pid = s.pkt pid := rfl

theorem exec_packetEligible (htag : tag.length = 16) (s : State) :
    exec (.packetEligible pid tag) s = .next (finish s (packetEligible pid tag s)) :=
  run_wellFormed (i := .packetEligible pid tag) s _ (decide_eq_true htag)

end

/-- Settles O20: an arrival carries out its decision, and eligibility the verdict of the tag on what the arrival left. -/
theorem packetsAreStoredAndLinked : Obligations.PacketsAreStoredAndLinked := by
  refine ⟨?stored, ?held, ?made, ?failed, ?answered, ?passed⟩
  case stored =>
    intro s u v h pid p q r x hh hwf hc hd hs
    rw [exec_packetArrival hh hwf, packetArrival_of_headerComes hc, arrive_of_route hd hs]
  case held =>
    intro s u h c p x hh hwf hc hd
    rw [exec_packetArrival hh hwf, packetArrival_of_headerComes hc, arrive_of_nak hd]
  case made =>
    intro s pid tag k htag hrx hk hst hok hw hrb
    rw [exec_packetEligible htag, packetEligible_of_made hrx, eligible_of_written hk hst hok hw hrb]
  case failed =>
    intro s h pid tag x k htag hrx hc hl hb hk hne
    rw [exec_packetEligible htag, packetEligible_of_received hrx hc hl hb, decide_eq_false hne, tagVerdict_of_fail ((removeRx_pkt _).trans hk)]
  case answered =>
    intro s h pid c x k hwant hrx hc hl hb hk hst hcode
    rw [exec_packetEligible hwant, packetEligible_of_received hrx hc hl hb, decide_eq_true rfl,
      tagVerdict_of_refused ((removeRx_pkt _).trans hk) hst hcode]
  case passed =>
    intro s h pid x k hwant hrx hc hl hb hk hst
    rw [exec_packetEligible hwant, packetEligible_of_received hrx hc hl hb, decide_eq_true rfl,
      tagVerdict_of_filling ((removeRx_pkt _).trans hk) hst]

end Sys2Proof.Machine
end

section
/-! SUPPORT. The tag table of a tile NI: responses and NAKs by the tag they name, the timers of a tag (R132 to R134), and the echoes and rates of
its flows (R102, R103). -/

namespace Sys2Proof.Machine

/-! ## Echoes a packet carries or owes (R102) -/

section
variable {s : State} {k : Pkt}

theorem takeEcho_of_none (h : k.p.h.tailback ≠ 2) : takeEcho k s = s := if_neg h

theorem noteMark_of_unmarked {d unit : Nat} {p : Packet} (h : p.h.tailback ≠ 1) : noteMark d unit p s = s :=
  if_neg fun hmarked => h hmarked.2.1

variable (s) (d unit : Nat) (p : Packet)

/-- Owing an echo changes no register and no tag. -/
theorem noteMark_keeps : (noteMark d unit p s).flds = s.flds ∧ (noteMark d unit p s).time = s.time ∧ ∀ e t i, (noteMark d unit p s).tagOf e t i = s.tagOf e t i := by
  unfold noteMark
  dsimp only
  split_ifs <;> exact ⟨rfl, rfl, fun _ _ _ => rfl⟩

@[simp] theorem noteMark_tagOf (e t i : Nat) : (noteMark d unit p s).tagOf e t i = s.tagOf e t i := (noteMark_keeps s d unit p).2.2 e t i

@[simp] theorem noteMark_aged (h : Hdr) : (noteMark d unit p s).aged h = s.aged h := by
  obtain ⟨hflds, htime, -⟩ := noteMark_keeps s d unit p
  rw [State.aged, State.aged, State.ageLimitNs, State.ageLimitNs, State.fld_of_flds_eq hflds, State.now, State.now, htime]

end

/-! ## What a tag makes of a response (R132) -/

section
variable {s : State} {k : Pkt} {f : Nat → TagRec → State → State}

theorem matchTag_of_other_epoch (he : (s.tagOf k.die k.dstTile k.p.h.tagIndex).epoch ≠ k.p.h.tagEpoch) :
    matchTag k f s = s.bump F.NI_TAG_STAT_STALE [k.die, k.dstTile] := by
  simp [matchTag, he]

theorem matchTag_of_answered (he : (s.tagOf k.die k.dstTile k.p.h.tagIndex).epoch = k.p.h.tagEpoch)
    (hst : (s.tagOf k.die k.dstTile k.p.h.tagIndex).st = .opened)
    (hans : answers k.p.h.typ (((s.tagOf k.die k.dstTile k.p.h.tagIndex).req.map (fun q => q.h.typ)).getD 0) = true) :
    matchTag k f s = f k.p.h.tagIndex (s.tagOf k.die k.dstTile k.p.h.tagIndex) s := by
  simp [matchTag, he, hst, hans]

theorem takeData_of_granted {i a n : Nat} (ht : k.p.h.typ ≠ 0x87) (hoff : k.p.offset % 64 = 0) (hmx : mxWhole k.p = true)
    (hw : windowAt s k.die k.dstTile k.p.window k.p.offset k.p.data.length true = some a)
    (hr : refSlot s k.die k.dstTile k.p.waybillRef = some n) :
    takeData k i s = completeTag k.die k.dstTile i 0 0 (creditRef k.die k.dstTile n false (commit k.die k.dstTile a k.p.data s)) := by
  simp [takeData, countRef_of_refSlot hr, hw, hr, hoff, hmx, ht]

variable (ho : s.ownsTile2 k.die k.dstTile k.p.h.field = true) (hecho : k.p.h.tailback ≠ 2) (ha : s.aged k.p.h = false)
include ho hecho ha

theorem respond_of_fresh :
    respond k s = matchTag k (fun i _ u => if k.p.h.typ = 0x03 then completeTag k.die k.dstTile i 0 0 u else takeData k i u)
      (noteMark k.die k.dstTile k.p s) := by
  simp [respond, ownedThen_of_owned ho, takeEcho_of_none hecho, ha]

theorem respond_of_other_epoch (he : (s.tagOf k.die k.dstTile k.p.h.tagIndex).epoch ≠ k.p.h.tagEpoch) :
    respond k s = (noteMark k.die k.dstTile k.p s).bump F.NI_TAG_STAT_STALE [k.die, k.dstTile] := by
  rw [respond_of_fresh ho hecho ha, matchTag_of_other_epoch (by rwa [noteMark_tagOf])]

variable (he : (s.tagOf k.die k.dstTile k.p.h.tagIndex).epoch = k.p.h.tagEpoch)
  (hst : (s.tagOf k.die k.dstTile k.p.h.tagIndex).st = .opened)
include he hst

theorem respond_of_ack {q : Packet} (ht : k.p.h.typ = 0x03) (hq : (s.tagOf k.die k.dstTile k.p.h.tagIndex).req = some q)
    (hget : q.h.typ ≠ 0x01) (hglean : q.h.typ ≠ 0x86) :
    respond k s = completeTag k.die k.dstTile k.p.h.tagIndex 0 0 (noteMark k.die k.dstTile k.p s) := by
  rw [respond_of_fresh ho hecho ha, matchTag_of_answered (by rwa [noteMark_tagOf]) (by rwa [noteMark_tagOf]), if_pos ht]
  simp [answers, hq, ht, hget, hglean]

theorem respond_of_getResp {q : Packet} (ht : k.p.h.typ = 0x81) (hmark : k.p.h.tailback ≠ 1)
    (hq : (s.tagOf k.die k.dstTile k.p.h.tagIndex).req = some q) (hget : q.h.typ = 0x01) : respond k s = takeData k k.p.h.tagIndex s := by
  rw [respond_of_fresh ho hecho ha, noteMark_of_unmarked hmark, matchTag_of_answered he hst, if_neg (by omega)]
  simp [answers, hq, ht, hget]

theorem nakReceive_of_open (ht : k.p.h.typ = 0x04) :
    nakReceive k s = nakAction k.die k.dstTile k.p.h.tagIndex (k.p.pay 0 1) (k.p.pay 3 1) s := by
  have hans (t : Nat) : answers k.p.h.typ t = true := by simp [answers, ht]
  simp [nakReceive, ownedThen_of_owned ho, takeEcho_of_none hecho, ha, matchTag_of_answered he hst (hans _)]

end

/-! ## The timers of a tag (R132 to R134) -/

section
variable {s : State} {d t i : Nat}

theorem busyBackoffExpire_of_due {m : Nat} (hm : (s.tagOf d t i).backoffAt = some m) (hdue : m ≤ s.now) (hst : (s.tagOf d t i).st = .opened) :
    busyBackoffExpire d t i s = resend d t i s := by
  simp [busyBackoffExpire, hm, hdue, hst]

theorem e2eTimeout_of_due (hst : (s.tagOf d t i).st = .opened) (hsent : unsent s d t i = false)
    (hdue : (s.tagOf d t i).timerAt + usUnits (s.fld F.NI_E2E_TIMEOUT_US) ≤ s.now) :
    e2eTimeout d t i s =
      if (s.tagOf d t i).resend = true ∧ (s.tagOf d t i).resends < s.fld F.NI_E2E_MAX_RESENDS then resend d t i s
      else completeTag d t i 0x08 0 (s.bump F.NI_TAG_STAT_GIVEUPS [d, t]) :=
  if_pos ⟨hst, by simp [hsent], hdue⟩

theorem tagQuarantineEnd_of_due (hex : s.tileExists d t = true) (hst : (s.tagOf d t i).st = .quarantine)
    (hdue : (s.tagOf d t i).since + 2 * usUnits (s.maxAgeSince (s.tagOf d t i).since) ≤ s.now) :
    tagQuarantineEnd d t i s = pump d t (s.setTag d t i { st := .free, epoch := ((s.tagOf d t i).epoch + 1) % 16, since := s.now }) :=
  if_pos ⟨hex, hst, hdue⟩

/-! ## Echoes and rates (R102, R103) -/

theorem echoSend_of_owed {unit field rank m : Nat} {h : Hdr} (ho : tabGet none s.ni.echoOwed [d, unit, field, rank] = some (h, m)) :
    echoSend d unit field rank s =
      sendResponse d { h := { respHdr s h 0x05 0 0 with tailback := 2 }, body := List.replicate 32 0 }
        (if unit < 2048 then .tile d unit else .engine d) (echoGone d unit h s) := by
  simp [echoSend, ho]

/-- An echo that comes 4 µs or more after the last cut cuts the rate. -/
theorem onEcho_of_cut {field rank : Nat} {f : Flow} (hf : tabGet none s.ni.flows [d, t, field, rank] = some f)
    (hcut : f.lastCut + 4000 ≤ ((s.now / 16 : Nat) : Int)) :
    onEcho d t field rank s =
      { s with ni := { s.ni with flows := tabSet none s.ni.flows [d, t, field, rank] (some
        { f with rate := max (f.rate * 3 / 4) 3125, lastCut := ((s.now / 16 : Nat) : Int), lastEcho := s.now / 16, tokens := flowTokens s f, filledAt := s.now }) } } := by
  simp only [onEcho, hf, Option.getD_some, if_pos hcut]

theorem rateRecover_of_quiet {fd r : Nat} {f : Flow} (hf : tabGet none s.ni.flows [d, t, fd, r] = some f)
    (hdue : f.created + 8000 * (f.steps + 1) ≤ s.now / 16) (hquiet : f.lastEcho + 8000 ≤ f.created + 8000 * (f.steps + 1)) :
    rateRecover d t fd r s =
      (let g : Flow := { f with steps := f.steps + 1, tokens := flowTokens s f, filledAt := s.now, rate := f.rate + 25000 }
       pump d t { s with ni := { s.ni with flows := tabSet none s.ni.flows [d, t, fd, r] (if 800000 ≤ g.rate then none else some g) } }) := by
  unfold rateRecover
  dsimp only
  rw [hf]
  dsimp only
  rw [if_neg hdue.not_gt, if_pos hquiet]

end

/-! ## The commands -/

section
variable (s : State) (pid : Nat) {d t i : Nat}

theorem exec_responseReceive : exec (.responseReceive pid) s = .next (finish s (receive pid 2 [0x03, 0x81, 0x87] respond s)) :=
  run_wellFormed (i := .responseReceive pid) s _ rfl
theorem exec_nakReceive : exec (.nakReceive pid) s = .next (finish s (receive pid 2 [0x04] nakReceive s)) :=
  run_wellFormed (i := .nakReceive pid) s _ rfl
theorem exec_echoReceive : exec (.echoReceive pid) s = .next (finish s (receive pid 2 [0x05] (fun k s => ownedThen k (takeEcho k) s) s)) :=
  run_wellFormed (i := .echoReceive pid) s _ rfl
theorem exec_busyBackoffExpire (hd : d < 8) (ht : t < 2048) (hi : i < 4096) :
    exec (.busyBackoffExpire d t i) s = .next (finish s (busyBackoffExpire d t i s)) :=
  run_wellFormed (i := .busyBackoffExpire d t i) s _ (decide_eq_true ⟨hd, hi, ht⟩)
theorem exec_e2eTimeout (hd : d < 8) (ht : t < 2048) (hi : i < 4096) : exec (.e2eTimeout d t i) s = .next (finish s (e2eTimeout d t i s)) :=
  run_wellFormed (i := .e2eTimeout d t i) s _ (decide_eq_true ⟨hd, hi, ht⟩)
theorem exec_tagQuarantineEnd (hd : d < 8) (ht : t < 2048) (hi : i < 4096) :
    exec (.tagQuarantineEnd d t i) s = .next (finish s (tagQuarantineEnd d t i s)) :=
  run_wellFormed (i := .tagQuarantineEnd d t i) s _ (decide_eq_true ⟨hd, hi, ht⟩)
theorem exec_echoSend {u f r : Nat} (hd : d < 8) (hu : u ≤ 2048) (hf : f < 4096) (hr : r < 2 ^ 20) :
    exec (.echoSend d u f r) s = .next (finish s (echoSend d u f r s)) :=
  run_wellFormed (i := .echoSend d u f r) s _ (decide_eq_true ⟨hd, hu, hf, hr⟩)
theorem exec_rateRecover {u f r : Nat} (hd : d < 8) (hu : u ≤ 2048) (hf : f < 4096) (hr : r < 2 ^ 20) :
    exec (.rateRecover d u f r) s = .next (finish s (rateRecover d u f r s)) :=
  run_wellFormed (i := .rateRecover d u f r) s _ (decide_eq_true ⟨hd, hu, hf, hr⟩)

end

/-- Settles O27: a packet acts in the state that has taken it, where its Field's row, the age limit and the tag are as they were. -/
theorem tagsAndEchoesComplete : Obligations.TagsAndEchoesComplete := by
  refine ⟨?ack, ?getResp, ?stale, ?nak, ?backoff, ?timeout, ?quarantine, ?echo, ?cut, ?recover⟩
  case ack =>
    intro s pid k q h ht hecho ho ha he hst hq hget hglean
    rw [exec_responseReceive, receive_of_handed h (by simp [ht]), respond_of_ack (s := taking s pid k) ho hecho ha he hst ht hq hget hglean]
  case getResp =>
    intro s pid a n k q h ht hecho ho ha he hst hq hget hoff hmx hw hr
    rw [exec_responseReceive, receive_of_handed h (by simp [ht]),
      respond_of_getResp (s := taking s pid k) ho (by omega) ha he hst ht (by omega) hq hget,
      takeData_of_granted (s := taking s pid k) (by omega) hoff hmx hw hr]
  case stale =>
    intro s pid k h ht hecho ho ha he
    rw [exec_responseReceive, receive_of_handed h ht, respond_of_other_epoch (s := taking s pid k) ho hecho ha he]
  case nak =>
    intro s pid k h ht hecho ho ha he hst
    rw [exec_nakReceive, receive_of_handed h (by simp [ht]), nakReceive_of_open (s := taking s pid k) ho hecho ha he hst ht]
  case backoff =>
    intro s d t i m hd ht hi hm hdue hst
    rw [exec_busyBackoffExpire s hd ht hi, busyBackoffExpire_of_due hm hdue hst]
  case timeout =>
    intro s d t i hd ht hi hst hsent hdue
    rw [exec_e2eTimeout s hd ht hi, e2eTimeout_of_due hst hsent (by rwa [usUnits, Nat.mul_comm])]
  case quarantine =>
    intro s d t i hd ht hi hex hst hdue
    rw [exec_tagQuarantineEnd s hd ht hi, tagQuarantineEnd_of_due hex hst (by rwa [usUnits, Nat.mul_comm _ 16000])]
  case echo =>
    intro s d u f r m h hd hu hf hr ho
    rw [exec_echoSend s hd hu hf hr, echoSend_of_owed ho]
  case cut =>
    intro s pid k f h ht hecho ho hf hcut
    rw [exec_echoReceive, receive_of_handed h (by simp [ht]), ownedThen_of_owned (s := taking s pid k) ho, takeEcho, if_pos hecho,
      onEcho_of_cut (s := taking s pid k) hf hcut]
    rfl
  case recover =>
    intro s d t fd r f hd ht hfd hr hf hdue hquiet
    rw [exec_rateRecover s hd ht hfd hr, rateRecover_of_quiet hf hdue hquiet]

end Sys2Proof.Machine
end

section
/-! SUPPORT. Switch-overs: versions and the age limit at their counts (R120, R130), the comparison of the Hedge copies (R118), and the end of a
drain (R137). -/

namespace Sys2Proof.Machine

section
variable {s : State}

/-! ## Gates (R38) -/

theorem gateRelease_of_wbStart {d t n m : Nat} (hm : s.gateAt (.wbStart d t n) = some m) (hopen : s.gateOpen d m = true) :
    gateRelease (.wbStart d t n) s = startGate d t n s := by
  simp [gateRelease, hm, hopen]

/-! ## Versions (R120) -/

/-- Version `v` is CURRENT and the other one HELD since the count of the switch; SG_HOLD_END is still to be set. -/
def switchedTo (v : Nat) (s : State) : State :=
  let u := ((((s.dropGate .sgSwitch).setFld F.SG_CTRL_PENDING 0).setVerState (1 - v) 4).setVerState v 3).setFld F.SG_CTRL_CURRENT v
  { u with ni := { u.ni with switchedAt := u.fld F.SG_SWITCH_AT_COUNT } }

theorem signpostSwitch_of_due (hdue : s.launchDue .sgSwitch = true) (hsealed : s.verState s.otherVer = 2) :
    signpostSwitch s = (switchedTo s.otherVer s).setFld F.SG_HOLD_END_COUNT (holdEnd (switchedTo s.otherVer s)) :=
  if_pos ⟨hdue, hsealed⟩

theorem holdEnd_eq (s : State) : holdEnd s = s.ni.switchedAt + 16000 * s.maxAgeSince s.ni.switchedAt := by
  rw [holdEnd, usUnits, Nat.mul_comm]

/-! ## The Hedge copies (R118) -/

/-- A run of updates none of which changes the state leaves it as it is. -/
theorem State.forAll_of_fixed {α : Type} {l : List α} {f : α → State → State} (h : ∀ a ∈ l, f a s = s) : s.forAll l f = s := by
  induction l with
  | nil => rfl
  | cons a l ih =>
    change (f a s).forAll l f = s
    rw [h a List.mem_cons_self]
    exact ih fun b hb => h b (List.mem_cons_of_mem _ hb)

theorem hedgeCopyCompare_of_same (hmap : ∀ h, h < 16 → mapDiffs s h = []) (hrow : rowDiffs s = []) : hedgeCopyCompare s = s := by
  have hmaps : s.forAll (List.range 16) (fun h u => u.forAll (mapDiffs u h) (fun f v => copyFault (h / 2) 0x04 f h none v)) = s := by
    refine State.forAll_of_fixed fun h hh => ?_
    rw [hmap h (List.mem_range.mp hh)]
    rfl
  rw [hedgeCopyCompare, hmaps, hrow]
  rfl

/-! ## Drains (R137) -/

/-- The domain has drained: what was still past its gate is discarded and counted as aged. -/
def drainedOf (x : Domain) (s : State) : State :=
  let u := s.forAll (pastGate s x) (fun e v => (failPkt e.1 8 v).bump F.NI_DROP_A_AGED [e.2.die])
  { u with ni := { u.ni with drained := u.ni.drained ++ [x] } }

theorem mem_drained_drainedOf (x : Domain) (s : State) : x ∈ (drainedOf x s).ni.drained := List.mem_append_right _ (List.mem_singleton_self x)

variable {x : Domain} {m : Nat} (hx : s.ni.closed.find? (fun e => e.1 = x) = some (x, m)) (hnew : x ∉ s.ni.drained)
  (hend : pastGate s x = [] ∨ m ≤ s.now)
include hx hnew hend

theorem drainEnd_of_due : drainEnd x s = drainedOf x s := by
  have hopen : ¬(x ∈ s.ni.drained ∨ (pastGate s x ≠ [] ∧ s.now < m)) := by
    rintro (hold | ⟨hleft, hearly⟩)
    · exact hnew hold
    · exact hend.elim hleft hearly.not_ge
  simp only [drainEnd, hx, if_neg hopen]
  rfl

theorem drainEndAll_of_due : drainEndAll x s = afterDrain x (drainedOf x s) := by
  rw [drainEndAll, drainEnd_of_due hx hnew hend]
  exact if_pos ⟨mem_drained_drainedOf x s, hnew⟩

end

/-! ## The commands -/

section
variable (s : State)

theorem exec_gateRelease {g : GateId} (hg : g.wellFormed = true) : exec (.gateRelease g) s = .next (finish s (gateRelease g s)) :=
  run_wellFormed (i := .gateRelease g) s _ (decide_eq_true hg)
theorem exec_signpostSwitch : exec .signpostSwitch s = .next (finish s (signpostSwitch s)) :=
  run_wellFormed (i := .signpostSwitch) s _ rfl
theorem exec_heldVersionExpire : exec .heldVersionExpire s = .next (finish s (heldVersionExpire s)) :=
  run_wellFormed (i := .heldVersionExpire) s _ rfl
theorem exec_ageLimitChange : exec .ageLimitChange s = .next (finish s (ageLimitChange s)) :=
  run_wellFormed (i := .ageLimitChange) s _ rfl
theorem exec_hedgeCopyCompare : exec .hedgeCopyCompare s = .next (finish s (hedgeCopyCompare s)) :=
  run_wellFormed (i := .hedgeCopyCompare) s _ rfl
theorem exec_drainEnd {x : Domain} (hx : x.wellFormed = true) : exec (.drainEnd x) s = .next (finish s (drainEndAll x s)) :=
  run_wellFormed (i := .drainEnd x) s _ (decide_eq_true hx)

end

/-- Settles O28: each command's guard is what its clause assumes; only the agreement of the copies and the end of a drain take more than that. -/
theorem switchOversComplete : Obligations.SwitchOversComplete := by
  refine ⟨fun s => ⟨?switchGate, ?ageGate⟩, ?startGate, ?switch, ?expire, ?age, exec_hedgeCopyCompare, ?agree, ?drain⟩
  case switchGate => exact (exec_gateRelease s rfl).trans (exec_signpostSwitch s).symm
  case ageGate => exact (exec_gateRelease s rfl).trans (exec_ageLimitChange s).symm
  case startGate =>
    intro s d t n m hwf hm hopen
    rw [exec_gateRelease s hwf, gateRelease_of_wbStart hm hopen]
  case switch =>
    intro s hdue hsealed
    rw [exec_signpostSwitch, signpostSwitch_of_due hdue hsealed, holdEnd_eq]
    rfl
  case expire =>
    intro s hheld hdue
    rw [exec_heldVersionExpire, heldVersionExpire, if_pos ⟨hheld, hdue⟩]
  case age =>
    intro s hdue
    rw [exec_ageLimitChange, ageLimitChange, if_pos hdue]
  case agree =>
    intro s hmap hrow
    rw [exec_hedgeCopyCompare, hedgeCopyCompare_of_same hmap hrow]
  case drain =>
    intro s x m hwf hx hnew hend
    rw [exec_drainEnd s hwf, drainEndAll_of_due hx hnew hend]
    rfl

end Sys2Proof.Machine
end

section
/-! SUPPORT. The Almanac's routines for windows, roles, resets, Waybills and scalars (R259 to R261): each by what its arguments ask, and the CALL
that they end. -/

namespace Sys2Proof.Machine

/-! ## A call (R259) -/

section
variable {s u : State} {d t n no words e : Nat} {w : List Byte} {res : List Nat} {f : List Byte → State → Except Nat (List Nat × State)}

theorem callStart_of_called (hrun : stewardRun s d t 0x40 = some (n, w)) (hnew : (s.slot d t n).calling = false) :
    callStart d t 0 s =
      if knownRoutine (callRoutine w) then s.setSlot d t n { s.slot d t n with calling := true } else endCall d t n (some 0x01) [] s := by
  simp [callStart, hrun, hnew]

theorem routine_of_ok (hin : inCall s d t no = some (n, w)) (hres : resOk w words = true) (hf : f w s = .ok (res, u)) :
    routine d t no words f s = endCall d t n none res u := by
  simp [routine, hin, hres, hf]

theorem routine_of_error (hin : inCall s d t no = some (n, w)) (hres : resOk w words = true) (hf : f w s = .error e) :
    routine d t no words f s = endCall d t n (some e) [] s := by
  simp [routine, hin, hres, hf]

end

/-! ## Windows and roles -/

section
variable {s : State} {d t : Nat} {w : List Byte}

theorem windowSet_of_range (h0 : arg w 0 < 256) (h1 : arg w 1 < 32768) (h2 : arg w 2 ≤ 32768) (h3 : arg w 3 < 4) (hz : argsZero w 4 = true) :
    windowSet d t w s = .ok ([], setWindow d t (arg w 0) (arg w 1) (arg w 2) (arg w 3) s) :=
  if_pos ⟨h0, h1, h2, h3, hz⟩

theorem roleDeclare_of_range (hz : argsZero w 0 = true) :
    roleDeclare d t w s = .ok ([(advanceRole d t s).roleEpoch d t], advanceRole d t s) :=
  if_pos hz

/-! ## Tile reset (R261) -/

/-- A reset of another tile of the Field that none is resetting begins, and the caller waits. -/
theorem tileResetCall_of_target {n e u : Nat} (hin : inCall s d t 0x0003 = some (n, w)) (h0 : arg w 0 < 2 ^ 20) (hz : argsZero w 1 = true)
    (hrank : rankHere s d t (arg w 0) = some (e, u)) (hother : ¬(e = d ∧ u = t)) (hdie : s.dieFenced e = false) (htile : s.tileFenced e u = false)
    (hfree : tabGet none s.tiles.resets [e, u] = none) : tileResetCall d t s = startTileReset e u (some (d, t)) s := by
  have hrange : ¬(2 ^ 20 ≤ arg w 0 ∨ (!argsZero w 1) = true) := by simpa [hz] using h0
  have htarget : ¬((e = d ∧ u = t) ∨ s.dieFenced e = true ∨ s.tileFenced e u = true) := by simp [hother, hdie, htile]
  simp only [tileResetCall, hin, hrank, hfree, if_neg hrange, if_neg htarget]
  rfl

theorem startTileReset_of_free {e u : Nat} {c : Option (Nat × Nat)} (hfree : tabGet none s.tiles.resets [e, u] = none) :
    startTileReset e u c s =
      (let v := (closeGate (.tile e u) s).setFld F.TL_CTRL_RESET_BUSY 1 [e, u]
       { v with tiles := { v.tiles with resets := tabSet none v.tiles.resets [e, u] (some { callers := c.toList }) } }) := by
  simp only [startTileReset, hfree]

theorem tileResetDone_of_drained {r : ResetRec} (hr : tabGet none s.tiles.resets [d, t] = some r) (hcallers : r.callers = [])
    (hdrained : Domain.tile d t ∈ s.ni.drained) :
    tileResetDone d t s =
      (let v := (openGate (.tile d t) (resetTile d t s)).setFld F.TL_CTRL_RESET_BUSY 0 [d, t]
       { v with tiles := { v.tiles with resets := tabSet none v.tiles.resets [d, t] none } }) := by
  simp only [tileResetDone, hr, if_pos hdrained, hcallers]
  rfl

/-! ## Waybills -/

theorem wbArm_of_range (hmin : 1 ≤ arg w 1) (hmax : arg w 1 ≤ 64) (hend : arg w 0 + arg w 1 ≤ 1024) (hz : argsZero w 2 = true) :
    wbArm d t w s = .ok ([], s.forAll (List.range (arg w 1)) (fun i v => armSlot d t (arg w 0 + i) v)) :=
  if_pos ⟨hmin, hmax, hend, hz⟩

theorem wbRenew_of_idle (h0 : arg w 0 < 1024) (hz : argsZero w 1 = true) (hst : (s.slot d t (arg w 0)).st = .idle)
    (hpend : (s.slot d t (arg w 0)).pendingArm = false) :
    wbRenew d t w s = .ok ([((s.slot d t (arg w 0)).gen + 1) % 256], s.setSlot d t (arg w 0)
      { s.slot d t (arg w 0) with gen := ((s.slot d t (arg w 0)).gen + 1) % 256, credits := 0, nextCredits := 0, poison := false }) := by
  simp [wbRenew, h0, hz, hst, hpend]

theorem wbQuery_of_range (h0 : arg w 0 < 1024) (hz : argsZero w 1 = true) :
    wbQuery d t w s = .ok ([(s.slot d t (arg w 0)).st.code + 8 * b2n (s.slot d t (arg w 0)).poison + 16 * b2n (s.slot d t (arg w 0)).pendingArm +
      256 * (s.slot d t (arg w 0)).gen + 65536 * ((s.slot d t (arg w 0)).credits + (s.slot d t (arg w 0)).nextCredits)], s) :=
  if_neg (by simp [h0, hz])

/-! ## Scalars -/

theorem flagsRead_of_range (h0 : arg w 0 < 2) (hz : argsZero w 1 = true) :
    flagsRead d t w s = .ok ([tabGet 0 s.tiles.flags [d, t, 0] + 32 * tabGet 0 s.tiles.flags [d, t, 1]],
      if arg w 0 = 1 then { s with tiles := { s.tiles with flags := tabSet 0 (tabSet 0 s.tiles.flags [d, t, 0] 0) [d, t, 1] 0 } } else s) :=
  if_neg (by simp [h0, hz])

theorem timeRead_of_range (hz : argsZero w 0 = true) : timeRead w s = .ok ([s.now, if s.timeValid then 1 else 0], s) := if_pos hz

theorem timeRead_of_other (hz : argsZero w 0 = false) : timeRead w s = .error 0x02 := if_neg (by simp [hz])

theorem patchWord_of_range (h1 : arg w 1 ∈ [1, 2, 4, 8]) (halign : arg w 0 % arg w 1 = 0) (hend : arg w 0 + arg w 1 ≤ tileSize)
    (hz : argsZero w 3 = true) :
    patchWord d t w s = .ok ([s.memWord d t (arg w 0) (arg w 1)],
      stewardWrite d t (arg w 0) (leBytes (arg w 1) ((s.memWord d t (arg w 0) (arg w 1) + arg w 2) % 2 ^ (8 * arg w 1)))
        (loadCompare d t false (arg w 0) (arg w 1) s)) := by
  have hsize : arg w 1 = 1 ∨ arg w 1 = 2 ∨ arg w 1 = 4 ∨ arg w 1 = 8 := by simpa using h1
  simp only [patchWord, hsize, halign, hend, hz, and_self, if_true]

/-- No slot has the number that stands for none. -/
theorem branchArm_of_range (h0 : arg w 0 + 8 ≤ tileSize) (h1 : arg w 1 ≤ 4) (h3 : arg w 3 < 1024) (h4 : arg w 4 < 1024 ∨ arg w 4 = 0xFFFF)
    (hz : argsZero w 5 = true) :
    branchArm d t w s =
      if branchTest (arg w 1) (s.memWord d t (arg w 0) 8) (arg w 2) then .ok ([1], armSlot d t (arg w 3) s)
      else .ok ([0], if arg w 4 = 0xFFFF then s else armSlot d t (arg w 4) s) := by
  have hrange : ¬(tileSize < arg w 0 + 8 ∨ 4 < arg w 1 ∨ 1024 ≤ arg w 3 ∨ (1024 ≤ arg w 4 ∧ arg w 4 ≠ 0xFFFF) ∨ (!argsZero w 5) = true) := by
    simp only [hz, Bool.not_true, Bool.false_eq_true, or_false]
    omega
  have hslot : arg w 3 ≠ 0xFFFF := by omega
  rw [branchArm, if_neg hrange]
  cases branchTest (arg w 1) (s.memWord d t (arg w 0) 8) (arg w 2)
  · rfl
  · simp [hslot]

theorem scalarF_of_fp32 (hmin : 1 ≤ arg w 0) (hmax : arg w 0 ≤ 6) (h1 : arg w 1 = 2) (h2 : arg w 2 ≤ 4) (hz : argsZero w 6 = true) :
    scalarF d t w s =
      (let r := scalarOp (arg w 0) (Rnd.ofCode (arg w 2)) fp32 (fp32.decode (arg w 3 % 2 ^ 32)) (fp32.decode (arg w 4 % 2 ^ 32)) (fp32.decode (arg w 5 % 2 ^ 32))
       .ok ([r.1], raiseFlags d t 0 r.2 s)) := by
  have hrange : ¬(arg w 0 = 0 ∨ 6 < arg w 0 ∨ (arg w 1 ≠ 1 ∧ arg w 1 ≠ 2) ∨ 4 < arg w 2 ∨ (!argsZero w 6) = true) := by
    simp only [hz, Bool.not_true, Bool.false_eq_true, or_false]
    omega
  have hfmt : (if arg w 1 = 1 then fp64 else fp32) = fp32 := if_neg (by omega)
  simp only [scalarF, if_neg hrange, hfmt]

end

/-! ## The commands -/

section
variable (s : State) {d t : Nat} (hd : d < 8) (ht : t < 2048)
include hd ht

theorem exec_call : exec (.call d t 0) s = .next (finish s (callStart d t 0 s)) :=
  run_wellFormed (i := .call d t 0) s _ (decide_eq_true ⟨hd, by decide, ht⟩)
theorem exec_windowSet : exec (.windowSet d t) s = .next (finish s (routine d t 0x0001 0 (windowSet d t) s)) :=
  run_wellFormed (i := .windowSet d t) s _ (decide_eq_true ⟨hd, ht⟩)
theorem exec_roleDeclare : exec (.roleDeclare d t) s = .next (finish s (routine d t 0x0002 1 (roleDeclare d t) s)) :=
  run_wellFormed (i := .roleDeclare d t) s _ (decide_eq_true ⟨hd, ht⟩)
theorem exec_tileReset : exec (.tileReset d t) s = .next (finish s (tileResetCall d t s)) :=
  run_wellFormed (i := .tileReset d t) s _ (decide_eq_true ⟨hd, ht⟩)
theorem exec_tileResetDone : exec (.tileResetDone d t) s = .next (finish s (tileResetDone d t s)) :=
  run_wellFormed (i := .tileResetDone d t) s _ (decide_eq_true ⟨hd, ht⟩)
theorem exec_wbArm : exec (.wbArm d t) s = .next (finish s (routine d t 0x0004 0 (wbArm d t) s)) :=
  run_wellFormed (i := .wbArm d t) s _ (decide_eq_true ⟨hd, ht⟩)
theorem exec_wbRenew : exec (.wbRenew d t) s = .next (finish s (routine d t 0x0006 1 (wbRenew d t) s)) :=
  run_wellFormed (i := .wbRenew d t) s _ (decide_eq_true ⟨hd, ht⟩)
theorem exec_wbQuery : exec (.wbQuery d t) s = .next (finish s (routine d t 0x0007 1 (wbQuery d t) s)) :=
  run_wellFormed (i := .wbQuery d t) s _ (decide_eq_true ⟨hd, ht⟩)
theorem exec_flagsRead : exec (.flagsRead d t) s = .next (finish s (routine d t 0x0008 1 (flagsRead d t) s)) :=
  run_wellFormed (i := .flagsRead d t) s _ (decide_eq_true ⟨hd, ht⟩)
theorem exec_timeRead : exec (.timeRead d t) s = .next (finish s (routine d t 0x0009 2 timeRead s)) :=
  run_wellFormed (i := .timeRead d t) s _ (decide_eq_true ⟨hd, ht⟩)
theorem exec_patch : exec (.patch d t) s = .next (finish s (routine d t 0x000A 1 (patchWord d t) s)) :=
  run_wellFormed (i := .patch d t) s _ (decide_eq_true ⟨hd, ht⟩)
theorem exec_branch : exec (.branch d t) s = .next (finish s (routine d t 0x000B 1 (branchArm d t) s)) :=
  run_wellFormed (i := .branch d t) s _ (decide_eq_true ⟨hd, ht⟩)
theorem exec_scalarF : exec (.scalarF d t) s = .next (finish s (routine d t 0x000C 1 (scalarF d t) s)) :=
  run_wellFormed (i := .scalarF d t) s _ (decide_eq_true ⟨hd, ht⟩)

end

/-- Settles O40: the call has a place for its results and its arguments pass the routine's own test, which then answers what its row states. -/
theorem routinesComplete : Obligations.RoutinesComplete := by
  refine ⟨?call, ?window, ?role, ?reset, ?resetDone, ?arm, ?renew, ?query, ?flags, ?time, ?patch, ?branch, ?scalar, ?timeArgs⟩
  case call =>
    intro s d t n w hd ht hrun hnew
    rw [exec_call s hd ht, callStart_of_called hrun hnew]
  case window =>
    intro s d t n w hd ht hin hres h0 h1 h2 h3 hz
    rw [exec_windowSet s hd ht, routine_of_ok hin hres (windowSet_of_range h0 h1 h2 h3 hz)]
    rfl
  case role =>
    intro s d t n w hd ht hin hres hz
    rw [exec_roleDeclare s hd ht, routine_of_ok hin hres (roleDeclare_of_range hz)]
  case reset =>
    intro s d t n e u w hd ht hin h0 hz hrank hother hdie htile hfree
    rw [exec_tileReset s hd ht, tileResetCall_of_target hin h0 hz hrank hother hdie htile hfree, startTileReset_of_free hfree]
    rfl
  case resetDone =>
    intro s d t r hd ht hr hcallers hdrained
    rw [exec_tileResetDone s hd ht, tileResetDone_of_drained hr hcallers hdrained]
  case arm =>
    intro s d t n w hd ht hin hres hmin hmax hend hz
    rw [exec_wbArm s hd ht, routine_of_ok hin hres (wbArm_of_range hmin hmax hend hz)]
  case renew =>
    intro s d t n w hd ht hin hres h0 hz hst hpend
    rw [exec_wbRenew s hd ht, routine_of_ok hin hres (wbRenew_of_idle h0 hz hst hpend)]
  case query =>
    intro s d t n w hd ht hin hres h0 hz
    rw [exec_wbQuery s hd ht, routine_of_ok hin hres (wbQuery_of_range h0 hz)]
  case flags =>
    intro s d t n w hd ht hin hres h0 hz
    rw [exec_flagsRead s hd ht, routine_of_ok hin hres (flagsRead_of_range h0 hz)]
  case time =>
    intro s d t n w hd ht hin hres hz
    rw [exec_timeRead s hd ht, routine_of_ok hin hres (timeRead_of_range hz)]
  case patch =>
    intro s d t n w hd ht hin hres h1 halign hend hz
    rw [exec_patch s hd ht, routine_of_ok hin hres (patchWord_of_range h1 halign hend hz)]
  case branch =>
    intro s d t n w hd ht hin hres h0 h1 h3 h4 hz
    have hf := branchArm_of_range (s := s) (d := d) (t := t) h0 h1 h3 h4 hz
    rw [exec_branch s hd ht]
    split
    · next hhit => rw [routine_of_ok hin hres (hf.trans (if_pos hhit))]
    · next hmiss => rw [routine_of_ok hin hres (hf.trans (if_neg hmiss))]
  case scalar =>
    intro s d t n w hd ht hin hres hmin hmax h1 h2 hz
    rw [exec_scalarF s hd ht, routine_of_ok hin hres (scalarF_of_fp32 hmin hmax h1 h2 hz)]
  case timeArgs =>
    intro s d t n w hd ht hin hz hres
    rw [exec_timeRead s hd ht, routine_of_error hin hres (timeRead_of_other hz)]

end Sys2Proof.Machine
end

section
/-! SUPPORT. The outputs of a slice and what leaves it (R144, R152, R153), and the timeout of a refused allocation (R159). -/

namespace Sys2Proof.Machine

/-! ## The start of a packet (R152, R153) -/

section
variable {s : State} {pid d o : Nat} {k : Pkt}

theorem startPacket_of_aged (hmgr : mgrType k.p.h.typ = false) (hframe : k.frame = []) (haged : s.aged k.p.h = true) :
    startPacket pid k s = (freePkt pid 8 s).bump F.NI_DROP_A_AGED [k.die] := by
  simp [startPacket, hmgr, hframe, haged]

theorem startPacket_of_fenced (haged : s.aged k.p.h = false) (hf : fencedHere s k = true) :
    startPacket pid k s = (freePkt pid 8 s).bump F.GK_DROP_FENCED [k.die] := by
  simp [startPacket, haged, hf]

/-- A tile NI or an engine slice takes the packet. -/
theorem startPacket_of_taken (haged : s.aged k.p.h = false) (hf : fencedHere s k = false) (hout : 2 ≤ k.out) :
    startPacket pid k s = (s.setPkt pid (some { k with stage := .taken })).setQueue k.die k.out k.q
      ((s.queue k.die k.out k.q).filter (· ≠ pid)) := by
  have hlocal : ¬k.out ≤ 1 := by omega
  simp only [startPacket, haged, hf, hlocal, Bool.and_false, Bool.false_eq_true, if_false]
  rfl

/-- A link sends the packet. -/
theorem startPacket_of_sent (haged : s.aged k.p.h = false) (hf : fencedHere s k = false) (hout : k.out ≤ 1) :
    startPacket pid k s =
      (let u := (s.setPkt pid (some { k with stage := .taken })).setQueue k.die k.out k.q ((s.queue k.die k.out k.q).filter (· ≠ pid))
       let v := if k.q = 1 then spendToken k.die k.out u else u
       putOut (k.die * 2 + k.out) k (v.setHalf (k.die * 2 + k.out) { v.half (k.die * 2 + k.out) with sending := some pid })) := by
  simp only [startPacket, haged, hf, hout, Bool.and_false, Bool.false_eq_true, if_false, if_true]
  rfl

theorem outputStart_of_local (ho : 2 ≤ o) (hnext : nextPacket s d o = some pid) (hk : s.pkt pid = some k) :
    outputStart d o s = startPacket pid k s := by
  have hlocal : ¬o ≤ 1 := by omega
  simp [outputStart, hlocal, hnext, hk]

theorem outputStart_of_idle_link (hup : s.link (d * 2 + o) = 4) (hidle : (s.half (d * 2 + o)).sending = none)
    (hnext : nextPacket s d o = some pid) (hk : s.pkt pid = some k) : outputStart d o s = startPacket pid k s := by
  simp [outputStart, hup, hidle, hnext, hk]

end

/-! ## Departure (R144) and the timeout of an allocation (R159) -/

section
variable {s : State} {pid id : Nat} {k : Pkt} {w : Wait}

theorem packetDeparted_of_done (hk : s.pkt pid = some k) (hst : k.stage = .done) (hout : 2 ≤ k.out) :
    packetDeparted pid s = freePkt pid (k.out + 2) s := by
  have hlocal : ¬k.out ≤ 1 := by omega
  simp [packetDeparted, hk, hst, hlocal, freeUnit]

theorem packetDeparted_of_sent (hk : s.pkt pid = some k) (hst : k.stage = .taken) (hout : k.out ≤ 1)
    (hsend : (s.half (k.die * 2 + k.out)).sending = some pid) :
    packetDeparted pid s = freePkt pid k.out
      (s.setHalf (k.die * 2 + k.out) { s.half (k.die * 2 + k.out) with sending := none }) := by
  simp [packetDeparted, hk, hst, hout, hsend, freeUnit]

theorem tileAllocTimeout_of_request {d t i : Nat} (hw : s.gran.waits.find? (fun w => w.id = id) = some w) (hdue : w.since + usUnits 2 ≤ s.now)
    (hkind : w.kind = .request d t i) (hi : i < 4096) : tileAllocTimeout id s = nakAction d t i 3 0 (dropWait id s) := by
  simp only [tileAllocTimeout, hw, if_neg hdue.not_gt, hkind, if_pos hi]

theorem tileAllocTimeout_of_response (hw : s.gran.waits.find? (fun w => w.id = id) = some w) (hdue : w.since + usUnits 2 ≤ s.now)
    (hkind : w.kind = .response) : tileAllocTimeout id s = (dropWait id s).bump F.GK_DROP_CONTROL [w.pk.die] := by
  simp only [tileAllocTimeout, hw, if_neg hdue.not_gt, hkind]

end

/-! ## The commands -/

section
variable (s : State) {d o : Nat} (pid id : Nat)

theorem exec_outputStart (hd : d < 8) (ho : o < 5) : exec (.outputStart d o) s = .next (finish s (outputStart d o s)) :=
  run_wellFormed (i := .outputStart d o) s _ (decide_eq_true ⟨hd, ho⟩)
theorem exec_packetDeparted : exec (.packetDeparted pid) s = .next (finish s (packetDeparted pid s)) :=
  run_wellFormed (i := .packetDeparted pid) s _ rfl
theorem exec_tileAllocTimeout : exec (.tileAllocTimeout id) s = .next (finish s (tileAllocTimeout id s)) :=
  run_wellFormed (i := .tileAllocTimeout id) s _ rfl

end

/-- Settles O22: the packet next in turn is checked by age, then by fence, and then leaves by its output's kind. -/
theorem outputsCompletes : Obligations.OutputsCompletes := by
  refine ⟨?aged, ?fenced, ?taken, ?sent, ?gone, ?left, ?request, ?response⟩
  case aged =>
    intro s d o pid k hd h2 h5 hnext hk hmgr hframe haged
    rw [exec_outputStart s hd h5, outputStart_of_local h2 hnext hk, startPacket_of_aged hmgr hframe haged]
  case fenced =>
    intro s d o pid k hd h2 h5 hnext hk haged hf
    rw [exec_outputStart s hd h5, outputStart_of_local h2 hnext hk, startPacket_of_fenced haged hf]
  case taken =>
    rintro s d _ pid k hd h2 h5 hnext hk haged hf rfl
    rw [exec_outputStart s hd h5, outputStart_of_local h2 hnext hk, startPacket_of_taken haged hf h2]
  case sent =>
    rintro s _ _ pid k hd h2 hup hidle hnext hk haged hf rfl rfl
    rw [exec_outputStart s hd (by omega), outputStart_of_idle_link hup hidle hnext hk, startPacket_of_sent haged hf (by omega)]
  case gone =>
    intro s pid k hk hst hout
    rw [exec_packetDeparted, packetDeparted_of_done hk hst hout]
  case left =>
    intro s pid k hk hst hout hsend
    rw [exec_packetDeparted, packetDeparted_of_sent hk hst hout hsend]
  case request =>
    intro s id d t i w hw hdue hkind hi
    rw [exec_tileAllocTimeout, tileAllocTimeout_of_request hw hdue hkind hi]
    rfl
  case response =>
    intro s id w hw hdue hkind
    rw [exec_tileAllocTimeout, tileAllocTimeout_of_response hw hdue hkind]
    rfl

end Sys2Proof.Machine
end

section
/-! SUPPORT. The Keeper's grant (R154, R158): which registers an allocation writes, and that the decision leaves every minimum backed. -/

namespace Sys2Proof.Machine

/-! ## What an allocation writes -/

section
variable (s : State) (d o n : Nat)

@[simp] theorem markCells_flds (owner stamp : Nat) (cs : List Nat) (first : Bool) : (markCells d owner stamp cs first s).flds = s.flds := by
  induction cs generalizing first s with
  | nil => rfl
  | cons c cs ih => exact ih _ _

theorem addDepth_fld (out q : Nat) {f : Fld} (k : List Nat) (hf : f.reg ≠ .GK_OUT_CFG) : (addDepth s d out q n).fld f k = s.fld f k := by
  unfold addDepth
  split_ifs
  · rfl
  · exact State.fld_setFld_ne s _ (.inl hf.symm)
  · exact State.fld_setFld_ne s _ (.inl hf.symm)
  · rfl

/-- The pressure state and its event are all that follows a change of the cells held. -/
theorem updatePressure_fld {f : Fld} (k : List Nat) (hev : f.reg ∉ [Reg.EV_STATUS, .EV_LOST, .EV_LOST_FIRST, .EV_LOST_LAST])
    (hf : f.reg ≠ .GK_STATUS ∨ f.lo ≠ 16) : (updatePressure d s).fld f k = s.fld f k := by
  unfold updatePressure
  dsimp only
  split
  · rfl
  · rw [State.log_fld _ _ _ _ _ _ _ _ hev]
    exact State.fld_setFld_ne s _ (hf.imp Ne.symm (fun h => .inl h.symm))

/-- A charge writes the owner's HELD, its HIGH_WATER where that is passed, and nothing else of the owner. -/
theorem chargeCells_owner_fld {f : Fld} (k : List Nat) (hf : f.reg ≠ .GK_TALLY ∨ f.lo ≠ 16) :
    (chargeCells s d o n false).fld f k = (s.setFld F.GK_TALLY_HELD (s.held d o + n) [d, o]).fld f k := by
  simp only [chargeCells, Bool.false_eq_true, if_false]
  split
  · exact State.fld_setFld_ne _ _ (hf.imp Ne.symm (fun h => .inl h.symm))
  · rfl

/-- A charge of managed cells counts them for the slice as well. -/
theorem chargeCells_managed : chargeCells s d o n true =
    (chargeCells s d o n false).setFld F.GK_STATUS_HELD ((chargeCells s d o n false).heldAll d + n) [d] := rfl

theorem chargeCells_fld {f : Fld} (k : List Nat) (ht : f.reg ≠ .GK_TALLY) (hs : f.reg ≠ .GK_STATUS) :
    (chargeCells s d o n true).fld f k = s.fld f k := by
  rw [chargeCells_managed, State.fld_setFld_ne _ _ (.inl hs.symm), chargeCells_owner_fld s d o n k (.inl ht),
    State.fld_setFld_ne _ _ (.inl ht.symm)]

theorem chargeCells_held_same (h : s.held d o + n < 65536) : (chargeCells s d o n true).held d o = s.held d o + n := by
  rw [chargeCells_managed, State.held, State.fld_setFld_ne _ _ (.inl (by decide)), chargeCells_owner_fld s d o n _ (.inr (by decide)),
    State.fld_setFld_same]
  exact Nat.mod_eq_of_lt h

theorem chargeCells_held_other {o' : Nat} (h : o' ≠ o) : (chargeCells s d o n true).held d o' = s.held d o' := by
  rw [chargeCells_managed, State.held, State.fld_setFld_ne _ _ (.inl (by decide)), chargeCells_owner_fld s d o n _ (.inr (by decide)),
    State.fld_setFld_ne _ _ (.inr (.inr (by simpa using h.symm))), State.held]

theorem chargeCells_heldAll (h : s.heldAll d + n < 32768) : (chargeCells s d o n true).heldAll d = s.heldAll d + n := by
  have hall : (chargeCells s d o n false).heldAll d = s.heldAll d := by
    rw [State.heldAll, chargeCells_owner_fld s d o n _ (.inl (by decide)), State.fld_setFld_ne _ _ (.inl (by decide))]
  rw [chargeCells_managed, hall, State.heldAll, State.fld_setFld_same]
  exact Nat.mod_eq_of_lt h

end

/-! ## A grant -/

section
variable {s t : State} {d o n out q : Nat} {cs : List Nat}

/-- A grant is of exactly the cells asked for, and for the registers it is their charge. -/
theorem allocate_granted (h : allocate d o n out q s = some (cs, t)) :
    allocOk s d o n out = true ∧ cs.length = n ∧ ∃ v, v.flds = s.flds ∧
      t = updatePressure d (addDepth (chargeCells v d o n true) d out q n) := by
  unfold allocate at h
  dsimp only at h
  split_ifs at h with hok hlen
  obtain ⟨rfl, rfl⟩ := Prod.mk.inj (Option.some.inj h)
  exact ⟨hok, hlen, _, markCells_flds .., rfl⟩

/-- Of the registers a charge writes, only the pressure state, the depth of the output and the Recorder's change after it. -/
theorem allocate_fld (h : allocate d o n out q s = some (cs, t)) {f : Fld}
    (hf : f.reg ∉ [Reg.EV_STATUS, .EV_LOST, .EV_LOST_FIRST, .EV_LOST_LAST, .GK_OUT_CFG]) (hp : f.reg ≠ .GK_STATUS ∨ f.lo ≠ 16) :
    ∃ v, v.flds = s.flds ∧ ∀ k, t.fld f k = (chargeCells v d o n true).fld f k := by
  obtain ⟨-, -, v, hv, rfl⟩ := allocate_granted h
  simp only [List.mem_cons, not_or] at hf
  obtain ⟨h1, h2, h3, h4, hout, -⟩ := hf
  exact ⟨v, hv, fun k => by
    rw [updatePressure_fld _ _ _ (by simp [h1, h2, h3, h4]) hp, addDepth_fld _ _ _ _ _ _ hout]⟩

theorem allocate_fld_kept (h : allocate d o n out q s = some (cs, t)) {f : Fld}
    (hf : f.reg ∉ [Reg.EV_STATUS, .EV_LOST, .EV_LOST_FIRST, .EV_LOST_LAST, .GK_OUT_CFG, .GK_TALLY, .GK_STATUS]) (k : List Nat) :
    t.fld f k = s.fld f k := by
  simp only [List.mem_cons, not_or] at hf
  obtain ⟨h1, h2, h3, h4, hout, htally, hstatus, -⟩ := hf
  obtain ⟨v, hv, hcharge⟩ := allocate_fld h (f := f) (by simp [h1, h2, h3, h4, hout]) (.inl hstatus)
  rw [hcharge, chargeCells_fld _ _ _ _ _ htally hstatus, State.fld_of_flds_eq hv]

theorem allocate_held_same (h : allocate d o n out q s = some (cs, t)) (hfit : s.held d o + n < 65536) : t.held d o = s.held d o + n := by
  obtain ⟨v, hv, hcharge⟩ := allocate_fld h (f := F.GK_TALLY_HELD) (by decide) (.inl (by decide))
  have hheld : v.held d o = s.held d o := State.fld_of_flds_eq hv _ _
  rw [← hheld] at hfit ⊢
  exact (hcharge _).trans (chargeCells_held_same v d o n hfit)

theorem allocate_held_other (h : allocate d o n out q s = some (cs, t)) {o' : Nat} (ho : o' ≠ o) : t.held d o' = s.held d o' := by
  obtain ⟨v, hv, hcharge⟩ := allocate_fld h (f := F.GK_TALLY_HELD) (by decide) (.inl (by decide))
  exact (hcharge _).trans ((chargeCells_held_other v d o n ho).trans (State.fld_of_flds_eq hv _ _))

theorem allocate_heldAll (h : allocate d o n out q s = some (cs, t)) (hfit : s.heldAll d + n < 32768) : t.heldAll d = s.heldAll d + n := by
  obtain ⟨v, hv, hcharge⟩ := allocate_fld h (f := F.GK_STATUS_HELD) (by decide) (.inr (by decide))
  have hheld : v.heldAll d = s.heldAll d := State.fld_of_flds_eq hv _ _
  rw [← hheld] at hfit ⊢
  exact (hcharge _).trans (chargeCells_heldAll v d o n hfit)

theorem allocate_minCells (h : allocate d o n out q s = some (cs, t)) (o' : Nat) : t.minCells d o' = s.minCells d o' := by
  unfold State.minCells
  rw [allocate_fld_kept h (by decide), allocate_fld_kept h (by decide)]

/-- What a request takes beyond its owner's minimum comes out of the shared pool. -/
theorem need_le_sharedFree_of_allocOk (hpool : 0 ≤ s.sharedFree d) (h : allocOk s d o n out = true) :
    ((n - (s.minCells d o - s.held d o) : Nat) : Int) ≤ s.sharedFree d := by
  by_cases hmin : s.held d o + n ≤ s.minCells d o
  · rwa [show n - (s.minCells d o - s.held d o) = 0 by omega]
  · by_contra hneed
    simp [allocOk, hmin, not_le.mp hneed] at h

/-- A charge uses up the owner's own minimum before anything else. -/
theorem reserveFree_of_charge (h1 : 1 ≤ o) (h255 : o ≤ 255) (hmin : ∀ o', t.minCells d o' = s.minCells d o')
    (hself : t.held d o = s.held d o + n) (hother : ∀ o', o' ≠ o → t.held d o' = s.held d o') :
    t.reserveFree d + min n (s.minCells d o - s.held d o) = s.reserveFree d := by
  have hi : o - 1 ∈ Finset.range 255 := Finset.mem_range.mpr (by omega)
  have hsum (u : State) : u.reserveFree d = ∑ i ∈ Finset.range 255, (u.minCells d (i + 1) - u.held d (i + 1)) := rfl
  rw [hsum, hsum, ← Finset.add_sum_erase _ _ hi, ← Finset.add_sum_erase _ _ hi, Nat.sub_add_cancel h1, hmin, hself]
  have hrest : ∑ i ∈ (Finset.range 255).erase (o - 1), (t.minCells d (i + 1) - t.held d (i + 1)) =
      ∑ i ∈ (Finset.range 255).erase (o - 1), (s.minCells d (i + 1) - s.held d (i + 1)) := by
    refine Finset.sum_congr rfl fun i hne => ?_
    rw [hmin, hother _ (by have := Finset.ne_of_mem_erase hne; omega)]
  omega

end

/-- Settles O23: the shared pool falls by what the grant takes beyond the owner's minimum, which the decision has found in it. -/
theorem grantsKeepTheReserves : Obligations.GrantsKeepTheReserves := by
  intro s t d o n out q cs h1 h255 hm hfit hpool halloc
  obtain ⟨hok, hlen, -⟩ := allocate_granted halloc
  have hneed := need_le_sharedFree_of_allocOk hpool hok
  have hself := allocate_held_same halloc hfit
  have hother : ∀ o', o' ≠ o → t.held d o' = s.held d o' := fun _ => allocate_held_other halloc
  have hmanaged : t.managed d = s.managed d := allocate_fld_kept halloc (by decide) _
  have hres := reserveFree_of_charge h1 h255 (allocate_minCells halloc) hself hother
  have hall : t.heldAll d = s.heldAll d + n := allocate_heldAll halloc (by simp only [State.sharedFree] at hneed; omega)
  refine ⟨hlen, hself, hother, hall, ?_⟩
  simp only [State.sharedFree, hall, hmanaged] at hneed ⊢
  omega

end Sys2Proof.Machine
end

section
/-! SUPPORT. The Crossing Matcher (R145 to R149): a slice grants within its own capacities, and a round accepts no write that was not granted.
Both capacities are counts of the same kind, of the writes from a source to a destination that satisfy a predicate. -/

namespace Sys2Proof.Machine

/-! ## Counts of used slots (R145) -/

/-- The slots of a frame that `m` counts are those of the writes from `src` to `dst` with `P src dst`. -/
structure CountsSlots (m : FrameUse → Nat) (P : Nat → Nat → Bool) : Prop where
  useSlot : ∀ u src dst, m (useSlot u src dst) = m u + if P src dst then 1 else 0
  notes : ∀ (u : FrameUse) a b c, m { u with took := a, firstDst := b, firstSrc := c } = m u

/-- The writes into slice `q`. -/
def writesTo (q : Nat) (u : FrameUse) : Nat := tabGet 0 u.writes [q]

/-- The crossings from die `d` into slice `q`. -/
def crossings (d q : Nat) (u : FrameUse) : Nat := tabGet 0 u.cross [d, q]

theorem countsSlots_writesTo (q : Nat) : CountsSlots (writesTo q) (fun _ dst => dst = q) where
  useSlot u src dst := by
    by_cases h : dst = q
    · simp [writesTo, Machine.useSlot, h]
    · rw [writesTo, Machine.useSlot, tabGet_set_other _ _ _ _ (by simpa using Ne.symm h)]
      simp [writesTo, h]
  notes _ _ _ _ := rfl

theorem countsSlots_crossings {d q : Nat} (hdq : d ≠ q) : CountsSlots (crossings d q) (fun src dst => src = d ∧ dst = q) where
  useSlot u src dst := by
    by_cases hsame : src = dst
    · have hno : ¬(src = d ∧ dst = q) := fun h => hdq (h.1.symm.trans (hsame.trans h.2))
      simp only [decide_eq_false hno, crossings, Machine.useSlot, if_pos hsame]
      rfl
    · simp only [crossings, Machine.useSlot, if_neg hsame, tabGet_set]
      by_cases h : src = d ∧ dst = q
      · obtain ⟨rfl, rfl⟩ := h
        simp
      · have hk : [d, q] ≠ [src, dst] := fun e => h (by simpa [eq_comm] using e)
        simp [hk, h]
  notes _ _ _ _ := rfl

/-- The slots used are within *Switch core capacities*. -/
def WithinCapacities (u : FrameUse) : Prop := ∀ q, writesTo q u ≤ 12 ∧ ∀ d, d ≠ q → crossings d q u ≤ 2

/-- The slots that writes into slice `q` for these requests use. -/
def useAsks (q : Nat) (u : FrameUse) (l : List Ask) : FrameUse := l.foldl (fun u a => useSlot u a.req.die q) u

theorem useSlot_within {u : FrameUse} {src dst : Nat} (h : WithinCapacities u) (hfree : slotFree u src dst = true) :
    WithinCapacities (useSlot u src dst) := by
  simp only [slotFree, Bool.and_eq_true, Bool.or_eq_true, decide_eq_true_eq] at hfree
  obtain ⟨hw, hc⟩ := hfree
  intro q
  obtain ⟨hwrites, hcross⟩ := h q
  refine ⟨?_, fun d hd => ?_⟩
  · rw [(countsSlots_writesTo q).useSlot]
    by_cases hq : dst = q
    · subst hq
      simpa [writesTo] using hw
    · simpa [hq] using hwrites
  · rw [(countsSlots_crossings hd).useSlot]
    by_cases hq : src = d ∧ dst = q
    · obtain ⟨rfl, rfl⟩ := hq
      have := hc.resolve_left hd
      simpa [crossings] using this
    · simpa [hq] using hcross d hd

/-! ## The grants of a slice (R147, R148) -/

/-- A tier grants some of its requests, each while its slots are free. -/
theorem grantAll_within {q : Nat} (l : List Ask) {u : FrameUse} (h : WithinCapacities u) (acc : List Ask) :
    ∃ g, grantAll q l u acc = (acc ++ g, useAsks q u g) ∧ WithinCapacities (useAsks q u g) := by
  induction l generalizing u acc with
  | nil => exact ⟨[], by simp [grantAll, useAsks], h⟩
  | cons a l ih =>
    unfold grantAll
    split
    · next hfree =>
      obtain ⟨g, hg, hwithin⟩ := ih (useSlot_within h hfree) (acc ++ [a])
      exact ⟨a :: g, by rw [hg, List.append_assoc]; rfl, hwithin⟩
    · exact ih h acc

/-- A step of the share cycle ends the walk, or grants one request whose slots are free. -/
theorem grantShared_succ {q : Nat} (cycle : List (Option Nat)) (fuel pos rr : Nat) (asks : List Ask) (u : FrameUse) (acc : List Ask) :
    (grantShared q cycle (fuel + 1) pos rr asks u acc).1 = acc ∨
      ∃ a rr', slotFree u a.req.die q = true ∧ grantShared q cycle (fuel + 1) pos rr asks u acc =
        grantShared q cycle fuel (pos + 1) rr' (asks.erase a) (useSlot u a.req.die q) (acc ++ [a]) := by
  rw [grantShared]
  extract_lets owner mine next
  split
  · exact .inl rfl
  split
  next pick rr' hpick =>
  cases pick with
  | none => exact .inl rfl
  | some a =>
    have ha : a ∈ asks.filter (fun a => slotFree u a.req.die q) := by
      cases hmine : mine with
      | some b =>
        rw [hmine] at hpick
        obtain rfl : b = a := Option.some.inj (congrArg Prod.fst hpick)
        clear_value owner
        cases owner with
        | none => exact nomatch (hmine : none = some b)
        | some n => exact List.mem_of_find?_eq_some hmine
      | none =>
        rw [hmine] at hpick
        dsimp only at hpick
        split at hpick
        · next b hnext =>
          obtain rfl : b = a := Option.some.inj (congrArg Prod.fst hpick)
          obtain ⟨n, -, hn⟩ := List.exists_of_findSome?_eq_some hnext
          exact List.mem_of_find?_eq_some hn
        · cases hpick
    exact .inr ⟨a, rr', (List.mem_filter.mp ha).2, rfl⟩

theorem grantShared_within {q : Nat} (cycle : List (Option Nat)) (fuel pos rr : Nat) (asks : List Ask) {u : FrameUse}
    (h : WithinCapacities u) (acc : List Ask) :
    ∃ g, (grantShared q cycle fuel pos rr asks u acc).1 = acc ++ g ∧ WithinCapacities (useAsks q u g) := by
  induction fuel generalizing pos rr asks u acc with
  | zero => exact ⟨[], by simp [grantShared], h⟩
  | succ fuel ih =>
    rcases grantShared_succ cycle fuel pos rr asks u acc with hend | ⟨a, rr', hfree, hstep⟩
    · exact ⟨[], by rw [hend, List.append_nil], h⟩
    · obtain ⟨g, hg, hwithin⟩ := ih (pos + 1) rr' (asks.erase a) (useSlot_within h hfree) (acc ++ [a])
      exact ⟨a :: g, by rw [hstep, hg, List.append_assoc]; rfl, hwithin⟩

theorem useAsks_append (q : Nat) (u : FrameUse) (l l' : List Ask) : useAsks q u (l ++ l') = useAsks q (useAsks q u l) l' :=
  List.foldl_append

theorem grantsAt_within (s : State) {u : FrameUse} (h : WithinCapacities u) (q : Nat) : WithinCapacities (useAsks q u (grantsAt s u q).1) := by
  unfold grantsAt
  extract_lets asks order bySrc stages sheafs tiles engines
  obtain ⟨g1, hg1, h1⟩ := grantAll_within stages h []
  obtain ⟨g2, hg2, h2⟩ := grantAll_within sheafs h1 []
  rw [hg1, List.nil_append]
  dsimp only
  rw [hg2, List.nil_append]
  dsimp only
  obtain ⟨g3, hg3, h3⟩ := grantShared_within (shareCycle s q) 12 (tabGet 0 s.gran.shareAt [q]) (tabGet 0 s.gran.rrAt [q]) (tiles ++ engines) h2 []
  rw [useAsks_append, useAsks_append, hg3]
  exact h3

/-! ## The acceptance of a round (R147) -/

/-- Elements counted key by key are counted at most once where no key stands twice. -/
theorem sum_countP_filter_key_le {α κ : Type} [DecidableEq κ] (key : α → κ) (p : α → Bool) {ks : List κ} (hks : ks.Nodup) (l : List α) :
    (ks.map fun k => (l.filter fun a => key a = k).countP p).sum ≤ l.countP p := by
  induction ks generalizing l with
  | nil => exact Nat.zero_le _
  | cons k ks ih =>
    obtain ⟨hk, hks⟩ := List.nodup_cons.mp hks
    rw [List.map_cons, List.sum_cons, List.countP_eq_countP_filter_add l p fun a => key a = k]
    refine Nat.add_le_add_left (le_of_eq_of_le (congrArg List.sum (List.map_congr_left fun k' hk' => ?_)) (ih hks _)) _
    rw [List.filter_filter]
    refine congrArg (List.countP p) (List.filter_congr fun a _ => ?_)
    by_cases hkey : key a = k'
    · simpa [hkey] using ne_of_mem_of_not_mem hk' hk
    · simp [hkey]

/-- A measure that each step raises by at most `c` is raised by a run by at most their sum. -/
theorem foldl_le_add_sum {β ρ : Type} {f : β → ρ → β} {m : β → Nat} {c : ρ → Nat} (h : ∀ b r, m (f b r) ≤ m b + c r) (l : List ρ) (b : β) :
    m (l.foldl f b) ≤ m b + (l.map c).sum := by
  induction l generalizing b with
  | nil => exact Nat.le_refl _
  | cons r l ih => exact (ih (f b r)).trans (by rw [List.map_cons, List.sum_cons]; have := h b r; omega)

/-- Where only `q` contributes and stands at most once, the sum is at most what it contributes. -/
theorem sum_map_le_of_single {l : List Nat} (hl : l.Nodup) {c : Nat → Nat} {q : Nat} (h : ∀ k, k ≠ q → c k = 0) : (l.map c).sum ≤ c q :=
  calc (l.map c).sum = l.count q * c q := List.sum_map_eq_nsmul_single q c fun k hk _ => h k hk
    _ ≤ 1 * c q := Nat.mul_le_mul_right _ (List.nodup_iff_count_le_one.mp hl q)
    _ = c q := Nat.one_mul _

theorem nodup_rotated (start n : Nat) : (rotated start n).Nodup := by
  refine List.nodup_range.map_on fun i hi j hj h => ?_
  exact (Nat.ModEq.add_left_cancel' _ h).eq_of_lt_of_lt (List.mem_range.mp hi) (List.mem_range.mp hj)

section
variable {m : FrameUse → Nat} {P : Nat → Nat → Bool} (hm : CountsSlots m P)
include hm

theorem CountsSlots.foldl_useSlot {α : Type} (src dst : α → Nat) (l : List α) (u : FrameUse) :
    m (l.foldl (fun u a => Machine.useSlot u (src a) (dst a)) u) = m u + l.countP fun a => P (src a) (dst a) := by
  induction l generalizing u with
  | nil => rfl
  | cons a l ih => rw [List.foldl_cons, ih, hm.useSlot, List.countP_cons, Nat.add_assoc, Nat.add_comm (ite ..)]

/-- A round accepts each grant at most once. -/
theorem CountsSlots.acceptRound_le (grants : List (Nat × Ask)) (u : FrameUse) (s : State) :
    m (acceptRound grants u s).1 ≤ m u + grants.countP fun g => P g.2.req.die g.1 := by
  unfold acceptRound
  extract_lets reqs
  refine (foldl_le_add_sum (m := fun x : FrameUse × State => m x.1)
    (c := fun r => (grants.filter fun g => g.2.req = r).countP fun g => P g.2.req.die g.1) (fun acc r => ?_) reqs (u, s)).trans
    (Nat.add_le_add_left (sum_countP_filter_key_le _ _ (List.nodup_dedup _) grants) _)
  extract_lets u s order mine left take u₁ u₂ u₃ s'
  have hmine : mine.countP (fun g => P r.die g.1) ≤ (grants.filter fun g => g.2.req = r).countP fun g => P r.die g.1 := by
    refine le_of_eq_of_le ?_ (sum_countP_filter_key_le (·.1) _ (nodup_rotated (tabGet 7 s.gran.lastDst (requesterKey r)) 8) _)
    rw [List.countP_flatMap]
    refine congrArg List.sum (List.map_congr_left fun q _ => ?_)
    simp only [Function.comp, List.filter_filter]
  calc m u₃ = m u₁ := hm.notes u₁ _ _ _
    _ = m u + take.countP (fun g => P r.die g.1) := hm.foldl_useSlot (fun _ => r.die) (·.1) take u
    _ ≤ m u + mine.countP (fun g => P r.die g.1) := Nat.add_le_add_left (List.take_sublist _ _).countP_le _
    _ ≤ m u + (grants.filter fun g => g.2.req = r).countP (fun g => P g.2.req.die g.1) := by
      refine Nat.add_le_add_left (hmine.trans_eq (List.countP_congr fun g hg => ?_)) _
      rw [of_decide_eq_true (List.mem_filter.mp hg).2]

/-- A round takes of a slice's slots no more than the slice has granted. -/
theorem CountsSlots.matcherRound_le {q : Nat} (hq : ∀ src dst, P src dst = true → dst = q) (n : Nat) (u : FrameUse) (s : State) :
    m (matcherRound n (u, s)).1 ≤ m (useAsks q u (grantsAt s u q).1) := by
  unfold matcherRound
  extract_lets s' live gs s'' u'
  have hu : m u' = m u := List.foldlRecOn (motive := fun v => m v = m u) gs _ rfl fun v hv g _ => (hm.notes v _ _ _).trans hv
  have hlive : live.Nodup := List.Nodup.filter _ (by decide)
  have hzero (k : Nat) (hk : k ≠ q) : ((grantsAt s u k).1.countP fun a => P a.req.die k) = 0 :=
    List.countP_eq_zero.mpr fun a _ h => hk (hq _ _ h)
  have hsum := sum_map_le_of_single hlive hzero
  refine (hm.acceptRound_le _ u' s'').trans ?_
  rw [hu, useAsks, hm.foldl_useSlot (fun a : Ask => a.req.die) (fun _ => q), List.countP_flatMap, List.map_map]
  simp only [Function.comp_def, List.countP_map]
  exact Nat.add_le_add_left hsum _

end

/-- Settles O24: what a round takes of a capacity is within what the slice it is of has granted, and a grant is made only of a free slot. -/
theorem matcherKeepsTheCapacities : Obligations.MatcherKeepsTheCapacities := by
  intro s u n h q
  have hgrants := grantsAt_within s (show WithinCapacities u from h) q q
  refine ⟨?writes, fun d hd => ?crossings⟩
  case writes => exact ((countsSlots_writesTo q).matcherRound_le (by simp) n u s).trans hgrants.1
  case crossings => exact ((countsSlots_crossings hd).matcherRound_le (by simp) n u s).trans (hgrants.2 d hd)

end Sys2Proof.Machine
end

section
/-! SUPPORT. The Tally's scan of an owner (R163, R164): the oldest of its held cells, and when a scan raises a leak. -/

namespace Sys2Proof.Machine

/-! ## The oldest cell of an owner (R163) -/

section
variable (s : State)

/-- The cell that a scan keeps of two: the older one, or the first where they are of one age. -/
def olderCell (b c : Nat × CellRec) : Nat × CellRec := if cellAgeUs s b.2 < cellAgeUs s c.2 then c else b

/-- The cell that a scan finds oldest. -/
def oldestCell (cs : List (Nat × CellRec)) : Nat × CellRec := cs.foldl (olderCell s) (cs.headD (0, {}))

/-- The age that a scan shows of an owner with these cells. -/
def oldestAge (cs : List (Nat × CellRec)) : Nat := if cs = [] then 0 else cellAgeUs s (oldestCell s cs).2

theorem olderCell_eq_or (b c : Nat × CellRec) : olderCell s b c = b ∨ olderCell s b c = c := by
  unfold olderCell
  split
  · exact .inr rfl
  · exact .inl rfl

theorem cellAgeUs_olderCell (b c : Nat × CellRec) : cellAgeUs s (olderCell s b c).2 = max (cellAgeUs s b.2) (cellAgeUs s c.2) := by
  unfold olderCell
  split
  · next h => exact (max_eq_right_of_lt h).symm
  · next h => exact (max_eq_left (not_lt.mp h)).symm

theorem foldl_olderCell_mem (cs : List (Nat × CellRec)) (b : Nat × CellRec) : cs.foldl (olderCell s) b ∈ b :: cs := by
  induction cs generalizing b with
  | nil => exact List.mem_singleton_self b
  | cons c cs ih =>
    rw [List.foldl_cons]
    rcases List.mem_cons.mp (ih (olderCell s b c)) with h | h
    · rw [h]
      rcases olderCell_eq_or s b c with hb | hc
      · simp [hb]
      · simp [hc]
    · simp [h]

theorem cellAgeUs_le_foldl_olderCell (cs : List (Nat × CellRec)) (b : Nat × CellRec) :
    ∀ c ∈ b :: cs, cellAgeUs s c.2 ≤ cellAgeUs s (cs.foldl (olderCell s) b).2 := by
  induction cs generalizing b with
  | nil => simp
  | cons c cs ih =>
    obtain ⟨hfirst, hrest⟩ := List.forall_mem_cons.mp (ih (olderCell s b c))
    rw [cellAgeUs_olderCell] at hfirst
    exact List.forall_mem_cons.mpr ⟨(le_max_left ..).trans hfirst, List.forall_mem_cons.mpr ⟨(le_max_right ..).trans hfirst, hrest⟩⟩

theorem oldestCell_mem {cs : List (Nat × CellRec)} (h : cs ≠ []) : oldestCell s cs ∈ cs := by
  cases cs with
  | nil => exact absurd rfl h
  | cons c cs => simpa [oldestCell, olderCell] using foldl_olderCell_mem s cs c

theorem cellAgeUs_le_oldestAge {cs : List (Nat × CellRec)} {c : Nat × CellRec} (hc : c ∈ cs) : cellAgeUs s c.2 ≤ oldestAge s cs := by
  cases cs with
  | nil => exact absurd hc List.not_mem_nil
  | cons b cs => simpa [oldestAge, oldestCell, olderCell] using cellAgeUs_le_foldl_olderCell s cs b c hc

theorem oldestAge_mem {cs : List (Nat × CellRec)} (h : cs ≠ []) : ∃ c ∈ cs, oldestAge s cs = cellAgeUs s c.2 :=
  ⟨oldestCell s cs, oldestCell_mem s h, if_neg h⟩

end

/-! ## The scan of an owner (R164) -/

section
variable {s : State} {d o : Nat}

/-- The age `age` of an owner is above its limit. -/
def overAge (s : State) (d o age : Nat) : Bool :=
  decide (s.fld F.GK_OWNER_TALLY_AGE_US [d, o] ≠ 0) && decide (s.fld F.GK_OWNER_TALLY_AGE_US [d, o] < age)

/-- What a scan shows of an owner whose oldest cell is of age `age`, and keeps for the next scan. -/
def showAge (d o age : Nat) (s : State) : State :=
  { s.setFld F.GK_TALLY_OLDEST_AGE_US age [d, o] with
    gran := { s.gran with leaking := tabSet 0 s.gran.leaking [d, o] (b2n (overAge s d o age)) } }

theorem scanOwner_of_agreeing (h : (heldCells s d o).length = s.held d o) :
    scanOwner d o s =
      if overAge s d o (oldestAge s (heldCells s d o)) = true ∧ tabGet 0 s.gran.leaking [d, o] = 0 then
        raiseLeak d o (oldestCell s (heldCells s d o)).1 (showAge d o (oldestAge s (heldCells s d o)) s)
      else showAge d o (oldestAge s (heldCells s d o)) s := by
  unfold scanOwner
  dsimp only
  rw [if_pos h]
  rfl

end

/-! ## The commands -/

section
variable (s : State)

theorem exec_matcherFrame : exec .matcherFrame s = .next (finish s (pumpAll (matcherFrame (retryWaits s)))) :=
  run_wellFormed (i := .matcherFrame) s _ rfl
theorem exec_tallyScan {d : Nat} {l : List (Nat × Bool)} (hd : d < 8) (hl : ∀ e ∈ l, e.1 < 24576) :
    exec (.tallyScan d l) s = .next (finish s (tallyScan d l s)) :=
  run_wellFormed (i := .tallyScan d l) s _ (decide_eq_true ⟨hd, hl⟩)

end

/-- Settles O25: the oldest age is reached by a cell and passed by none; only an age above the limit is a leak, and only where the scan before did
not find one (log 63). -/
theorem scansComplete : Obligations.ScansComplete := by
  refine ⟨exec_matcherFrame, fun s d l hd hl => exec_tallyScan s hd hl, ?shows, ?raises⟩
  case shows =>
    intro s d o hlen hlimit
    have hage : overAge s d o (oldestAge s (heldCells s d o)) = false := by
      rw [overAge, Bool.and_eq_false_iff, decide_eq_false_iff_not, decide_eq_false_iff_not, not_not]
      refine hlimit.imp_right fun hle => not_lt.mpr ?_
      by_cases hnone : heldCells s d o = []
      · simp [oldestAge, hnone]
      · exact (if_neg hnone).trans_le (hle _ (oldestCell_mem s hnone))
    refine ⟨oldestAge s (heldCells s d o), ?_, fun c hc => cellAgeUs_le_oldestAge s hc, oldestAge_mem s⟩
    rw [scanOwner_of_agreeing hlen, if_neg (by simp [hage]), showAge, hage]
    rfl
  case raises =>
    intro s d o c r hcells hheld hlimit hbeyond hnew
    have holdest : oldestCell s [(c, r)] = (c, r) := by simp [oldestCell, olderCell]
    have hage : oldestAge s [(c, r)] = cellAgeUs s r := by simp [oldestAge, holdest]
    have hover : overAge s d o (cellAgeUs s r) = true := by simp [overAge, hlimit, hbeyond]
    rw [scanOwner_of_agreeing (by rw [hcells, hheld]; rfl), hcells, hage, if_pos ⟨hover, hnew⟩, holdest, showAge, hover]
    rfl

end Sys2Proof.Machine
end

section
/-! SUPPORT. Scheduled departures (R179, R182): a packet at its due instant, and what the end of a slot's windows checks (R180). -/

namespace Sys2Proof.Machine

/-! ## At the due instant (R153, R179) -/

section
variable {s : State} {i pos x pid : Nat} {r : RbRecord} {k : Pkt}

/-- Packet `pos` of slot `i`, which stands in record `r`, is `k`, and the departure window of its step opened `x` sixteenths of a nanosecond
ago; its due instant has come, and time is valid. -/
structure DueNow (s : State) (i pos x pid : Nat) (r : RbRecord) (k : Pkt) : Prop where
  running : s.fld F.SM_STATUS_STATE ≠ 2
  record : s.record i = some r
  packet : (slotPackets s i).find? (fun e => trainPos r e.2 = pos) = some (pid, k)
  valid : s.timeValid = true
  opened : s.fld F.RB_EPOCH_COUNT + k.rbStep * s.periodUnits + 16 * r.dep + x = s.now
  due : 16 * trainStart r pos * unitTime s r.outKind r.outUnit ≤ 100 * x

/-- A packet at its due instant is discarded where it cannot finish, and leaves where nothing holds it. -/
theorem schedDeparture_of_dueNow (h : DueNow s i pos x pid r k) :
    schedDeparture i pos s =
      if 1600 * r.len < 100 * x + 16 * r.units * unitTime s r.outKind r.outUnit then lateDiscard r k.rbStep pid s
      else if k.stage = .queued ∧ s.atFloor r.outDie ∧ outputIdle s r ∧
          !(slotPackets s i).any (fun e => e.2.rbStep = k.rbStep && decide (trainPos r e.2 < pos)) then
        departNow r pid k (decide (16 * trainStart r pos * unitTime s r.outKind r.outUnit + 100 < 100 * x)) s
      else s := by
  obtain ⟨hrun, hrec, hpkt, hvalid, hopen, hdue⟩ := h
  have hx : s.now - (s.fld F.RB_EPOCH_COUNT + k.rbStep * s.periodUnits + 16 * r.dep) = x := by omega
  have hopened : ¬s.now < s.fld F.RB_EPOCH_COUNT + k.rbStep * s.periodUnits + 16 * r.dep := by omega
  simp only [schedDeparture, if_neg hrun, hrec, hpkt, hx, hvalid, decide_eq_false hopened, decide_eq_false hdue.not_gt]
  rfl

/-- One that cannot finish in its window is discarded. -/
theorem schedDeparture_of_late (h : DueNow s i pos x pid r k) (hlate : 1600 * r.len < 100 * x + 16 * r.units * unitTime s r.outKind r.outUnit) :
    schedDeparture i pos s = lateDiscard r k.rbStep pid s := by
  rw [schedDeparture_of_dueNow h, if_pos hlate]

theorem schedDeparture_of_ready (h : DueNow s i pos x pid r k) (hfits : 100 * x + 16 * r.units * unitTime s r.outKind r.outUnit ≤ 1600 * r.len)
    (hst : k.stage = .queued) (hfloor : s.atFloor r.outDie = true) (hidle : outputIdle s r = true)
    (hfirst : (slotPackets s i).any (fun e => e.2.rbStep = k.rbStep && decide (trainPos r e.2 < pos)) = false) :
    schedDeparture i pos s =
      departNow r pid k (decide (16 * trainStart r pos * unitTime s r.outKind r.outUnit + 100 < 100 * x)) s := by
  rw [schedDeparture_of_dueNow h, if_neg hfits.not_gt, if_pos ⟨hst, hfloor, hidle, by rw [hfirst]; rfl⟩]

end

/-! ## At the end of the windows (R180, R182) -/

section
variable {s : State} {i n x : Nat} {r : RbRecord}

theorem slotShortfallCheck_of_end (hrec : s.record i = some r)
    (hstep : s.stepOf s.now (16 * (r.arr + r.len + s.guardNs) : Nat) = some (n, x)) (hlive : s.recLive r = true)
    (hnew : (s.runOf i n).shortDone = false) :
    slotShortfallCheck i s =
      (let u := s.setRun i { s.runOf i n with shortDone := true }
       if r.expect = true ∧ (s.runOf i n).eligible < r.pkts
       then lateSlotFault r.inDie i (r.pkts - (s.runOf i n).eligible) r.field 0x01 (u.bump F.RB_LATE_SHORTFALL [r.inDie]) else u) := by
  simp only [slotShortfallCheck, hrec, hstep, hlive, hnew]
  rfl

theorem departureWindowEnd_of_end (hrec : s.record i = some r) (hstep : s.stepOf s.now (16 * (r.dep + r.len) : Nat) = some (n, x))
    (hnew : (s.runOf i n).windowDone = false) :
    departureWindowEnd i s =
      (let u := s.forAll ((slotPackets s i).filter (fun e => decide (e.2.rbStep ≤ n))) (fun e v => lateDiscard r n e.1 v)
       let v := u.setRun i { u.runOf i n with windowDone := true }
       let w := if 0 < (u.runOf i n).late then lateSlotFault r.outDie i (u.runOf i n).late r.field 0x02 v else v
       w.forAll (((List.range r.cells).map (· + r.base)).filter (· ∉ (slotPackets w i).flatMap (fun e => e.2.cells))) (windowLeak r.outDie)) := by
  simp only [departureWindowEnd, hrec, hstep, hnew]
  rfl

end

/-! ## The commands -/

section
variable (s : State) {i : Nat} (pos : Nat)

theorem exec_schedDeparture (hi : i < 16384) : exec (.schedDeparture i pos) s = .next (finish s (schedDeparture i pos s)) :=
  run_wellFormed (i := .schedDeparture i pos) s _ (decide_eq_true hi)
theorem exec_slotShortfallCheck (hi : i < 16384) : exec (.slotShortfallCheck i) s = .next (finish s (slotShortfallCheck i s)) :=
  run_wellFormed (i := .slotShortfallCheck i) s _ (decide_eq_true hi)
theorem exec_departureWindowEnd (hi : i < 16384) : exec (.departureWindowEnd i) s = .next (finish s (departureWindowEnd i s)) :=
  run_wellFormed (i := .departureWindowEnd i) s _ (decide_eq_true hi)

end

/-- Settles O29: a packet at its due instant leaves or is discarded by its fit alone, and each check at the end of a window runs once a step. What
is late (log 30) and the die that counts it (log 70) are the choices of the model. -/
theorem scheduledDeparturesComplete : Obligations.ScheduledDeparturesComplete := by
  refine ⟨?leaves, ?late, ?shortfall, ?windowEnd⟩
  case leaves =>
    intro s i pos x pid r k hi hrun hrec hpkt hvalid hopen hdue hfits hst hfloor hidle hfirst
    rw [exec_schedDeparture s pos hi, schedDeparture_of_ready ⟨hrun, hrec, hpkt, hvalid, hopen, hdue⟩ hfits hst hfloor hidle hfirst]
    simp only [departNow, decide_eq_true_eq]
  case late =>
    intro s i pos x pid r k hi hrun hrec hpkt hvalid hopen hdue hlate
    rw [exec_schedDeparture s pos hi, schedDeparture_of_late ⟨hrun, hrec, hpkt, hvalid, hopen, hdue⟩ hlate]
    rfl
  case shortfall =>
    intro s i n x r hi hrec hstep hlive hnew
    rw [exec_slotShortfallCheck s hi, slotShortfallCheck_of_end hrec hstep hlive hnew]
  case windowEnd =>
    intro s i n x r hi hrec hstep hnew
    rw [exec_departureWindowEnd s hi, departureWindowEnd_of_end hrec hstep hnew]

end Sys2Proof.Machine
end

section
/-! SUPPORT. The seal checks (R176): what each kind of check asks of the records of a bank, and what a bank that passes them all meets. -/

namespace Sys2Proof.Machine

/-! ## Kinds of checks -/

section
variable {recs : List RbRecord}

theorem firstBad_eq_none_iff {ok : RbRecord → Bool} : firstBad recs ok = none ↔ ∀ r ∈ recs, ok r = true := by
  simp [firstBad]

theorem firstPair_eq_none_iff {bad : RbRecord → RbRecord → Bool} :
    firstPair bad recs = none ↔ recs.Pairwise (fun r q => bad r q = false) := by
  induction recs with
  | nil => simp [firstPair]
  | cons r t ih =>
    rw [firstPair, List.pairwise_cons, ← ih]
    cases hfound : t.find? (bad r) with
    | none => exact (and_iff_right fun q hq => Bool.not_eq_true _ ▸ List.find?_eq_none.mp hfound q hq).symm
    | some q =>
      refine iff_of_false (Option.some_ne_none _) fun hclear => ?_
      exact Bool.false_ne_true ((hclear.1 q (List.mem_of_find?_eq_some hfound)).symm.trans (List.find?_some hfound))

/-- Where no two neighbours are out of order, no two indices are. -/
theorem pairwise_lt_of_neighbours {l : List Nat} (h : (l.zip (l.drop 1)).find? (fun p => decide (p.2 ≤ p.1)) = none) :
    l.Pairwise (· < ·) := by
  rw [← List.isChain_iff_pairwise]
  induction l with
  | nil => exact .nil
  | cons a t ih =>
    cases t with
    | nil => exact .singleton a
    | cons b t =>
      simp only [List.drop_succ_cons, List.drop_zero, List.zip_cons_cons, List.find?_cons] at h
      split at h
      · simp at h
      · next hab => exact .cons_cons (by simpa using hab) (ih (by simpa using h))

theorem overlap_eq_false_iff {a b c d : Nat} : overlap a b c d = false ↔ b ≤ c ∨ d ≤ a := by
  rw [overlap, decide_eq_false_iff_not]
  omega

end

/-! ## A bank that passes -/

/-- What the checks 0x01, 0x07, 0x09 and 0x0A to 0x0D ask of the records of a bank with header `h`. -/
structure SlotsChecked (s : State) (h : RbHeader) (recs : List RbRecord) : Prop where
  ascending : recs.Pairwise (fun r q => r.index < q.index)
  windows : ∀ r ∈ recs, r.arr % 16 = 0 ∧ r.dep % 16 = 0 ∧ r.arr + r.len ≤ h.period ∧ r.dep + r.len ≤ h.period
  lag : ∀ r ∈ recs, lagHolds s h.guardNs h.floor.tproc r = true
  cells : ∀ r ∈ recs, r.pkts * r.perPkt ≤ r.cells ∧ 24576 - h.sched.getD r.outDie 0 ≤ r.base ∧ r.base + r.cells ≤ 24576
  inputs : recs.Pairwise (fun r q => r.inKind = q.inKind → r.inUnit = q.inUnit → r.arr + r.len ≤ q.arr ∨ q.arr + q.len ≤ r.arr)
  outputs : recs.Pairwise (fun r q => r.outKind = q.outKind → r.outUnit = q.outUnit → r.dep + r.len ≤ q.dep ∨ q.dep + q.len ≤ r.dep)
  shared : recs.Pairwise (fun r q => r.outDie = q.outDie → r.base + r.cells ≤ q.base ∨ q.base + q.cells ≤ r.base ∨
    r.dep + r.len ≤ q.arr ∨ q.dep + q.len ≤ r.arr)

theorem slotsChecked_of_sealCheckBank {s : State} {l : List Byte} (h : sealCheckBank s l = none) :
    SlotsChecked s (headerOf l) (bankOf l).recs := by
  simp only [sealCheckBank, Option.orElse_eq_orElse, Option.orElse_eq_or, Option.or_eq_none_iff, Option.map_eq_none_iff,
    firstBad_eq_none_iff, firstPair_eq_none_iff, Bool.and_eq_false_iff, decide_eq_false_iff_not, overlap_eq_false_iff, or_assoc]
    at h
  simp only [← imp_iff_not_or] at h
  obtain ⟨-, -, hascending, -, -, -, -, -, hwindows, -, hlag, hcells, hinputs, houtputs, hshared, -, -⟩ := h
  exact {
    ascending := List.pairwise_map.mp (pairwise_lt_of_neighbours hascending)
    windows := fun r hr => of_decide_eq_true (hwindows r hr)
    lag := hlag
    cells := fun r hr => of_decide_eq_true (hcells r hr)
    inputs := hinputs
    outputs := houtputs
    shared := hshared }

/-- Settles O30: what each check asks of a record or of two is what the statement says of them. -/
theorem sealChecksKeepSlotsApart : Obligations.SealChecksKeepSlotsApart := by
  intro s l hpass
  obtain ⟨hascending, hwindows, hlag, hcells, hinputs, houtputs, hshared⟩ := slotsChecked_of_sealCheckBank hpass
  refine ⟨fun r hr => ?_, hascending.and (hinputs.and (houtputs.and hshared))⟩
  obtain ⟨harr, hdep, hin, hout⟩ := hwindows r hr
  obtain ⟨hfit, hlow, hhigh⟩ := hcells r hr
  exact ⟨harr, hdep, hin, hout, hlag r hr, hlow, (Nat.add_le_add_left hfit _).trans hhigh⟩

end Sys2Proof.Machine
end

section
/-! SUPPORT. Banks and suspensions of the Road Book: what the end of a bank's checks, a swap at its count (R184, R185), an alarm (R189), a
suspension (R191) and a resume (R192) each do. -/

namespace Sys2Proof.Machine

theorem mem_dies {d : Nat} : d ∈ dies ↔ d < 8 := List.mem_range (n := 8)

/-! ## DETAIL of an event (R421) -/

section
variable {s t : State} {d : Nat}

/-- DETAIL shows the alarms of its die, and nothing else of the state. -/
theorem roadDetail_congr (h : ∀ f : Fld, f.reg = .RB_ALARM → t.fld f [d] = s.fld f [d]) (i missing : Nat) :
    roadDetail t d i missing = roadDetail s d i missing := by
  simp [roadDetail, h]

/-- The end of a suspension writes RB_SUSPEND only. -/
theorem unsuspend_fld (f : Nat) {g : Fld} (k : List Nat) (hg : g.reg ≠ .RB_SUSPEND) : (unsuspend f s).fld g k = s.fld g k := by
  unfold unsuspend
  dsimp only
  split
  · exact (State.fld_setFld_ne _ _ (.inl hg.symm)).trans (State.fld_setFld_ne _ _ (.inl hg.symm))
  · rfl

end

/-! ## The end of a bank's checks (R176, R184) -/

section
variable {s : State} {b : Nat}

theorem sealDone_of_pass (hst : s.bankState b = 2) (hpass : sealCheckBank s (s.bankBytes b) = none) :
    sealDone b s = setPendingSched (s.setBankState b 3) := by
  simp [sealDone, hst, hpass]

theorem sealDone_of_fail {c i j : Nat} (hst : s.bankState b = 2) (hfail : sealCheckBank s (s.bankBytes b) = some (c, i, j)) :
    sealDone b s =
      (((((s.setBankState b 0).setBankBytes b []).setFld F.RB_LOAD_ERR_CODE c).setFld F.RB_LOAD_ERR_BANK b).setFld
        F.RB_LOAD_ERR_SLOT_INDEX i).setFld F.RB_LOAD_ERR_OTHER_INDEX j := by
  simp [sealDone, hst, hfail]

end

/-! ## A swap at its count (R185) -/

section
variable {s : State} {m : Nat}

/-- The swap is taken from its gate, whatever comes of it. -/
def swapTaken (s : State) : State := (s.dropGate .rbSwap).setFld F.RB_BANKS_PENDING 0

theorem swapNow_of_none (hgate : s.gateAt .rbSwap = none) : swapNow s = s := by
  simp [swapNow, hgate]

/-- Whether cells are still to be ceded decides a swap that is due. -/
theorem swapNow_of_due (hgate : s.gateAt .rbSwap = some m) (hdue : m ≤ s.now) (hvalid : s.timeValid = true) :
    swapNow s =
      if dies.any (fun d => s.fld F.GK_REGIONS_CEDE_PENDING [d] = 1) then
        ((swapTaken s).setFld F.RB_BANKS_SWAP_FAILED 1).log 0x05 0x03 8 (roadDetail (swapTaken s) 0 0 0)
      else activateBank m (swapTaken s) := by
  have hcede (d : Nat) : (swapTaken s).fld F.GK_REGIONS_CEDE_PENDING [d] = s.fld F.GK_REGIONS_CEDE_PENDING [d] :=
    State.fld_setFld_ne _ _ (.inl (by decide))
  simp only [swapNow, hgate, hvalid, hdue, decide_true, Bool.and_true, if_true, ← hcede]
  rfl

theorem swapNow_of_ceded (hgate : s.gateAt .rbSwap = some m) (hdue : m ≤ s.now) (hvalid : s.timeValid = true)
    (hceded : ∀ d, d < 8 → s.fld F.GK_REGIONS_CEDE_PENDING [d] ≠ 1) : swapNow s = activateBank m (swapTaken s) := by
  rw [swapNow_of_due hgate hdue hvalid, if_neg]
  simpa only [List.any_eq_true, decide_eq_true_eq, not_exists, not_and] using fun d hd => hceded d (mem_dies.mp hd)

theorem swapNow_of_ceding {d : Nat} (hgate : s.gateAt .rbSwap = some m) (hdue : m ≤ s.now) (hvalid : s.timeValid = true) (hd : d < 8)
    (hcede : s.fld F.GK_REGIONS_CEDE_PENDING [d] = 1) :
    swapNow s = ((swapTaken s).setFld F.RB_BANKS_SWAP_FAILED 1).log 0x05 0x03 8
      (roadDetail ((swapTaken s).setFld F.RB_BANKS_SWAP_FAILED 1) 0 0 0) := by
  rw [swapNow_of_due hgate hdue hvalid, if_pos, roadDetail_congr fun f hf => State.fld_setFld_ne _ _ (.inl (by rw [hf]; decide))]
  exact List.any_eq_true.mpr ⟨d, mem_dies.mpr hd, decide_eq_true hcede⟩

end

/-! ## Alarms (R189) -/

section
variable {s : State} {d : Nat}

theorem floorAlarm_of_early {lead : Nat} (hlive : s.schedLive d = true) (hmin : 2000000 ≤ 1000 * lead)
    (hperiod : s.fld F.RB_PERIOD_PERIOD_NS ≤ 1000 * lead) :
    floorAlarm d lead s = floorAlarmOn d lead (if s.overCap then 0x05 else 0x01) s := by
  simp [floorAlarm, hlive, hmin, hperiod]

/-- The measured VCORE and Tj of die `d`. -/
def measured (d v tj : Nat) (s : State) : State := (s.setFld F.PW_DIE_STATE_VCORE_MV v [d]).setFld F.PW_DIE_STATE_TJ tj [d]

theorem floorBreach_of_first {v tj : Nat} (hlive : (measured d v tj s).schedLive d = true) (hoff : (measured d v tj s).atFloor d = false)
    (hnew : (measured d v tj s).fld F.RB_ALARM_FLOOR_ALARM [d] = 0) :
    floorBreach d v tj s = floorAlarmOn d 0 0x02 (measured d v tj s) := by
  unfold measured at *
  simp [floorBreach, hlive, hoff, hnew]

/-! ## Suspension (R191) -/

/-- The one suspension that is pending on the die takes effect at its boundary, where no swap is armed. -/
theorem suspendNow_of_due {c m : Nat} (hpending : tabGet [] s.road.suspends [d] = [(c, m)]) (hdue : s.nextBoundary m ≤ s.now)
    (hswap : s.gateAt .rbSwap = none) :
    suspendNow d s =
      (let u := s.forAll (alarmFields s d c) (suspendField d c)
       ({ u with road := { u.road with suspends := tabSet [] u.road.suspends [d] [] } } : State).setFld F.RB_ALARM_SUSPEND_PENDING 0 [d]) := by
  simp [suspendNow, swapNow_of_none hswap, hpending, hdue, State.forAll]

/-! ## Resumption (R192) -/

theorem resumeNow_of_due (hdue : s.launchDue .rbResume = true) (hswap : (s.dropGate .rbResume).gateAt .rbSwap = none) :
    resumeNow s = resumeFields s.road.resumeMask (s.dropGate .rbResume) := by
  rw [resumeNow, if_pos hdue, swapNow_of_none hswap]
  rfl

/-- The conditions of R192: time is valid, and each die on which the Field has records shows no alarm and is at the floor. -/
theorem mayResume_iff {f : Nat} : mayResume s f = true ↔ s.timeValid = true ∧ ∀ d ∈ dies,
    (∀ r ∈ s.records, r.field = f → r.touches d = false) ∨
      (s.fld F.RB_ALARM_FLOOR_ALARM [d] = 0 ∧ s.fld F.RB_ALARM_PACE_ALARM [d] = 0 ∧ s.atFloor d = true) := by
  simp only [mayResume, Bool.and_eq_true, List.all_eq_true, Bool.or_eq_true, Bool.not_eq_true', List.any_eq_false, decide_eq_true_eq,
    not_and, Bool.not_eq_true, and_assoc]

/-- The only suspended Field, in a slot of the mask, resumes or is logged. -/
theorem resumeFields_of_single {mask f n : Nat} (hone : s.road.suspended = [f]) (hslot : s.slotOf f = some n)
    (hmask : mask.testBit n = true) :
    resumeFields mask s = clearAlarms
      (if mayResume s f then (unsuspend f s).log 0x05 0x0A 8 (roadDetail (unsuspend f s) 0 0 0) f
       else s.log 0x05 0x09 8 (roadDetail s 0 0 0) f) := by
  rw [roadDetail_congr fun g hg => unsuspend_fld f [0] (by rw [hg]; decide)]
  simp [resumeFields, hone, hslot, hmask, State.forAll]

end

/-! ## The commands -/

section
variable (s : State) {b d : Nat}

theorem exec_bankSealDone (hb : b < 2) : exec (.bankSealDone b) s = .next (finish s (sealDone b s)) :=
  run_wellFormed (i := .bankSealDone b) s _ (decide_eq_true hb)
theorem exec_bankSwap : exec .bankSwap s = .next (finish s (swapNow s)) :=
  run_wellFormed (i := .bankSwap) s _ rfl
theorem exec_floorAlarm (lead : Nat) (hd : d < 8) : exec (.floorAlarm d lead) s = .next (finish s (floorAlarm d lead s)) :=
  run_wellFormed (i := .floorAlarm d lead) s _ (decide_eq_true hd)
theorem exec_floorBreach {v tj : Nat} (hd : d < 8) (hv : v < 65536) (htj : tj < 4096) :
    exec (.floorBreach d v tj) s = .next (finish s (floorBreach d v tj s)) :=
  run_wellFormed (i := .floorBreach d v tj) s _ (decide_eq_true ⟨hd, hv, htj⟩)
theorem exec_suspend (hd : d < 8) : exec (.suspend d) s = .next (finish s (suspendNow d s)) :=
  run_wellFormed (i := .suspend d) s _ (decide_eq_true hd)
theorem exec_resume : exec .resume s = .next (finish s (resumeNow s)) :=
  run_wellFormed (i := .resume) s _ rfl

end

/-- Settles O31: the checks decide what becomes of the bank, and the cells still to be ceded what becomes of the swap. -/
theorem banksComplete : Obligations.BanksComplete := by
  refine ⟨?sealed, ?emptied, ?swapped, ?held⟩
  case sealed =>
    intro s b hb hst hpass
    rw [exec_bankSealDone s hb, sealDone_of_pass hst hpass]
  case emptied =>
    intro s b c i j hb hst hfail
    rw [exec_bankSealDone s hb, sealDone_of_fail hst hfail]
  case swapped =>
    intro s m hgate hdue hvalid hceded
    rw [exec_bankSwap, swapNow_of_ceded hgate hdue hvalid hceded]
    rfl
  case held =>
    intro s m d hgate hdue hvalid hd hcede
    rw [exec_bankSwap, swapNow_of_ceding hgate hdue hvalid hd hcede]
    rfl

/-- Settles O33: each command by the conditions under which it acts. The code of a forecast over the power cap (log 190) and the alarm bits kept
while a suspension is pending (log 73) are the choices of the model. -/
theorem floorAlarmsSuspend : Obligations.FloorAlarmsSuspend := by
  refine ⟨?alarm, ?breach, ?suspend, ?resume, ?fields⟩
  case alarm =>
    intro s d lead hd hlive hmin hperiod
    rw [exec_floorAlarm s lead hd, floorAlarm_of_early hlive hmin hperiod]
    rfl
  case breach =>
    intro s d v tj hd hv htj u hlive hoff hnew
    rw [exec_floorBreach s hd hv htj, floorBreach_of_first hlive hoff hnew]
    rfl
  case suspend =>
    intro s d c m hd hpending hdue hswap
    rw [exec_suspend s hd, suspendNow_of_due hpending hdue hswap]
  case resume =>
    intro s hdue hswap
    rw [exec_resume, resumeNow_of_due hdue hswap]
  case fields =>
    intro s f n hone hslot hmask
    rw [resumeFields_of_single hone hslot hmask, if_congr mayResume_iff rfl rfl]

end Sys2Proof.Machine
end

section
/-! SUPPORT. A bank made active (R185): which registers each part of the change writes, and what the device then shows of the bank and of each
die's regions (R166). -/

namespace Sys2Proof.Machine

/-! ## What follows an activation without touching banks or regions -/

section
variable (s : State)

theorem clearAlarms_fld {f : Fld} (k : List Nat) (hf : f.reg ≠ .RB_ALARM) : (clearAlarms s).fld f k = s.fld f k :=
  State.forAll_keeps (obs := fun u => u.fld f k) (fun d _ u => by
    split
    · rfl
    · iterate 4 rw [State.fld_setFld_ne _ _ (.inl hf.symm)]) s

theorem clearAlarms_road : (clearAlarms s).road = s.road :=
  State.forAll_keeps (obs := State.road) (fun d _ u => by split <;> rfl) s

theorem showSuspends_fld {f : Fld} (k : List Nat) (hf : f.reg ≠ .RB_SUSPEND_AT) : (showSuspends s).fld f k = s.fld f k := by
  rw [showSuspends_eq]
  refine State.forAll_keeps (obs := fun u => u.fld f k) (fun d _ u => ?_) s
  unfold showSuspend
  split
  · rfl
  · exact State.fld_setFld_ne u _ (.inl hf.symm)

theorem showSuspends_road : (showSuspends s).road = s.road := by
  rw [showSuspends_eq]
  refine State.forAll_keeps (obs := State.road) (fun d _ u => ?_) s
  unfold showSuspend
  split <;> rfl

theorem updatePressure_road (d : Nat) : (updatePressure d s).road = s.road := by
  unfold updatePressure
  dsimp only
  split
  · rfl
  · exact State.log_road ..

/-- What follows once the regions are set: the pressure of each slice anew, when suspensions take effect, and the alarms that end. -/
def regionsSettled (s : State) : State := clearAlarms (showSuspends (s.forAll dies updatePressure))

theorem regionsSettled_fld {f : Fld} (k : List Nat)
    (hf : f.reg ∉ [Reg.RB_ALARM, .RB_SUSPEND_AT, .GK_STATUS, .EV_STATUS, .EV_LOST, .EV_LOST_FIRST, .EV_LOST_LAST]) :
    (regionsSettled s).fld f k = s.fld f k := by
  simp only [List.mem_cons, not_or] at hf
  obtain ⟨halarm, hsuspend, hstatus, hev⟩ := hf
  rw [regionsSettled, clearAlarms_fld _ k halarm, showSuspends_fld _ k hsuspend]
  exact State.forAll_keeps (obs := fun u => u.fld f k)
    (fun d _ u => updatePressure_fld u d k (by simpa only [List.mem_cons, not_or] using hev) (.inl hstatus)) s

theorem regionsSettled_road : (regionsSettled s).road = s.road := by
  rw [regionsSettled, clearAlarms_road, showSuspends_road]
  exact State.forAll_keeps (obs := State.road) (fun d _ u => updatePressure_road u d) s

end

/-! ## The regions of a die (R166, R184) -/

section
variable {s t : State} {d : Nat}

theorem sealedSched_congr (hroad : t.road = s.road) (hbanks : ∀ f : Fld, f.reg = .RB_BANKS → t.fld f = s.fld f) (d : Nat) :
    sealedSched t d = sealedSched s d := by
  simp [sealedSched, State.bankState, State.bankBytes, hroad, hbanks]

/-- What the SEALED bank asks of die `d` is shown, and with it whether cells of it are held. -/
def showPending (d : Nat) (s : State) : State := updateCede d (s.setFld F.GK_REGIONS_PENDING_SCHED (sealedSched s d) [d])

theorem setPendingSched_eq : setPendingSched s = s.forAll dies showPending := rfl

theorem showPending_fld_ne (e : Nat) {f : Fld} (k : List Nat) (hf : f.reg ≠ .GK_REGIONS ∨ (f.lo ≠ 32 ∧ f.lo ≠ 47)) :
    (showPending e s).fld f k = s.fld f k := by
  rw [showPending, updateCede, State.fld_setFld_ne _ _ (hf.imp Ne.symm fun h => .inl h.2.symm),
    State.fld_setFld_ne _ _ (hf.imp Ne.symm fun h => .inl h.1.symm)]

theorem sealedSched_showPending (e : Nat) : sealedSched (showPending e s) d = sealedSched s d :=
  sealedSched_congr (s := s) (t := showPending e s) rfl (fun f hf => showPending_fld_ne e [] (.inl (by rw [hf]; decide))) d

theorem setPendingSched_fld_ne {f : Fld} (k : List Nat) (hf : f.reg ≠ .GK_REGIONS ∨ (f.lo ≠ 32 ∧ f.lo ≠ 47)) :
    (setPendingSched s).fld f k = s.fld f k :=
  State.forAll_keeps (obs := fun u => u.fld f k) (fun e _ u => showPending_fld_ne (s := u) e k hf) s

theorem setPendingSched_road : (setPendingSched s).road = s.road :=
  State.forAll_keeps (obs := State.road) (f := showPending) (fun _ _ _ => rfl) s

theorem setPendingSched_pending (hd : d ∈ dies) :
    (setPendingSched s).fld F.GK_REGIONS_PENDING_SCHED [d] = sealedSched s d % 2 ^ 15 := by
  have hrun := State.forAll_once (obs := fun u => (u.fld F.GK_REGIONS_PENDING_SCHED [d], sealedSched u d)) (f := showPending) (e := d)
    (next := fun p => (p.2 % 2 ^ 15, p.2)) (fun u => ?same) (fun e u he => ?other) (by decide) hd s
  case same =>
    rw [sealedSched_showPending, showPending, updateCede, State.fld_setFld_ne _ _ (.inr (.inl (by decide))), State.fld_setFld_same]
  case other =>
    rw [sealedSched_showPending, showPending, updateCede, State.fld_setFld_ne _ _ (.inr (.inl (by decide))),
      State.fld_setFld_ne _ _ (.inr (.inr (by simpa using he)))]
  exact (Prod.mk.inj hrun).1

/-- The two regions of die `d` under a bank that asks for `sched`. -/
def setRegion (sched : List Nat) (d : Nat) (s : State) : State :=
  (s.setFld F.GK_REGIONS_SCHED_CELLS (sched.getD d 0) [d]).setFld F.GK_REGIONS_MANAGED_CELLS (24576 - sched.getD d 0) [d]

theorem setRegions_fld_ne (sched : List Nat) {f : Fld} (k : List Nat) (hf : f.reg ≠ .GK_REGIONS) :
    (s.forAll dies (setRegion sched)).fld f k = s.fld f k :=
  State.forAll_keeps (obs := fun u => u.fld f k) (fun e _ u => by
    rw [setRegion, State.fld_setFld_ne _ _ (.inl hf.symm), State.fld_setFld_ne _ _ (.inl hf.symm)]) s

theorem setRegions_road (sched : List Nat) : (s.forAll dies (setRegion sched)).road = s.road :=
  State.forAll_keeps (obs := State.road) (f := setRegion sched) (fun _ _ _ => rfl) s

theorem setRegions_fld {sched : List Nat} (hd : d ∈ dies) (hsched : sched.getD d 0 ≤ 22528) :
    (s.forAll dies (setRegion sched)).fld F.GK_REGIONS_SCHED_CELLS [d] = sched.getD d 0 ∧
      (s.forAll dies (setRegion sched)).fld F.GK_REGIONS_MANAGED_CELLS [d] = 24576 - sched.getD d 0 := by
  have hrun := State.forAll_once (f := setRegion sched) (e := d)
    (obs := fun u => (u.fld F.GK_REGIONS_SCHED_CELLS [d], u.fld F.GK_REGIONS_MANAGED_CELLS [d]))
    (next := fun _ => (sched.getD d 0 % 2 ^ 15, (24576 - sched.getD d 0) % 2 ^ 15)) (fun u => ?same) (fun e u he => ?other) (by decide) hd s
  case same =>
    rw [setRegion, State.fld_setFld_ne _ _ (.inr (.inl (by decide))), State.fld_setFld_same, State.fld_setFld_same]
  case other =>
    have hkey : [e] ≠ [d] := by simpa using he
    simp only [setRegion, State.fld_setFld_ne _ _ (.inr (.inr hkey))]
  rw [Nat.mod_eq_of_lt (by omega), Nat.mod_eq_of_lt (by omega)] at hrun
  exact ⟨congrArg Prod.fst hrun, congrArg Prod.snd hrun⟩

end

/-! ## The bank (R185) -/

section
variable (s : State) (m : Nat)

/-- The bank that was active, if any, is EMPTY. -/
def oldEmptied (s : State) : State :=
  match s.activeBankNo with
  | some o => (s.setBankState o 0).setBankBytes o []
  | none => s

/-- The registers that show the bank made active. -/
def bankShown (m : Nat) (s : State) : State :=
  let h := headerOf (s.bankBytes s.swapBank)
  ((((((((oldEmptied s).setBankState s.swapBank 4).setFld F.RB_BANKS_ACTIVE_BANK s.swapBank).setFld F.RB_BANKS_ANY_ACTIVE 1).setFld
    F.RB_BANKS_BANK_ID h.id).setFld F.RB_EPOCH_COUNT m).setFld F.RB_PERIOD_PERIOD_NS h.period).setFld F.RB_PERIOD_SLOTS h.count)

/-- The bank is active: the slots' records start anew, and no eviction holds any more. -/
def bankActive (m : Nat) (s : State) : State :=
  { bankShown m s with road := { (bankShown m s).road with runs := [], evicted := [] } }

theorem activateBank_eq : activateBank m s =
    regionsSettled (setPendingSched ((bankActive m s).forAll dies (setRegion (headerOf (s.bankBytes s.swapBank)).sched))) := rfl

theorem activateBank_fld_bank {f : Fld} (k : List Nat) (hf : f.reg ∈ [Reg.RB_BANKS, .RB_EPOCH, .RB_PERIOD]) :
    (activateBank m s).fld f k = (bankShown m s).fld f k := by
  have hout : f.reg ∉ [Reg.RB_ALARM, .RB_SUSPEND_AT, .GK_STATUS, .EV_STATUS, .EV_LOST, .EV_LOST_FIRST, .EV_LOST_LAST] ∧
      f.reg ≠ .GK_REGIONS := by
    simp only [List.mem_cons, List.not_mem_nil, or_false] at hf
    rcases hf with h | h | h <;> rw [h] <;> decide
  rw [activateBank_eq, regionsSettled_fld _ k hout.1, setPendingSched_fld_ne k (.inl hout.2), setRegions_fld_ne _ k hout.2]
  rfl

theorem swapBank_eq_or : s.swapBank = 0 ∨ s.swapBank = 1 := by
  unfold State.swapBank
  split
  · omega
  · split
    · exact .inl rfl
    · exact .inr rfl

theorem activateBank_shown : (activateBank m s).fld F.RB_EPOCH_COUNT = m % 2 ^ 64 ∧
    (activateBank m s).fld F.RB_PERIOD_PERIOD_NS = (headerOf (s.bankBytes s.swapBank)).period % 2 ^ 24 ∧
    (activateBank m s).fld F.RB_BANKS_ANY_ACTIVE = 1 ∧ (activateBank m s).fld F.RB_BANKS_ACTIVE_BANK = s.swapBank := by
  have hbank : s.swapBank % 2 ^ 1 = s.swapBank := by
    rcases swapBank_eq_or s with h | h <;> rw [h] <;> rfl
  simp (disch := decide) only [activateBank_fld_bank, bankShown, State.fld_setFld_ne, State.fld_setFld_same, hbank, true_and, and_true]
  rfl

theorem State.setBankState_road (b st : Nat) : (s.setBankState b st).road = s.road := by
  unfold State.setBankState
  split <;> rfl

theorem activateBank_road : (activateBank m s).road = { (oldEmptied s).road with runs := [], evicted := [] } := by
  rw [activateBank_eq, regionsSettled_road, setPendingSched_road, setRegions_road, bankActive, bankShown]
  simp only [State.setFld_road, State.setBankState_road]

theorem activateBank_bankBytes (b : Nat) : (activateBank m s).bankBytes b = (oldEmptied s).bankBytes b := by
  simp only [State.bankBytes, activateBank_road]

theorem activateBank_bankState (b : Nat) :
    (activateBank m s).bankState b = ((oldEmptied s).setBankState s.swapBank 4).bankState b := by
  simp (disch := decide) only [State.bankState, activateBank_fld_bank, bankShown, State.fld_setFld_ne]

theorem activateBank_bankState_new : (activateBank m s).bankState s.swapBank = 4 := by
  rw [activateBank_bankState]
  rcases swapBank_eq_or s with h | h <;> simp [h, State.bankState, State.setBankState, State.fld_setFld_same]

theorem activateBank_bankState_other : (activateBank m s).bankState (1 - s.swapBank) = (oldEmptied s).bankState (1 - s.swapBank) := by
  rw [activateBank_bankState]
  rcases swapBank_eq_or s with h | h <;> simp (disch := decide) [h, State.bankState, State.setBankState, State.fld_setFld_ne]

theorem State.setBankBytes_flds (b : Nat) (l : List Byte) : (s.setBankBytes b l).flds = s.flds := by
  unfold State.setBankBytes
  split <;> rfl

/-- The other bank can be SEALED after an activation only where no bank was active before. -/
theorem oldEmptied_of_other_sealed (h : (oldEmptied s).bankState (1 - s.swapBank) = 3) : oldEmptied s = s := by
  unfold oldEmptied at *
  split
  · next o ho =>
    have hnew : s.swapBank = 1 - o := by rw [State.swapBank, ho]
    have hempty : (s.setBankState o 0).bankState (1 - (1 - o)) = 0 := by
      cases o with
      | zero => exact State.fld_setFld_same ..
      | succ o => rw [show 1 - (1 - (o + 1)) = 1 by omega]; exact State.fld_setFld_same ..
    simp only [ho, hnew, State.bankState, State.fld_of_flds_eq (State.setBankBytes_flds _ _ _)] at h
    simp only [State.bankState] at hempty
    omega
  · rfl

end

/-! ## An activation as a whole -/

section
variable {s : State} {m d : Nat}

theorem getD_le_of_forall {l : List Nat} {n : Nat} (h : ∀ x ∈ l, x ≤ n) (i : Nat) : l.getD i 0 ≤ n := by
  rcases lt_or_ge i l.length with hi | hi
  · rw [List.getD_eq_getElem _ _ hi]
    exact h _ (List.getElem_mem hi)
  · rw [List.getD_eq_default _ _ hi]
    exact Nat.zero_le n

/-- What the Keeper is asked for by the other bank, where bank `b` is not SEALED. -/
theorem sealedSched_of_not_sealed {b : Nat} (hb : b = 0 ∨ b = 1) (hst : s.bankState b ≠ 3) :
    sealedSched s d = if s.bankState (1 - b) = 3 then (headerOf (s.bankBytes (1 - b))).sched.getD d 0 else 0 := by
  rcases hb with rfl | rfl <;> simp [sealedSched, hst]

theorem activateBank_pending (hd : d ∈ dies) :
    (activateBank m s).fld F.GK_REGIONS_PENDING_SCHED [d] =
      (if (activateBank m s).bankState (1 - s.swapBank) = 3
       then (headerOf ((activateBank m s).bankBytes (1 - s.swapBank))).sched.getD d 0 else 0) % 2 ^ 15 := by
  rw [← sealedSched_of_not_sealed (swapBank_eq_or s) (by simp [activateBank_bankState_new]), activateBank_eq,
    regionsSettled_fld _ _ (by decide), setPendingSched_pending hd]
  refine congrArg (· % 2 ^ 15) (sealedSched_congr ?_ (fun f hf => ?_) d).symm
  · rw [regionsSettled_road, setPendingSched_road]
  · rw [regionsSettled_fld _ _ (by rw [hf]; decide), setPendingSched_fld_ne _ (.inl (by rw [hf]; decide))]

/-- The other bank, where it is SEALED, has passed check 0x04 (R176): with that, the bank made active sets the epoch, the period and the
regions. The frozen statement of O32 leaves this condition out. -/
theorem activateBank_setsTheRegions (hd : d < 8) (hm : m < 2 ^ 64) (hperiod : (headerOf (s.bankBytes s.swapBank)).period ≤ 10000000)
    (hsched : ∀ n ∈ (headerOf (s.bankBytes s.swapBank)).sched, n ≤ 22528)
    (hsealed : s.bankState (1 - s.swapBank) = 3 → ∀ n ∈ (headerOf (s.bankBytes (1 - s.swapBank))).sched, n ≤ 22528) :
    let h := headerOf (s.bankBytes s.swapBank)
    let t := activateBank m s
    t.fld F.RB_EPOCH_COUNT = m ∧ t.fld F.RB_PERIOD_PERIOD_NS = h.period ∧ t.fld F.RB_BANKS_ANY_ACTIVE = 1 ∧
      t.bankState s.swapBank = 4 ∧ t.fld F.RB_BANKS_ACTIVE_BANK = s.swapBank ∧
      t.fld F.GK_REGIONS_SCHED_CELLS [d] = h.sched.getD d 0 ∧
      t.fld F.GK_REGIONS_MANAGED_CELLS [d] = 24576 - h.sched.getD d 0 ∧
      t.fld F.GK_REGIONS_PENDING_SCHED [d] =
        (if t.bankState (1 - s.swapBank) = 3 then (headerOf (t.bankBytes (1 - s.swapBank))).sched.getD d 0 else 0) ∧
      t.road.evicted = [] := by
  obtain ⟨hcells, hmanaged⟩ := setRegions_fld (s := bankActive m s) (mem_dies.mpr hd) (getD_le_of_forall hsched d)
  obtain ⟨hepoch, hshown, hactive, hbank⟩ := activateBank_shown s m
  rw [Nat.mod_eq_of_lt hm] at hepoch
  rw [Nat.mod_eq_of_lt (hperiod.trans_lt (by decide))] at hshown
  refine ⟨hepoch, hshown, hactive, activateBank_bankState_new s m, hbank, ?cells, ?managed, ?pending, ?evicted⟩
  case cells =>
    rw [activateBank_eq, regionsSettled_fld _ _ (by decide), setPendingSched_fld_ne _ (.inr (by decide)), hcells]
  case managed =>
    rw [activateBank_eq, regionsSettled_fld _ _ (by decide), setPendingSched_fld_ne _ (.inr (by decide)), hmanaged]
  case pending =>
    rw [activateBank_pending (mem_dies.mpr hd)]
    refine Nat.mod_eq_of_lt ?_
    split
    · next hst =>
      rw [activateBank_bankState_other] at hst
      have hnone := oldEmptied_of_other_sealed s hst
      rw [hnone] at hst
      rw [activateBank_bankBytes, hnone]
      exact (getD_le_of_forall (hsealed hst) d).trans_lt (by decide)
    · decide
  case evicted =>
    rw [activateBank_road]

end

/-- Both banks are SEALED, bank A with no cells and bank B asking for 65,535 cells of die 0, which its 16 bits can say. -/
def wideBankSealed : State :=
  let s := (State.reset.setFld F.RB_BANKS_STATE_A 3).setFld F.RB_BANKS_STATE_B 3
  { s with road := { s.road with bankB := List.replicate 32 0 ++ [0xFF, 0xFF] } }

/-- Refutes O32: PENDING_SCHED holds 15 bits (*GK_REGIONS*) and SCHED_CELLS of a header 16, and nothing in the statement bounds what the header of the other
bank asks for. Where that bank too has passed check 0x04, the statement holds (`activateBank_setsTheRegions`). -/
theorem not_activationSetsTheRegions : ¬ Obligations.ActivationSetsTheRegions := by
  intro h
  obtain ⟨-, -, -, -, -, -, -, hpending, -⟩ := h wideBankSealed 0 0 (by decide) (by decide) (by decide +kernel) (by decide +kernel)
  exact absurd hpending (by decide +kernel)

end Sys2Proof.Machine
end

section
/-! SUPPORT. Numbers (chapter 7): rounding to nearest with ties to even (R205), and the lanes of a Sheaf, whose contents do not depend on the order of what
is added (R213, R216). -/

namespace Sys2Proof.Machine

/-! ## Rounding (R205) -/

section
variable (sat neg : Bool) (m : Nat)

/-- To nearest with ties to even: what is shifted out is compared with half a unit. -/
theorem shiftRound_even {sh : Nat} (hsh : sh ≠ 0) :
    shiftRound .even neg m sh =
      if 2 ^ (sh - 1) < m % 2 ^ sh ∨ (m % 2 ^ sh = 2 ^ (sh - 1) ∧ m / 2 ^ sh % 2 = 1) then m / 2 ^ sh + 1 else m / 2 ^ sh := by
  obtain ⟨k, rfl⟩ := Nat.exists_eq_succ_of_ne_zero hsh
  have hhalf : 2 ^ (k + 1) = 2 * 2 ^ k := pow_succ' 2 k
  have hpos : 0 < 2 ^ k := Nat.two_pow_pos k
  refine if_congr ?_ rfl rfl
  simp only [Nat.succ_eq_add_one, Nat.add_sub_cancel, Bool.and_eq_true, Bool.or_eq_true, decide_eq_true_eq]
  omega

/-- The significand scaled to the weight `q`: rounded where `q` is above its own weight, exact otherwise. -/
theorem scaleRound_even (e q : Int) :
    scaleRound .even neg m (e - q) =
      if e < q then
        (if 2 ^ ((q - e).toNat - 1) < m % 2 ^ (q - e).toNat ∨
            (m % 2 ^ (q - e).toNat = 2 ^ ((q - e).toNat - 1) ∧ m / 2 ^ (q - e).toNat % 2 = 1)
          then m / 2 ^ (q - e).toNat + 1 else m / 2 ^ (q - e).toNat)
      else m * 2 ^ (e - q).toNat := by
  unfold scaleRound
  by_cases h : e < q
  · rw [if_neg (by omega), if_pos h, Int.neg_sub, shiftRound_even _ _ (by omega)]
  · rw [if_pos (by omega), if_neg h]

variable {m} in
/-- The bits of a rounded value, by what is kept of its significand at the weight `q` of its last bit: overflow, one bit too many, a subnormal
or a normal value. -/
theorem rn_fst (a : Rnd) {f : FloatFmt} (hp : 0 < f.p) (e : Int) (hm : m ≠ 0) :
    let q : Int := max ((m.log2 : Int) + e) f.emin - (f.p - 1 : Nat)
    let low : Int := f.emin - (f.p - 1 : Nat)
    let kept := scaleRound a neg m (e - q)
    (rn a sat f neg m e).1 =
      if f.maxM * 2 ^ (f.maxE - low).toNat < kept * 2 ^ (q - low).toNat then overflowBits a sat f neg
      else if kept = 2 ^ f.p then f.pack neg (q + 1 + (f.p - 1 : Nat) + f.bias).toNat (kept / 2 - 2 ^ (f.p - 1))
      else if kept < 2 ^ (f.p - 1) then f.pack neg 0 kept
      else f.pack neg (q + (f.p - 1 : Nat) + f.bias).toNat (kept - 2 ^ (f.p - 1)) := by
  intro q low kept
  rw [rn, if_neg hm]
  by_cases hover : f.maxM * 2 ^ (f.maxE - low).toNat < kept * 2 ^ (q - low).toNat
  · exact (congrArg Prod.fst (if_pos hover)).trans (if_pos hover).symm
  refine (congrArg Prod.fst (if_neg hover)).trans (.trans ?_ (if_neg hover).symm)
  rw [apply_ite Prod.fst]
  by_cases hup : kept = 2 ^ f.p
  · have hhalf : ¬ kept / 2 < 2 ^ (f.p - 1) := by
      rw [hup, ← Nat.two_pow_pred_mul_two hp, Nat.mul_div_cancel _ Nat.two_pos]
      exact lt_irrefl _
    rw [if_pos hup, decide_eq_true hup]
    exact if_neg hhalf
  · rw [if_neg hup, decide_eq_false hup]
    rfl

end

/-- Settles O60: `rn` with ties to even, its scaling written out. The nine formats matter only in that each keeps at least one bit. -/
theorem roundingIsTheProcedure : Obligations.RoundingIsTheProcedure := by
  intro f sat neg m e hf
  have hp : 0 < f.p := by
    revert f
    decide
  rcases eq_or_ne m 0 with rfl | hm
  · rfl
  exact (rn_fst sat neg .even hp e hm).trans (by simp only [scaleRound_even, if_neg hm])

/-! ## Lanes (R213, R214, R216) -/

/-- A field of `w` bits read as signed differs from what it holds by a multiple of 2^w. -/
theorem toSigned_emod (w n : Nat) : toSigned w n % (2 ^ w : Int) = (n : Int) % (2 ^ w : Int) := by
  unfold toSigned
  split
  · rfl
  · exact Int.sub_emod_right _ _

/-- What a signed field holds of a number depends only on the number modulo 2^w. -/
theorem ofSigned_congr {w : Nat} {a b : Int} (h : a % (2 ^ w : Int) = b % (2 ^ w : Int)) : ofSigned w a = ofSigned w b :=
  congrArg Int.toNat h

theorem toSigned_ofSigned_emod (w : Nat) (a : Int) : toSigned w (ofSigned w a) % (2 ^ w : Int) = a % (2 ^ w : Int) := by
  rw [toSigned_emod, ofSigned, Int.toNat_of_nonneg (Int.emod_nonneg _ (by positivity)), Int.emod_emod]

section
variable (p : SheafPlan)

/-- A lane wraps as a whole: where a sum wraps on the way does not matter. -/
theorem SheafPlan.inLane_add (a b : Int) : p.inLane (p.inLane a + b) = p.inLane (a + b) :=
  congrArg (toSigned _) (ofSigned_congr (Int.ModEq.add_right b (toSigned_ofSigned_emod _ a)))

theorem SheafPlan.inLane_add_right_comm (a b c : Int) : p.inLane (p.inLane (a + b) + c) = p.inLane (p.inLane (a + c) + b) := by
  rw [inLane_add, inLane_add, add_right_comm]

/-- The bitwise operation of an OP: AND, OR or XOR. -/
def bitsOf (op x y : Nat) : Nat := if op = 8 then x &&& y else if op = 9 then x ||| y else x ^^^ y

theorem bitsOf_comm (op x y : Nat) : bitsOf op x y = bitsOf op y x := by
  unfold bitsOf
  rw [Nat.and_comm, Nat.or_comm, Nat.xor_comm]

theorem bitsOf_right_comm (op x y z : Nat) : bitsOf op (bitsOf op x y) z = bitsOf op (bitsOf op x z) y := by
  unfold bitsOf
  split
  · exact Nat.and_right_comm x y z
  split
  · exact Nat.or_right_comm x y z
  · exact Nat.xor_right_comm x y z

variable {p}

theorem mergeLane_sum (h : opSum p.op = true ∨ p.op = 3) (fresh : Bool) (x y : Lane320) :
    mergeLane p fresh x y = { x with a := p.inLane (x.a + y.a), fl := x.fl ||| y.fl } := if_pos h

theorem mergeLane_bits (h : opBits p.op = true) (fresh : Bool) (x y : Lane320) :
    mergeLane p fresh x y = if fresh then y else { x with a := bitsOf p.op x.a.toNat y.a.toNat } := by
  have hop : 8 ≤ p.op ∧ p.op ≤ 10 := of_decide_eq_true h
  have hsum : ¬ (opSum p.op = true ∨ p.op = 3) := by simp only [Bool.or_eq_true, decide_eq_true_eq]; omega
  have horder : ¬ (opOrder p.op = true) := by simp only [decide_eq_true_eq]; omega
  rw [mergeLane, if_neg hsum, if_neg horder]
  rfl

theorem leafLane_bits (h : opBits p.op = true) (rank : Nat) (v : Num) : leafLane p rank v = { a := (ofSigned 64 v.toInt : Nat) } := by
  have hop : 8 ≤ p.op ∧ p.op ≤ 10 := of_decide_eq_true h
  have hsum : ¬ (opSum p.op = true) := by simp only [Bool.or_eq_true, decide_eq_true_eq]; omega
  have horder : ¬ (opOrder p.op = true) := by simp only [decide_eq_true_eq]; omega
  rw [leafLane, if_neg hsum, if_neg (by omega), if_neg horder]

/-- A lane with the count of the elements it holds takes one more LEAF element, from a rank. -/
def addLeaf (p : SheafPlan) (a : Lane320 × Nat) (x : Nat × Num) : Lane320 × Nat :=
  (mergeLane p (a.2 = 0) a.1 (leafLane p x.1 x.2), a.2 + 1)

theorem addLeaf_right_comm (h : opSum p.op = true ∨ p.op = 3 ∨ opBits p.op = true) (a : Lane320 × Nat) (x y : Nat × Num) :
    addLeaf p (addLeaf p a x) y = addLeaf p (addLeaf p a y) x := by
  rcases or_assoc.mpr h with hsum | hbits
  · simp only [addLeaf, mergeLane_sum hsum, p.inLane_add_right_comm a.1.a (leafLane p x.1 x.2).a, Nat.or_right_comm]
  · obtain ⟨l, n⟩ := a
    cases n with
    | zero => simp [addLeaf, mergeLane_bits hbits, leafLane_bits hbits, bitsOf_comm]
    | succ n => simp [addLeaf, mergeLane_bits hbits, leafLane_bits hbits, bitsOf_right_comm]

end

/-- Settles O46: two elements may change places at any lane, so any permutation may be reached. -/
theorem lanesIgnoreTheOrder : Obligations.LanesIgnoreTheOrder := fun _ _ _ hop hperm =>
  hperm.foldl_eq' (fun x _ y _ a => addLeaf_right_comm hop a x y) ({}, 0)

end Sys2Proof.Machine
end

section
/-! SUPPORT. Running Waybills: what a failed checker makes of a run (R220, R246), and what PUT, GET and a COPY that streams
do each time they run (R252, R257). -/

namespace Sys2Proof.Machine

/-! ## A fault in a run (R220, R246) -/

/-- `u` is `s` but for the tiles' own state. -/
def OnlyTiles (s u : State) : Prop := ∃ x, u = { s with tiles := x }

section
variable {s u v : State}

theorem OnlyTiles.trans (hu : OnlyTiles s u) (hv : OnlyTiles u v) : OnlyTiles s v := by
  obtain ⟨_, rfl⟩ := hu
  obtain ⟨x, rfl⟩ := hv
  exact ⟨x, rfl⟩

/-- A tile's Field is read off the owners of rows and the slots' Fields. -/
theorem State.tileField_congr (d t : Nat) (hni : u.ni = s.ni)
    (hid : ∀ k, u.fld F.DV_FIELD_SLOT_FIELD_ID k = s.fld F.DV_FIELD_SLOT_FIELD_ID k) : u.tileField d t = s.tileField d t := by
  simp only [State.tileField, State.tileSlot, State.rowOwner1, hni, hid]

end

section
variable (s : State) (d t n : Nat)

theorem onlyTiles_setSlot (r : SlotRec) : OnlyTiles s (s.setSlot d t n r) := ⟨_, rfl⟩

theorem onlyTiles_dropUnsent : OnlyTiles s (dropUnsent d t n s) := ⟨_, rfl⟩

@[simp] theorem dropUnsent_status : ((dropUnsent d t n s).slot d t n).status = (s.slot d t n).status := by
  rw [dropUnsent, State.slot_setSlot_same]
  rfl

/-- Nothing of a Waybill whose output is memory streams to an engine: no notice leaves. -/
theorem poisonStream_of_memory (h : (opO (s.slot d t n).armed).target = 0) :
    poisonStream d t n s = dropUnsent d t n (s.setSlot d t n { s.slot d t n with stream := none }) := by
  simp only [poisonStream, h]

variable {s} (st det : Nat)

theorem failRun_undecided (h : (s.slot d t n).status = none) :
    failRun d t n st det s = dropUnsent d t n (s.setSlot d t n { s.slot d t n with status := some st, detail := det }) := if_pos h

theorem failRun_decided (h : (s.slot d t n).status ≠ none) : failRun d t n st det s = s := if_neg h

theorem onlyTiles_failRun : OnlyTiles s (failRun d t n st det s) := by
  by_cases h : (s.slot d t n).status = none
  · rw [failRun_undecided d t n st det h]
    exact (onlyTiles_setSlot ..).trans (onlyTiles_dropUnsent ..)
  · rw [failRun_decided d t n st det h]
    exact ⟨s.tiles, rfl⟩

variable (s)

/-- The first cause decides the status. -/
theorem failRun_status : ((failRun d t n st det s).slot d t n).status = some ((s.slot d t n).status.getD st) := by
  cases h : (s.slot d t n).status with
  | none => rw [failRun_undecided d t n st det h, dropUnsent_status, State.slot_setSlot_same, Option.getD_none]
  | some x => rw [failRun_decided d t n st det (by simp [h]), h, Option.getD_some]

end

/-- The present turn of the loop nest counts as run (R237). -/
def instanceRan (d t n : Nat) (s : State) : State := s.setSlot d t n { s.slot d t n with ran := true }

/-- A checker's failure stops a run: its engine hears of it, the fault decides the status if none had before, and the present turn counts as run. -/
def runPoisoned (d t n : Nat) (s : State) : State := instanceRan d t n (failRun d t n 0x05 0 (poisonStream d t n s))

/-- The failure of a residue check of unit `u` is counted and the unit named. -/
def residueCounted (d t u : Nat) (s : State) : State := (s.bump F.TL_RESIDUE_COUNT [d, t]).setFld F.TL_RESIDUE_LAST_UNIT u [d, t]

/-- The report of it, of row 1 of *Fault domains*, about a tile whose Field is `field`. -/
def residueNote (d t u n gen field : Nat) : FaultNote :=
  ⟨1, false, [20, d, t], d, d, field, some (t / 64), false, 0x06, 1, true, poisonDetail t u n gen⟩

section
variable {s : State} {d t u n : Nat}

theorem poisonRun_residue : poisonRun d t u n 1 s =
    let v := runPoisoned d t n (residueCounted d t u s)
    v.report (residueNote d t u n (s.slot d t n).gen ((v.tileField d t).getD 0xFFFF)) := rfl

theorem residueCounted_fld {f : Fld} (k : List Nat) (h : f.reg ≠ .TL_RESIDUE) : (residueCounted d t u s).fld f k = s.fld f k :=
  (State.fld_setFld_ne _ _ (.inl h.symm)).trans (State.fld_setFld_ne _ _ (.inl h.symm))

theorem residueCounted_count : (residueCounted d t u s).fld F.TL_RESIDUE_COUNT [d, t] =
    min (s.fld F.TL_RESIDUE_COUNT [d, t] + 1) (2 ^ F.TL_RESIDUE_COUNT.width - 1) :=
  (State.fld_setFld_ne _ _ (.inr (.inl (by decide)))).trans (State.fld_bump_same s _ _)

theorem residueCounted_unit (hu : u < 4) : (residueCounted d t u s).fld F.TL_RESIDUE_LAST_UNIT [d, t] = u :=
  (State.fld_setFld_same _ _ _ _).trans (Nat.mod_eq_of_lt (hu.trans (by decide)))

section
variable (h : (opO (s.slot d t n).armed).target = 0)
include h

theorem onlyTiles_runPoisoned : OnlyTiles s (runPoisoned d t n s) := by
  rw [runPoisoned, poisonStream_of_memory s d t n h]
  exact (((onlyTiles_setSlot ..).trans (onlyTiles_dropUnsent ..)).trans (onlyTiles_failRun ..)).trans (onlyTiles_setSlot ..)

theorem runPoisoned_slot : ((runPoisoned d t n s).slot d t n).status = some ((s.slot d t n).status.getD 0x05) ∧
    ((runPoisoned d t n s).slot d t n).ran = true := by
  rw [runPoisoned, poisonStream_of_memory s d t n h, instanceRan, State.slot_setSlot_same]
  exact ⟨by rw [failRun_status, dropUnsent_status, State.slot_setSlot_same], rfl⟩

end
end

/-- Settles O39: what follows the count leaves the registers alone, and the fault decides only a status that nothing had decided. -/
theorem residueFailurePoisons : Obligations.ResidueFailurePoisons := by
  intro s d t u n _ _ hu _ hmem
  have hcounted : (opO ((residueCounted d t u s).slot d t n).armed).target = 0 := hmem
  have hfield : (residueCounted d t u s).tileField d t = s.tileField d t :=
    State.tileField_congr d t rfl fun k => residueCounted_fld k (by decide)
  obtain ⟨hstatus, hran⟩ := runPoisoned_slot hcounted
  obtain ⟨x, hx⟩ := onlyTiles_runPoisoned hcounted
  rw [poisonRun_residue]
  generalize runPoisoned d t n (residueCounted d t u s) = v at *
  subst hx
  exact ⟨residueCounted_count, residueCounted_unit hu, hstatus, hran, residueNote d t u n _ _, rfl, rfl, rfl,
    congrArg (·.getD 0xFFFF) hfield, rfl⟩

/-! ## PUT, GET and streams (R252, R257) -/

/-- The packet that a PUT sends in turn `k`. -/
def putRequest (s : State) (d t : Nat) (w : List Byte) (k : Nat) : Packet :=
  { h := { reqHdr s d t 0x80 (if pgSched w then 3 else 1) (pgUnits w) ((s.tileField d t).getD 0) (pgRank w) with
      ord := b2n (pgOrd w), roleEpoch := pgEpoch w },
    body := dataBody (pgWindow w) (farOffset w k) (wbLe w 92 4) 0 0 0 0 0 (if pgSched w then (opO w).tid else 0),
    data := s.readMem d t (placeOf w (opA w) k) (pgUnits w * 64) }

/-- The request that a GET sends in turn `k`, whose response is to land at byte `a` of its window. -/
def getRequest (s : State) (d t : Nat) (w : List Byte) (k a : Nat) : Packet :=
  { h := { reqHdr s d t 0x01 0 0 ((s.tileField d t).getD 0) (pgRank w) with ord := b2n (pgOrd w), roleEpoch := pgEpoch w },
    body := beBytes 1 (pgWindow w) ++ beBytes 5 (farOffset w k) ++ beBytes 2 (pgUnits w) ++ beBytes 1 (wbByte w 92) ++ beBytes 5 a
      ++ beBytes 4 noRef ++ List.replicate 14 0 }

section
variable {s : State} {d t u op n : Nat} {w : List Byte}

theorem putNow_of_present (hrun : presentRun s d t 3 0x32 = some (n, w)) :
    putNow d t 0 s = countTagWait d t n
      (submitRun d t n (putRequest s d t w (s.slot d t n).k) (decide (wbLe w 92 4 = noRef)) 0 (instanceRan d t n s)) := by
  rw [putNow, hrun]
  rfl

theorem putNow_of_failed {f : Nat} (hrun : presentRun s d t 3 0x32 = some (n, w)) (hf : f ≠ 0) :
    putNow d t f s = poisonRun d t 3 n f s := by
  rw [putNow, hrun]
  exact if_pos hf

/-- A GET sends its request where its landing range lies in its window, and fails with BOUNDS otherwise. -/
theorem getNow_of_present (hrun : presentRun s d t 3 0x33 = some (n, w)) :
    let base := s.fld F.NI_WINDOW_BASE_BLK [d, t, wbByte w 92] * 64
    let a := placeOf w (opA w) (s.slot d t n).k
    let v := instanceRan d t n s
    getNow d t 0 s =
      if base ≤ a ∧ a + pgUnits w * 64 ≤ base + s.fld F.NI_WINDOW_LENGTH_BLK [d, t, wbByte w 92] * 64 then
        countTagWait d t n (submitRun d t n (getRequest v d t w (s.slot d t n).k (a - base)) true 0 v)
      else failRun d t n 0x06 0 v := by
  intro base a v
  rw [getNow, hrun]
  dsimp only
  refine (if_neg (by decide)).trans ?_
  by_cases hin : base ≤ a ∧ a + pgUnits w * 64 ≤ base + s.fld F.NI_WINDOW_LENGTH_BLK [d, t, wbByte w 92] * 64
  · exact (if_neg (by omega)).trans (if_pos hin).symm
  · exact (if_pos (by omega)).trans (if_neg hin).symm

/-- Elements that go into a stream are written to no memory. -/
theorem runInstance_of_stream {f : State → List Byte → Nat → InstOut} {start : Nat} {l : List Byte}
    (hrun : presentRun s d t u op = some (n, w)) (hu : u ≠ 1) (hout : f s w (s.slot d t n).k = { stream := some (start, l) }) :
    runInstance d t u op 0 f s = streamOut d t n (opO w) start l (instanceRan d t n s) := by
  simp only [runInstance, hrun, hout, if_neg hu]
  rfl

/-- A COPY between operands of one format moves the bytes as they are. -/
theorem copyInst_of_same_format {e : Elem} (hform : cpForm w = 0) (hfmt : (opA w).fmt = (opO w).fmt) (he : elemOf (opA w).fmt = some e) (k : Nat) :
    copyInst d t s w k = outTo w k (s.readMem d t (placeOf w (opA w) k) (e.span (pLength w))) 0 := by
  simp only [copyInst, hform, ← hfmt, he, if_true]

theorem outTo_engine (h : (opO w).target ≠ 0) (k : Nat) (bytes : List Byte) (flags : Nat) :
    outTo w k bytes flags = { stream := some (placeOf w (opO w) k, bytes), flags := flags } := if_neg h

end

section
variable (s : State) {d t f : Nat} (hd : d < 8) (ht : t < 2048)
include hd ht

theorem exec_put (hf : f < 3) : exec (.put d t f) s = .next (finish s (putNow d t f s)) :=
  run_wellFormed (i := .put d t f) s _ (decide_eq_true ⟨hd, hf, ht⟩)
theorem exec_get (hf : f < 3) : exec (.get d t f) s = .next (finish s (getNow d t f s)) :=
  run_wellFormed (i := .get d t f) s _ (decide_eq_true ⟨hd, hf, ht⟩)
theorem exec_copy (hf : f < 3) : exec (.copy d t f) s = .next (finish s (runInstance d t 3 0x30 f (copyInst d t) s)) :=
  run_wellFormed (i := .copy d t f) s _ (decide_eq_true ⟨hd, hf, ht⟩)

end

/-- Settles O38: each command by what its unit makes of the present run. -/
theorem movesAndStreamsComplete : Obligations.MovesAndStreamsComplete := by
  refine ⟨?put, ?get, ?stream, ?failed⟩
  case put =>
    intro s d t n w hd ht hrun
    rw [exec_put s hd ht (by decide), putNow_of_present hrun]
    rfl
  case get =>
    intro s d t n w hd ht hrun
    rw [exec_get s hd ht (by decide), getNow_of_present hrun]
    rfl
  case stream =>
    intro s d t n w e hd ht hrun htarget hform hfmt he
    rw [exec_copy s hd ht (by decide), runInstance_of_stream hrun (by decide)
      ((copyInst_of_same_format hform hfmt he _).trans (outTo_engine htarget ..))]
    rfl
  case failed =>
    intro s d t n f w hd ht hf hrun
    rw [exec_put s hd ht (by omega), putNow_of_failed hrun (by omega)]

end Sys2Proof.Machine
end

section
/-! SUPPORT. Waybills on their way through a tile's queues (R231, R240, R241, R247), what moves a loop nest on (R237), and what a completion
leaves (R244, R245). -/

namespace Sys2Proof.Machine

/-! ## What a write of tile memory leaves alone -/

section
variable (s : State) (d t off : Nat) (l : List Byte)

theorem State.setMemByte_eq (b : Byte) : s.setMemByte d t off b = { s with mem := (s.setMemByte d t off b).mem } := by
  unfold State.setMemByte
  split <;> rfl

/-- A write changes the memory and nothing else. -/
theorem State.writeMem_eq : s.writeMem d t off l = { s with mem := (s.writeMem d t off l).mem } := by
  induction l generalizing s off with
  | nil => rfl
  | cons b l ih =>
    rw [State.writeMem, ih, State.setMemByte_eq]

@[simp] theorem State.writeMem_tiles : (s.writeMem d t off l).tiles = s.tiles := by
  rw [State.writeMem_eq]

@[simp] theorem State.writeMem_slot (e v n : Nat) : (s.writeMem d t off l).slot e v n = s.slot e v n := by
  rw [State.writeMem_eq]
  rfl

@[simp] theorem State.writeMem_fld (f : Fld) (k : List Nat) : (s.writeMem d t off l).fld f k = s.fld f k := by
  rw [State.writeMem_eq]
  rfl

/-- Every byte outside the string written, of this tile and of every other, stands as it did. -/
theorem tabGet_writeMem_outside {a : Nat} (h : a < tileBase d t + off ∨ tileBase d t + off + l.length ≤ a) :
    tabGet 0 (s.writeMem d t off l).mem a = tabGet 0 s.mem a := by
  induction l generalizing s off with
  | nil => rfl
  | cons b l ih =>
    simp only [List.length_cons] at h
    rw [State.writeMem, ih _ _ (by omega), State.setMemByte]
    split
    · exact tabGet_set_other _ _ _ _ (by omega)
    · rfl

end

@[simp] theorem length_leBytes (n v : Nat) : (leBytes n v).length = n := by
  induction n generalizing v with
  | zero => rfl
  | succ n ih => simp [leBytes, ih]

@[simp] theorem length_statusRecord (st op n gen det : Nat) : (statusRecord st op n gen det).length = 8 := by
  simp [statusRecord]

/-! ## Completion (R244, R245) -/

/-- A counter that counts where `c` holds. -/
def State.bumpWhen (s : State) (c : Bool) (f : Fld) (k : List Nat) : State := if c then s.bump f k else s

section
variable (s : State) (c : Bool) (f : Fld) (k : List Nat)

theorem State.bumpWhen_eq_flds : s.bumpWhen c f k = { s with flds := (s.bumpWhen c f k).flds } := by
  unfold State.bumpWhen
  split <;> rfl

theorem State.bumpWhen_not : s.bumpWhen (!c) f k = if c then s else s.bump f k := by
  cases c <;> rfl

theorem State.fld_bumpWhen_same : (s.bumpWhen c f k).fld f k = if c then min (s.fld f k + 1) (2 ^ f.width - 1) else s.fld f k := by
  unfold State.bumpWhen
  split
  · exact State.fld_bump_same s f k
  · rfl

theorem State.fld_bumpWhen_ne {g : Fld} (l : List Nat) (h : f.lo ≠ g.lo) : (s.bumpWhen c f k).fld g l = s.fld g l := by
  unfold State.bumpWhen
  split
  · exact State.fld_setFld_ne s _ (.inr (.inl h))
  · rfl

end

/-- A completion counts itself, and its lateness or its fault. -/
def countCompletion (d t st : Nat) (s : State) : State :=
  let u := (s.bump F.TL_WB_STAT_COMPLETED [d, t]).bumpWhen (decide (st = 1 ∨ st = 2)) F.TL_WB_STAT_LATE [d, t]
  u.bumpWhen (!goodStatus st) F.TL_WB_STAT_FAULTED [d, t]

/-- What a completion leaves of a slot: its generation, and the credits that its Waybill has not used up. -/
def emptiedSlot (r : SlotRec) : SlotRec :=
  { credits := if r.absent then r.nextCredits else r.credits - wbWait r.armed + r.nextCredits, gen := r.gen }

/-- A slot is emptied, and its gates hold no launch. -/
def emptySlot (d t n : Nat) (s : State) : State :=
  ((s.dropGate (.wbStart d t n)).dropGate (.wbRelease d t n)).setSlot d t n (emptiedSlot (s.slot d t n))

section
variable (s : State) (d t st : Nat)

theorem countCompletion_eq_flds : countCompletion d t st s = { s with flds := (countCompletion d t st s).flds } := by
  rw [countCompletion, State.bumpWhen_eq_flds, State.bumpWhen_eq_flds _ (decide (st = 1 ∨ st = 2))]
  rfl

theorem countCompletion_completed :
    (countCompletion d t st s).fld F.TL_WB_STAT_COMPLETED [d, t] = min (s.fld F.TL_WB_STAT_COMPLETED [d, t] + 1) (2 ^ 32 - 1) := by
  rw [countCompletion, State.fld_bumpWhen_ne _ _ _ _ _ (by decide), State.fld_bumpWhen_ne _ _ _ _ _ (by decide)]
  exact State.fld_bump_same ..

theorem countCompletion_late : (countCompletion d t st s).fld F.TL_WB_STAT_LATE [d, t] =
    if st = 1 ∨ st = 2 then min (s.fld F.TL_WB_STAT_LATE [d, t] + 1) 255 else s.fld F.TL_WB_STAT_LATE [d, t] := by
  rw [countCompletion, State.fld_bumpWhen_ne _ _ _ _ _ (by decide), State.fld_bumpWhen_same, State.bump,
    State.fld_setFld_ne _ _ (.inr (.inl (by decide)))]
  simp

theorem countCompletion_faulted : (countCompletion d t st s).fld F.TL_WB_STAT_FAULTED [d, t] =
    if st ≤ 1 then s.fld F.TL_WB_STAT_FAULTED [d, t] else min (s.fld F.TL_WB_STAT_FAULTED [d, t] + 1) 255 := by
  rw [countCompletion, State.fld_bumpWhen_same, State.fld_bumpWhen_ne _ _ _ _ _ (by decide), State.bump,
    State.fld_setFld_ne _ _ (.inr (.inl (by decide))), goodStatus]
  by_cases h : st ≤ 1 <;> simp [h]

end

section
variable {s : State} {d t n st det : Nat}

/-- A successor entry of kind 0 names nothing. -/
theorem successor_of_none {e : Nat} (h : e / 2 ^ 14 = 0) (poisoned : Bool) : successor d t e poisoned s = s := by
  simp only [successor, h]

/-- A completion that reaches no other slot empties its own, is counted, and writes its status record. -/
theorem completeSlot_of_alone (hnext : ∀ i ∈ [16, 18, 20, 22], wbLe (s.slot d t n).armed i 2 / 2 ^ 14 = 0)
    (hnotify : wbNotify (s.slot d t n).armed = false) (hpend : (s.slot d t n).pendingArm = false)
    (hoff : wbStatusOff (s.slot d t n).armed ≠ 0xFFFFFFFF) :
    completeSlot d t n st det s =
      (countCompletion d t st (emptySlot d t n s)).writeMem d t (wbStatusOff (s.slot d t n).armed)
        (statusRecord st (wbOpcode (s.slot d t n).armed) n (s.slot d t n).gen det) := by
  simp only [completeSlot, hnotify, hpend, if_neg hoff, Bool.false_eq_true, if_false]
  rw [State.forAll_of_fixed fun i hi => successor_of_none (hnext i hi) _]
  rw [countCompletion, State.bumpWhen_not]
  simp only [State.bumpWhen, decide_eq_true_eq]
  rfl

end

/-- Settles O35: the completion is its own slot emptied, then counted, then recorded, and each of the three leaves the other two alone. -/
theorem completionTakesItsEffects : Obligations.CompletionTakesItsEffects := by
  intro s d t n st det _ _ _ _ r u hnext hnotify hpend hoff
  have hsome : wbStatusOff r.armed ≠ 0xFFFFFFFF := by
    unfold tileSize at hoff
    omega
  have hu : u = _ := completeSlot_of_alone hnext hnotify hpend hsome
  have hlen : (statusRecord st (wbOpcode r.armed) n r.gen det).length = 8 := length_statusRecord ..
  have hcount := countCompletion_eq_flds (emptySlot d t n s) d t st
  rw [hu]
  refine ⟨?slot, ?record, ?rest, ?completed, ?late, ?faulted⟩
  case slot =>
    rw [State.writeMem_slot, hcount]
    exact State.slot_setSlot_same ..
  case record =>
    intro i hi
    rw [memByte_writeMem_inside _ _ _ _ _ (hi.trans_eq hlen.symm) (by rw [hlen]; exact hoff), List.getD_eq_getElem]
  case rest =>
    intro a ha
    have hout : a < tileBase d t + wbStatusOff r.armed ∨ tileBase d t + wbStatusOff r.armed + 8 ≤ a := by
      have := ha (a - (tileBase d t + wbStatusOff r.armed))
      omega
    rw [tabGet_writeMem_outside _ _ _ _ _ (by rwa [hlen]), hcount]
    rfl
  case completed => exact (State.writeMem_fld ..).trans (countCompletion_completed ..)
  case late => exact (State.writeMem_fld ..).trans (countCompletion_late ..)
  case faulted => exact (State.writeMem_fld ..).trans (countCompletion_faulted ..)

/-! ## The queues (R231, R240, R241) -/

section
variable {s : State} {d t u n : Nat} {l : List Nat}

/-- With no push waiting, the ready queue only loses its head. -/
theorem popReady_of_cons (hready : s.readyQ d t = n :: l) (hover : s.overQ d t = []) : popReady d t s = s.setReadyQ d t l := by
  simp only [popReady, hover, hready, List.tail_cons]

/-- A Waybill that is to run passes to its unit's queue where that has a place; where it has none, the block is counted once. -/
theorem dispatch_of_runnable (hready : s.readyQ d t = n :: l) (hfail : (s.slot d t n).fail = none)
    (hunit : unitOf (wbOpcode (s.slot d t n).armed) = some u) (hu : u ≠ 4) (hfence : s.tileFenced d t = false) :
    dispatch d t s =
      if (s.issueQ d t u).length < 4 then setBlocked d t false ((popReady d t s).setIssueQ d t u (s.issueQ d t u ++ [n]))
      else if tabGet 0 s.tiles.blocked [d, t] = 1 then s else setBlocked d t true (s.bump F.TL_STALL_ISSUE_FULL [d, t]) := by
  simp only [dispatch, hready, hfail, hunit, hfence, Bool.false_eq_true, if_false]

/-- A Waybill that is not to run finishes with the status that its fault gave it. -/
theorem dispatch_of_failed {st : Nat} (hready : s.readyQ d t = n :: l) (hfail : (s.slot d t n).fail = some st) :
    dispatch d t s = finishUnrun d t n st (popReady d t s) := by
  simp only [dispatch, hready, hfail]

theorem joinRun_of_head (hready : s.readyQ d t = n :: l) (hfail : (s.slot d t n).fail = none) (hop : wbOpcode (s.slot d t n).armed = 0)
    (hfence : s.tileFenced d t = false) : joinRun d t s = finishUnrun d t n (if (s.slot d t n).late then 1 else 0) (popReady d t s) := by
  simp only [joinRun, hready, hfail, hop, hfence]
  rfl

theorem waybillStart_of_free (hfree : s.running d t u = none) (hissue : s.issueQ d t u = n :: l) (hfence : s.tileFenced d t = false) :
    waybillStart d t u s = ((s.setIssueQ d t u l).setRunning d t u (some n)).setSlot d t n
      { s.slot d t n with st := .running, k := 0, ran := false, allDone := false } := by
  simp only [waybillStart, hfree, hissue, hfence, Bool.false_eq_true, if_false]

/-- A turn of a unit other than the mover has run without a fault: the loop nest moves on, or the run ends. -/
theorem instanceDone_of_ran (hrun : s.running d t u = some n) (hu : u ≠ 3) (hhand : s.tileHanding d t = false) (hst : (s.slot d t n).st = .running)
    (hran : (s.slot d t n).ran = true) (hok : (s.slot d t n).status = none) :
    instanceDone d t u s =
      if (s.slot d t n).k + 1 < wbInstances (s.slot d t n).armed
      then s.setSlot d t n { s.slot d t n with k := (s.slot d t n).k + 1, ran := false } else endRun d t u n s := by
  simp only [instanceDone, hrun, hhand, hst, hran, hok, hu]
  by_cases hlast : (s.slot d t n).k + 1 < wbInstances (s.slot d t n).armed
  · simp [hu, hlast]
  · simp [hu, hlast, Nat.le_of_not_lt hlast]

/-- A finished Waybill without a release gate takes its completion effects at once. -/
theorem completeWaybill_of_ungated {st det : Nat} (hfin : (s.slot d t n).finished = some (st, det)) (hgate : wbGateKind (s.slot d t n).armed ≠ 2) :
    completeWaybill d t n s = completeSlot d t n st det s := by
  simp only [completeWaybill, hfin, hgate, false_and, if_false]

end

section
variable (s : State) {d t : Nat} (hd : d < 8) (ht : t < 2048)
include hd ht

theorem exec_dispatch : exec (.dispatch d t) s = .next (finish s (dispatch d t s)) :=
  run_wellFormed (i := .dispatch d t) s _ (decide_eq_true ⟨hd, ht⟩)
theorem exec_join : exec (.join d t) s = .next (finish s (joinRun d t s)) :=
  run_wellFormed (i := .join d t) s _ (decide_eq_true ⟨hd, ht⟩)
theorem exec_waybillStart {u : Nat} (hu : u < 4) : exec (.waybillStart d t u) s = .next (finish s (waybillStart d t u s)) :=
  run_wellFormed (i := .waybillStart d t u) s _ (decide_eq_true ⟨hd, hu, ht⟩)
theorem exec_instanceDone {u : Nat} (hu : u < 4) : exec (.instanceDone d t u) s = .next (finish s (instanceDone d t u s)) :=
  run_wellFormed (i := .instanceDone d t u) s _ (decide_eq_true ⟨hd, hu, ht⟩)
theorem exec_waybillComplete {n : Nat} (hn : n < 1024) : exec (.waybillComplete d t n) s = .next (finish s (completeWaybill d t n s)) :=
  run_wellFormed (i := .waybillComplete d t n) s _ (decide_eq_true ⟨hd, hn, ht⟩)

end

/-- Settles O34: each command by the queue it takes from and the state of the slot at its head. -/
theorem waybillsMoveThroughTheQueues : Obligations.WaybillsMoveThroughTheQueues := by
  refine ⟨?passed, ?blocked, ?unrun, ?started, ?movesOn, ?joined, ?completed⟩
  case passed =>
    intro s d t n u l hd ht hready hover hfail hunit hu hfence hplace
    rw [exec_dispatch s hd ht, dispatch_of_runnable hready hfail hunit hu hfence, if_pos hplace, popReady_of_cons hready hover]
  case blocked =>
    intro s d t n u l hd ht hready hfail hunit hu hfence hfull hnew
    rw [exec_dispatch s hd ht, dispatch_of_runnable hready hfail hunit hu hfence, if_neg hfull.not_gt, if_neg hnew]
  case unrun =>
    intro s d t n st l hd ht hready hover hfail
    rw [exec_dispatch s hd ht, dispatch_of_failed hready hfail, popReady_of_cons hready hover]
    rfl
  case started =>
    intro s d t u n l hd ht hu hfree hissue hfence
    rw [exec_waybillStart s hd ht hu, waybillStart_of_free hfree hissue hfence]
  case movesOn =>
    intro s d t u n hd ht hu hrun hhand hst hran hok
    rw [exec_instanceDone s hd ht (by omega), instanceDone_of_ran hrun hu.ne hhand hst hran hok]
  case joined =>
    intro s d t n l hd ht hready hover hfail hop hfence
    rw [exec_join s hd ht, joinRun_of_head hready hfail hop hfence, popReady_of_cons hready hover]
    rfl
  case completed =>
    intro s d t n st det hd ht hn hfin hgate
    rw [exec_waybillComplete s hd ht hn, completeWaybill_of_ungated hfin hgate]

end Sys2Proof.Machine
end

section
/-! SUPPORT. Instances of the compute and move opcodes: how many bytes each gives and where they go (R237, R250 to R254), and what the lane cores'
accesses make of the store buffers (R229, R230). -/

namespace Sys2Proof.Machine

/-! ## The bytes of a vector of results (R197, R198) -/

section
variable (f : FloatFmt) (md : Mode)

theorem length_flatMap_of_const {α β : Type} {l : List α} {g : α → List β} {c : Nat} (h : ∀ a ∈ l, (g a).length = c) :
    (l.flatMap g).length = l.length * c := by
  rw [List.length_flatMap, List.map_congr_left h, List.map_const', List.sum_replicate, smul_eq_mul]

theorem length_packBits (w : Nat) (l : List Nat) : (packBits w l).length = (w * l.length + 7) / 8 := length_leBytes ..

theorem length_mxBlock (l : List Num) : (mxBlock f md l).2.length = l.length := by
  unfold mxBlock
  split
  · exact List.length_map _
  · split
    · exact List.length_map _
    · dsimp only
      split <;> exact List.length_map _

/-- A segment is 64 scales and 64 blocks of 32 elements, however few of them are results. -/
theorem length_mxSegment (l : List Num) : (mxSegment f md l).length = segBytes f := by
  have hblock : ∀ b ∈ (List.range 64).map (fun b =>
      let v := (l.drop (32 * b)).take 32
      mxBlock f md (v ++ List.replicate (32 - v.length) .zero)), (packBits f.w b.2).length = 4 * f.w := by
    intro b hb
    obtain ⟨i, -, rfl⟩ := List.mem_map.mp hb
    have hlen : ((l.drop (32 * i)).take 32).length ≤ 32 := List.length_take_le ..
    have hpad : ((l.drop (32 * i)).take 32).length + (32 - ((l.drop (32 * i)).take 32).length) = 32 := by omega
    rw [length_packBits, length_mxBlock, List.length_append, List.length_replicate, hpad]
    omega
  rw [mxSegment, List.length_append, length_flatMap_of_const hblock, List.length_map, List.length_map, List.length_range, segBytes]
  omega

/-- A vector of results takes the bytes of its elements, whole segments for an MX format. -/
theorem Elem.length_bytes (k : Elem) (l : List Num) : (k.bytes md l).1.length = k.span l.length := by
  cases k with
  | mx f => exact (length_flatMap_of_const fun _ _ => length_mxSegment ..).trans (by rw [List.length_range]; rfl)
  | flt f => exact (length_flatMap_of_const fun _ _ => length_leBytes ..).trans (by rw [List.length_map]; rfl)
  | pair => exact (length_flatMap_of_const fun _ _ => length_leBytes ..).trans (by rw [List.length_map]; rfl)
  | int sg n => exact (length_flatMap_of_const fun _ _ => length_leBytes ..).trans (by rw [List.length_map]; rfl)

end

@[simp] theorem State.length_readMem (s : State) (d t off n : Nat) : (s.readMem d t off n).length = n := by
  simp [State.readMem]

section
variable {fmt : Nat} {e : Elem} (width n : Nat)

theorem spanBytes_of_elem (he : elemOf fmt = some e) : spanBytes fmt width n = e.span n := by
  simp only [spanBytes, he]

theorem spanBytes_of_raw (he : elemOf fmt = none) : spanBytes fmt width n = n * width := by
  simp only [spanBytes, he]

theorem unitBytes_of_elem (he : elemOf fmt = some e) : unitBytes fmt width = e.size := by
  simp only [unitBytes, he]

theorem unitBytes_of_raw (he : elemOf fmt = none) : unitBytes fmt width = width := by
  simp only [unitBytes, he]

/-- Elements that are whole bytes lie one behind the other. -/
theorem Elem.span_of_whole (he : e.isMx = false) : e.span n = n * e.size := by
  cases e with
  | mx f => cases he
  | flt f => rfl
  | pair => rfl
  | int sg b => rfl

end

/-! ## Store buffers (R229, R230) -/

/-- Tile memory and the slots, which the store buffers do not touch. -/
def memAndSlots (s : State) : List Host.Cell × Tab SlotRec := (s.mem, s.tiles.slots)

section
variable (s : State) (d t : Nat)

theorem memAndSlots_loadCompare (lane : Bool) (a len : Nat) : memAndSlots (loadCompare d t lane a len s) = memAndSlots s := by
  unfold loadCompare
  dsimp only
  split
  · rfl
  · split <;> rfl

theorem memAndSlots_pushStore (x : BufStore) : memAndSlots (pushStore d t x s) = memAndSlots s := by
  unfold pushStore
  dsimp only
  split <;> rfl

theorem memAndSlots_laneBuffers (w : List Byte) (k : Nat) : memAndSlots (laneBuffers d t w k s) = memAndSlots s :=
  (State.forAll_keeps (obs := memAndSlots) (fun _ _ u => memAndSlots_pushStore u d t _) _).trans
    (State.forAll_keeps (obs := memAndSlots) (fun _ _ u => memAndSlots_loadCompare u d t true _ _) s)

end

/-! ## The present turn (R237) -/

/-- The outputs of a turn of the loop nest stand in tile memory. -/
def outsWritten (d t : Nat) (l : List (Nat × List Byte)) (s : State) : State := s.forAll l (fun x v => v.writeMem d t x.1 x.2)

/-- The present turn of unit `u` has written its outputs; lane cores have raised their flags, and their accesses met the store buffers. -/
def outDone (d t u : Nat) (w : List Byte) (k : Nat) (out : InstOut) (s : State) : State :=
  if u = 1 then laneBuffers d t w k (raiseFlags d t 1 out.flags (outsWritten d t out.writes s)) else outsWritten d t out.writes s

/-- A form that the tile mover could not read is counted. -/
def formFault (d t u : Nat) (s : State) : State := s.bumpWhen (decide (u = 3)) F.TM_STAT_FORM_FAULTS [d, t]

section
variable {s : State} {d t u op n k : Nat} {w : List Byte} {out : InstOut} {f : State → List Byte → Nat → InstOut}

theorem presentRun_armed (hrun : presentRun s d t u op = some (n, w)) : (s.slot d t n).armed = w ∧ wbOpcode w = op := by
  unfold presentRun at hrun
  split at hrun
  · dsimp only at hrun
    split at hrun
    · next h =>
      obtain ⟨rfl, rfl⟩ := Prod.mk.inj (Option.some.inj hrun)
      exact ⟨rfl, h.2.2.2.2.2⟩
    · cases hrun
  · cases hrun

theorem memAndSlots_outDone : memAndSlots (outDone d t u w k out s) = memAndSlots (outsWritten d t out.writes s) := by
  unfold outDone
  split
  · exact memAndSlots_laneBuffers ..
  · rfl

theorem memAndSlots_formFault : memAndSlots (formFault d t u s) = memAndSlots s := by
  rw [formFault, State.bumpWhen_eq_flds]
  rfl

theorem slot_of_memAndSlots {v : State} (h : memAndSlots v = memAndSlots s) : v.slot d t n = s.slot d t n :=
  congrArg (fun x : List Host.Cell × Tab SlotRec => tabGet ({} : SlotRec) x.2 [d, t, n]) h

theorem outDone_slot : (outDone d t u w k out s).slot d t n = s.slot d t n :=
  (slot_of_memAndSlots memAndSlots_outDone).trans
    (State.forAll_keeps (obs := fun v => v.slot d t n) (fun _ _ v => v.writeMem_slot ..) s)

/-- A turn that streams nothing writes its outputs; without a fault it has then run. -/
theorem runInstance_of_memory (hrun : presentRun s d t u op = some (n, w)) (hout : f s w (s.slot d t n).k = out)
    (hstream : out.stream = none) (hwhole : out.partial_ = false) (hok : out.fail = none) :
    runInstance d t u op 0 f s = instanceRan d t n (outDone d t u w (s.slot d t n).k out s) := by
  simp only [runInstance, hrun, hout, hstream, hwhole, hok, ne_eq, not_true_eq_false, if_false]
  rfl

/-- A fault that a turn finds in its operands stops the Waybill. -/
theorem runInstance_of_fault (hrun : presentRun s d t u op = some (n, w)) (hout : f s w (s.slot d t n).k = out)
    (hwhole : out.partial_ = false) {st : Nat} (hfail : out.fail = some st) :
    runInstance d t u op 0 f s =
      instanceRan d t n (failRun d t n st 0 (poisonStream d t n (formFault d t u (outDone d t u w (s.slot d t n).k out s)))) := by
  simp only [runInstance, hrun, hout, hwhole, hfail, ne_eq, not_true_eq_false, if_false, formFault, State.bumpWhen, decide_eq_true_eq]
  rfl

end

/-! ## The bytes that a turn may change (R229) -/

/-- An output in memory takes at most the `len` bytes from `a`: nothing streams, and no byte is left unstated. -/
structure InstOut.Within (out : InstOut) (a len : Nat) : Prop where
  stream : out.stream = none
  whole : out.partial_ = false
  writes : ∀ x ∈ out.writes, x.1 = a ∧ x.2.length = len

section
variable {s : State} {d t u op n k : Nat} {w : List Byte} {f : State → List Byte → Nat → InstOut}

theorem within_outTo {bytes : List Byte} {len flags : Nat} (hmem : (opO w).target = 0) (hlen : bytes.length = len) :
    (outTo w k bytes flags).Within (placeOf w (opO w) k) len := by
  rw [outTo, if_pos hmem]
  exact ⟨rfl, rfl, by simpa using hlen⟩

theorem within_fault (st a len : Nat) : ({ fail := some st } : InstOut).Within a len := ⟨rfl, rfl, by simp⟩

theorem instanceRan_mem (s : State) : (instanceRan d t n s).mem = s.mem := rfl

theorem failRun_mem (st det : Nat) (s : State) : (failRun d t n st det s).mem = s.mem := by
  obtain ⟨x, hx⟩ := onlyTiles_failRun (s := s) d t n st det
  rw [hx]

theorem poisonStream_mem (hmem : (opO (s.slot d t n).armed).target = 0) : (poisonStream d t n s).mem = s.mem := by
  rw [poisonStream_of_memory s d t n hmem]
  rfl

/-- Outside its outputs a turn changes no memory. -/
theorem outsWritten_outside {l : List (Nat × List Byte)} {b len a : Nat} (hl : ∀ x ∈ l, x.1 = b ∧ x.2.length = len)
    (ha : a < tileBase d t + b ∨ tileBase d t + b + len ≤ a) : tabGet 0 (outsWritten d t l s).mem a = tabGet 0 s.mem a := by
  refine State.forAll_keeps (obs := fun v => tabGet 0 v.mem a) (fun x hx v => ?_) s
  obtain ⟨hb, hlen⟩ := hl x hx
  exact tabGet_writeMem_outside v d t x.1 x.2 (by rwa [hb, hlen])

/-- A turn whose output is memory changes at most the bytes of that output, faulty or not. -/
theorem runInstance_outside {len a : Nat} (hrun : presentRun s d t u op = some (n, w)) (hmem : (opO w).target = 0)
    (hout : (f s w (s.slot d t n).k).Within (placeOf w (opO w) (s.slot d t n).k) len)
    (ha : a < tileBase d t + placeOf w (opO w) (s.slot d t n).k ∨ tileBase d t + placeOf w (opO w) (s.slot d t n).k + len ≤ a) :
    tabGet 0 (runInstance d t u op 0 f s).mem a = tabGet 0 s.mem a := by
  obtain ⟨hstream, hwhole, hwrites⟩ := hout
  generalize hout : f s w (s.slot d t n).k = out at *
  have hkeep {v : State} (hv : memAndSlots v = memAndSlots (outDone d t u w (s.slot d t n).k out s)) : tabGet 0 v.mem a = tabGet 0 s.mem a :=
    (congrArg (fun x : List Host.Cell × Tab SlotRec => tabGet 0 x.1 a) (hv.trans memAndSlots_outDone)).trans (outsWritten_outside hwrites ha)
  cases hfail : out.fail with
  | none =>
    rw [runInstance_of_memory hrun hout hstream hwhole hfail, instanceRan_mem]
    exact hkeep rfl
  | some st =>
    have harmed : ((formFault d t u (outDone d t u w (s.slot d t n).k out s)).slot d t n).armed = w := by
      rw [slot_of_memAndSlots memAndSlots_formFault, outDone_slot, (presentRun_armed hrun).1]
    rw [runInstance_of_fault hrun hout hwhole hfail, instanceRan_mem, failRun_mem, poisonStream_mem (by rwa [harmed])]
    exact hkeep memAndSlots_formFault

end

/-! ## What each opcode gives (R250, R251, R253) -/

section
variable {s : State} {d t k : Nat} {w : List Byte} (hmem : (opO w).target = 0)
include hmem

theorem vfloatInst_within :
    (vfloatInst d t s w k).Within (placeOf w (opO w) k) (spanBytes (opO w).fmt (cpWidth w) (pLength w)) := by
  unfold vfloatInst
  dsimp only
  split
  · next ea eo hea heo =>
    rw [spanBytes_of_elem _ _ heo]
    split
    · exact within_outTo hmem (by simp [Elem.length_bytes])
    · exact within_outTo hmem (by simp [Elem.length_bytes])
  · exact within_fault ..

theorem vintInst_within :
    (vintInst d t s w k).Within (placeOf w (opO w) k) (spanBytes (opO w).fmt (cpWidth w) (pLength w)) := by
  unfold vintInst
  dsimp only
  split
  · next sa na so no hea heo =>
    rw [spanBytes_of_elem _ _ heo]
    refine within_outTo hmem ((length_flatMap_of_const fun _ _ => length_leBytes ..).trans ?_)
    rw [List.length_map, List.length_range]
    rfl
  · exact within_fault ..

theorem vreduceInst_within :
    (vreduceInst d t s w k).Within (placeOf w (opO w) k) (spanBytes (opO w).fmt (cpWidth w) 1) := by
  unfold vreduceInst
  dsimp only
  split
  · next ea eo hea heo =>
    rw [spanBytes_of_elem _ _ heo]
    exact within_outTo hmem (Elem.length_bytes ..)
  · exact within_fault ..

omit hmem in
theorem copyInst_of_raw (hform : cpForm w = 0) (hraw : elemOf (opA w).fmt = none) :
    copyInst d t s w k = outTo w k (s.readMem d t (placeOf w (opA w) k) (pLength w * cpWidth w)) 0 := by
  simp only [copyInst, hform, hraw]

/-- Elements that change no form take the bytes of as many elements of the output. -/
theorem copyInst_within (hform : cpForm w = 0) (hraw : elemOf (opA w).fmt = none ↔ elemOf (opO w).fmt = none) :
    (copyInst d t s w k).Within (placeOf w (opO w) k) (spanBytes (opO w).fmt (cpWidth w) (pLength w)) := by
  cases ho : elemOf (opO w).fmt with
  | none =>
    rw [copyInst_of_raw hform (hraw.mpr ho), spanBytes_of_raw _ _ ho]
    exact within_outTo hmem (State.length_readMem ..)
  | some eo =>
    obtain ⟨ea, ha⟩ := Option.ne_none_iff_exists'.mp (fun ha => by simp [hraw.mp ha] at ho : elemOf (opA w).fmt ≠ none)
    rw [spanBytes_of_elem _ _ ho]
    by_cases hfmt : (opA w).fmt = (opO w).fmt
    · rw [copyInst_of_same_format hform hfmt (hfmt ▸ ho)]
      exact within_outTo hmem (State.length_readMem ..)
    · simp only [copyInst, hform, ha, ho, if_neg hfmt]
      exact within_outTo hmem (by simp [Elem.length_bytes])

theorem fillInst_within (hwhole : (elemOf (opO w).fmt).all (fun e => !e.isMx) = true) :
    (fillInst w k).Within (placeOf w (opO w) k) (spanBytes (opO w).fmt (cpWidth w) (pLength w)) := by
  have hspan : spanBytes (opO w).fmt (cpWidth w) (pLength w) = pLength w * unitBytes (opO w).fmt (cpWidth w) := by
    cases ho : elemOf (opO w).fmt with
    | none => rw [spanBytes_of_raw _ _ ho, unitBytes_of_raw _ ho]
    | some e => rw [spanBytes_of_elem _ _ ho, unitBytes_of_elem _ ho, Elem.span_of_whole _ (by simpa [ho] using hwhole)]
  rw [hspan]
  exact within_outTo hmem (by simp)

end

section
variable (s : State) {d t f : Nat} (hd : d < 8) (ht : t < 2048) (hf : f < 3)
include hd ht hf

theorem exec_matmul : exec (.matmul d t f) s = .next (finish s (runInstance d t 0 0x10 f (matmulInst d t) s)) :=
  run_wellFormed (i := .matmul d t f) s _ (decide_eq_true ⟨hd, hf, ht⟩)
theorem exec_vfloat : exec (.vfloat d t f) s = .next (finish s (runInstance d t 1 0x20 f (vfloatInst d t) s)) :=
  run_wellFormed (i := .vfloat d t f) s _ (decide_eq_true ⟨hd, hf, ht⟩)
theorem exec_vint : exec (.vint d t f) s = .next (finish s (runInstance d t 1 0x21 f (vintInst d t) s)) :=
  run_wellFormed (i := .vint d t f) s _ (decide_eq_true ⟨hd, hf, ht⟩)
theorem exec_vreduce : exec (.vreduce d t f) s = .next (finish s (runInstance d t 1 0x22 f (vreduceInst d t) s)) :=
  run_wellFormed (i := .vreduce d t f) s _ (decide_eq_true ⟨hd, hf, ht⟩)
theorem exec_fill : exec (.fill d t f) s = .next (finish s (runInstance d t 3 0x31 f (fun _ w k => fillInst w k) s)) :=
  run_wellFormed (i := .fill d t f) s _ (decide_eq_true ⟨hd, hf, ht⟩)

end

/-- What a command changes of memory, its effect changes. -/
theorem exec_mem_eq {i : Instr} {s u v : State} (hexec : exec i s = .next (finish s v)) (hu : exec i s = .next u) : u.mem = v.mem := by
  rw [Host.Outcome.next.inj (hu.symm.trans hexec), finish_mem]

/-- Settles O37: one turn of each opcode gives the bytes of its elements at O.inst, and running it writes no others. -/
theorem instancesWriteOnlyTheirOutput : Obligations.InstancesWriteOnlyTheirOutput := by
  intro s u d t n a w hd ht hmem o len
  refine ⟨?vfloat, ?vint, ?copy, ?fill, ?vreduce⟩
  case vfloat =>
    intro hrun hu ha
    rw [exec_mem_eq (exec_vfloat s hd ht (by decide)) hu]
    exact runInstance_outside hrun hmem (vfloatInst_within hmem) ha
  case vint =>
    intro hrun hu ha
    rw [exec_mem_eq (exec_vint s hd ht (by decide)) hu]
    exact runInstance_outside hrun hmem (vintInst_within hmem) ha
  case copy =>
    intro hrun hform hraw hu ha
    rw [exec_mem_eq (exec_copy s hd ht (by decide)) hu]
    exact runInstance_outside hrun hmem (copyInst_within hmem hform hraw) ha
  case fill =>
    intro hrun hwhole hu ha
    rw [exec_mem_eq (exec_fill s hd ht (by decide)) hu]
    exact runInstance_outside hrun hmem (fillInst_within hmem hwhole) ha
  case vreduce =>
    intro hrun hu ha
    rw [exec_mem_eq (exec_vreduce s hd ht (by decide)) hu]
    exact runInstance_outside hrun hmem (vreduceInst_within hmem) ha

end Sys2Proof.Machine
end

section
/-! SUPPORT. What one turn of each compute and move opcode gives with its output in memory (R248 to R254). -/

namespace Sys2Proof.Machine

/-! ## Numbers and words -/

/-- An integer read as a value and rounded to an integer is itself. -/
@[simp] theorem Num.toInt_ofInt (i : Int) : (Num.ofInt i).toInt = i := by
  have hexact : scaleRound .even (decide (i < 0)) i.natAbs 0 = i.natAbs := by simp [scaleRound]
  simp only [Num.ofInt, Num.toInt, hexact, decide_eq_true_eq]
  split <;> omega

theorem leNat_leBytes {n v : Nat} (h : v < 256 ^ n) : leNat (leBytes n v) = v := by
  induction n generalizing v with
  | zero => simp [leBytes, leNat, Nat.lt_one_iff.mp h]
  | succ n ih =>
    have hrest : v / 256 < 256 ^ n := Nat.div_lt_of_lt_mul (by rwa [pow_succ'] at h)
    rw [leBytes, leNat, ih hrest, BitVec.toNat_ofNat]
    exact Nat.mod_add_div v 256

/-! ## MATMUL (R248) -/

section
variable {s : State} {d t k : Nat} {w : List Byte} {ea eb eo : Elem}

/-- Row `r` of an output: 64 dot products on row `r` of A, on top of what stands there where MATMUL accumulates. -/
def dotRow (s : State) (d t : Nat) (w : List Byte) (k : Nat) (ea eo : Elem) (ra cb : List (List Num)) (r : Nat) : List Num :=
  (List.range 64).map (fun j => dotOf ea eo (wbSat w (opO w).fmt)
    (if mmAcc w then (eo.read (memFrom s d t (placeOf w (opO w) k + r * mmPitchO w)) j).norm else .zero) (List.zip (ra.getD r []) (cb.getD j [])))

/-- The bytes of row `r` and their place. -/
def dotRowOut (s : State) (d t : Nat) (w : List Byte) (k : Nat) (ea eo : Elem) (ra cb : List (List Num)) (r : Nat) : Nat × List Byte :=
  (placeOf w (opO w) k + r * mmPitchO w,
    (eo.bytes ⟨.even, wbSat w (opO w).fmt, wbWrap w, true, ea.isInt⟩ (dotRow s d t w k ea eo ra cb r)).1)

theorem matmulInst_of_lines {ra cb : List (List Num)} (ha : elemOf (opA w).fmt = some ea) (hb : elemOf (opB w).fmt = some eb)
    (ho : elemOf (opO w).fmt = some eo) (hmem : (opO w).target = 0) (hra : rowsA s d t w k ea = some ra) (hcb : colsB s d t w k eb = some cb) :
    matmulInst d t s w k = { writes := (List.range 64).map (dotRowOut s d t w k ea eo ra cb) } := by
  have hrow : ∀ r ∈ List.range 64, ((List.range 64).map (dotRow s d t w k ea eo ra cb)).getD r [] = dotRow s d t w k ea eo ra cb r := by
    intro r hr
    simp [List.mem_range.mp hr]
  simp only [matmulInst, ha, hb, ho, hra, hcb, if_pos hmem]
  exact congrArg (fun l : List (Nat × List Byte) => ({ writes := l } : InstOut))
    (List.map_congr_left fun r hr => by rw [dotRowOut, ← hrow r hr]; rfl)

end

/-! ## Vector operations (R250, R251) -/

section
variable {s : State} {d t k : Nat} {w : List Byte} {ea eb eo : Elem} (hmem : (opO w).target = 0)
include hmem

theorem outTo_memory (bytes : List Byte) (flags : Nat) : outTo w k bytes flags = { writes := [(placeOf w (opO w) k, bytes)], flags := flags } :=
  if_pos hmem

/-- A function of two operands in memory: no immediate is converted, so that every flag comes of an element. -/
theorem vfloatInst_of_operands (hop : wbOpcode w = 0x20) (ha : elemOf (opA w).fmt = some ea) (hb : elemOf (opB w).fmt = some eb)
    (huses : usesB w = true) (ho : elemOf (opO w).fmt = some eo) (hfn : pFn w ≠ 0x09) :
    vfloatInst d t s w k =
      let vals := (List.range (pLength w)).map (fun j => vfloatFn (pFn w) (Rnd.ofCode (wbRnd w)) (workFmt w)
        (ea.read (memFrom s d t (placeOf w (opA w) k)) j) (eb.read (memFrom s d t (placeOf w (opB w) k)) j)
        (eo.read (memFrom s d t (placeOf w (opO w) k)) j))
      let r := eo.bytes ⟨.even, wbSat w (opO w).fmt, wbWrap w, false, false⟩ (vals.map (fun v => (workFmt w).decode v.1))
      { writes := [(placeOf w (opO w) k, r.1)], flags := vals.foldl (fun a v => a ||| v.2) r.2 } := by
  have himm : pImm w = false := by simp_all [usesB]
  simp only [vfloatInst, ha, hb, ho, huses, himm, if_neg hfn, if_true, Bool.false_and, Bool.false_eq_true, if_false, Nat.or_zero, outTo_memory hmem]

/-- A function of an operand and SCALAR. -/
theorem vintInst_of_scalar {sa so : Bool} {na no : Nat} (hop : wbOpcode w = 0x21) (ha : elemOf (opA w).fmt = some (.int sa na)) (himm : pImm w = true)
    (ho : elemOf (opO w).fmt = some (.int so no)) :
    vintInst d t s w k =
      let vals := (List.range (pLength w)).map (fun j => vintFn (pFn w) sa
        (intOf sa na (leNat ((List.range na).map (fun i => s.memByte d t (placeOf w (opA w) k + (j * na + i))))))
        (intOf sa na (pScalar w % 2 ^ (8 * na))))
      { writes := [(placeOf w (opO w) k, vals.flatMap (fun v => leBytes no (intPattern (wbWrap w) so no v)))] } := by
  have huses : usesB w = false := by simp [usesB, hop, himm]
  simp only [vintInst, ha, ho, huses, Bool.false_eq_true, if_false, outTo_memory hmem, Elem.read, Elem.value, Elem.size, Num.toInt_ofInt, memFrom]

/-- The sum of the elements, exact until it is written. -/
theorem vreduceInst_of_sum (ha : elemOf (opA w).fmt = some ea) (ho : elemOf (opO w).fmt = some eo) (hflt : ea.isInt = false) (hfn : pFn w = 1) :
    vreduceInst d t s w k =
      let r := eo.bytes ⟨Rnd.ofCode (wbRnd w), wbSat w (opO w).fmt, wbWrap w, false, false⟩
        [sumAll ((List.range (pLength w)).map (ea.read (memFrom s d t (placeOf w (opA w) k))))]
      { writes := [(placeOf w (opO w) k, r.1)], flags := r.2 } := by
  simp only [vreduceInst, ha, ho, hflt, hfn, Bool.false_eq_true, if_false, if_true, Nat.zero_or, outTo_memory hmem]

/-! ## COPY and FILL (R253, R254) -/

theorem copyInst_to_zeroRuns (hraw : elemOf (opA w).fmt = none) (hform : cpForm w = 1) :
    copyInst d t s w k = { writes := [(placeOf w (opO w) k,
      zeroRunForm (cpWidth w) (elemsOf (cpWidth w) (s.readMem d t (placeOf w (opA w) k) (pLength w * cpWidth w))))] } := by
  simp only [copyInst, hform, unitBytes_of_raw _ hraw, if_pos hmem, outTo_memory hmem]

omit hmem in
/-- The head of a zero-run form, field by field: COUNT, WIDTH and three bytes of zero. -/
theorem zeroRunHead_bytes {a n x : Nat} (hhead : s.readMem d t a 8 = leBytes 4 n ++ leBytes 1 x ++ [0, 0, 0]) (hn : n < 2 ^ 32) :
    leNat (s.readMem d t a 4) = n ∧ s.memByte d t (a + 4) = BitVec.ofNat 8 x ∧ s.memByte d t (a + 5) = 0 ∧ s.memByte d t (a + 6) = 0 ∧
      s.memByte d t (a + 7) = 0 := by
  have hfour : s.readMem d t a 4 = (s.readMem d t a 8).take 4 := rfl
  have hbyte : ∀ i, i < 8 → s.memByte d t (a + i) = (s.readMem d t a 8).getD i 0 := by
    intro i hi
    simp [State.readMem, hi]
  refine ⟨?_, ?_, ?_, ?_, ?_⟩
  · rw [hfour, hhead]
    exact leNat_leBytes (n := 4) (by omega)
  all_goals
    rw [hbyte _ (by decide), hhead]
    rfl

/-- A form whose head names the elements that COPY is to read, and whose records give them. -/
theorem copyInst_of_zeroRuns {l : List Byte} (hraw : elemOf (opA w).fmt = none) (hform : cpForm w = 2)
    (hhead : s.readMem d t (placeOf w (opA w) k) 8 = leBytes 4 (pLength w) ++ leBytes 1 (cpWidth w) ++ [0, 0, 0])
    (hlen : pLength w < 2 ^ 32) (hwidth : cpWidth w < 256)
    (hruns : unRun (memFrom s d t (placeOf w (opA w) k)) (min (packedMax (pLength w) (cpWidth w)) (tileSize - placeOf w (opA w) k)) (cpWidth w)
      (pLength w) (pLength w) 8 = some l) :
    copyInst d t s w k = { writes := [(placeOf w (opO w) k, l)] } := by
  obtain ⟨h4, hw, h5, h6, h7⟩ := zeroRunHead_bytes hhead hlen
  have hok : (decide (leNat (s.readMem d t (placeOf w (opA w) k) 4) = pLength w) &&
      decide ((memFrom s d t (placeOf w (opA w) k) 4).toNat = cpWidth w) && decide (memFrom s d t (placeOf w (opA w) k) 5 = 0) &&
      decide (memFrom s d t (placeOf w (opA w) k) 6 = 0) && decide (memFrom s d t (placeOf w (opA w) k) 7 = 0)) = true := by
    simp [h4, memFrom, hw, h5, h6, h7, Nat.mod_eq_of_lt hwidth]
  simp only [copyInst, hform, unitBytes_of_raw _ hraw, hok, if_true, hruns, outTo_memory hmem]

theorem fillInst_of_elem (ho : elemOf (opO w).fmt = some eo) :
    fillInst w k = { writes := [(placeOf w (opO w) k, (List.replicate (pLength w) (leBytes eo.size (pScalar w))).flatten)] } := by
  rw [fillInst, unitBytes_of_elem _ ho]
  exact outTo_memory hmem ..

end

/-! ## The commands -/

/-- A turn that gives nothing but bytes and flags has written them, and has run. -/
theorem runInstance_of_writes {s : State} {d t u op n flags : Nat} {w : List Byte} {l : List (Nat × List Byte)}
    {f : State → List Byte → Nat → InstOut} (hrun : presentRun s d t u op = some (n, w))
    (hout : f s w (s.slot d t n).k = { writes := l, flags := flags }) :
    runInstance d t u op 0 f s =
      (outDone d t u w (s.slot d t n).k { writes := l, flags := flags } s).setSlot d t n { s.slot d t n with ran := true } := by
  rw [runInstance_of_memory hrun hout rfl rfl rfl, instanceRan, outDone_slot]

/-- One output of the lane cores. -/
theorem outDone_of_lanes (s : State) (d t : Nat) (w : List Byte) (k a : Nat) (l : List Byte) (flags : Nat) :
    outDone d t 1 w k { writes := [(a, l)], flags := flags } s = laneBuffers d t w k (raiseFlags d t 1 flags (s.writeMem d t a l)) := rfl

/-- One output of another unit. -/
theorem outDone_of_other (s : State) (d t : Nat) {u : Nat} (hu : u ≠ 1) (w : List Byte) (k a : Nat) (l : List Byte) :
    outDone d t u w k { writes := [(a, l)] } s = s.writeMem d t a l := if_neg hu

/-- Settles O36: what each turn gives is written where the loop nest places O. VFLOAT converts its results to the format of O with ties to even
whatever RND says (log 76), and a store stays in its buffer until a rule or a ninth store needs it gone (log 180): both are the model's choices. -/
theorem instancesComplete : Obligations.InstancesComplete := by
  refine ⟨?matmul, ?vfloat, ?vint, ?vreduce, ?copy, ?fill⟩
  case matmul =>
    intro s d t n w ea eb eo ra cb hd ht hrun ha hb ho hmem hra hcb
    rw [exec_matmul s hd ht (by decide), runInstance_of_writes hrun (matmulInst_of_lines ha hb ho hmem hra hcb)]
    simp only [outDone, outsWritten, State.forAll, List.foldl_map]
    rfl
  case vfloat =>
    intro s d t n w ea eb eo hd ht hrun ha hb huses ho hmem hfn
    rw [exec_vfloat s hd ht (by decide),
      runInstance_of_writes hrun (vfloatInst_of_operands hmem (presentRun_armed hrun).2 ha hb huses ho hfn), outDone_of_lanes]
  case vint =>
    intro s d t n na no w sa so hd ht hrun ha himm ho hmem
    rw [exec_vint s hd ht (by decide), runInstance_of_writes hrun (vintInst_of_scalar hmem (presentRun_armed hrun).2 ha himm ho), outDone_of_lanes]
  case vreduce =>
    intro s d t n w ea eo hd ht hrun ha ho hflt hfn hmem
    rw [exec_vreduce s hd ht (by decide), runInstance_of_writes hrun (vreduceInst_of_sum hmem ha ho hflt hfn), outDone_of_lanes]
  case copy =>
    intro s d t n w l hd ht hrun hmem hraw hl
    have hout : copyInst d t s w (s.slot d t n).k = { writes := [(placeOf w (opO w) (s.slot d t n).k, l)] } := by
      obtain ⟨hform, rfl⟩ | ⟨hform, rfl⟩ | ⟨hform, hhead, hlen, hwidth, hruns⟩ := hl
      · rw [copyInst_of_raw hform hraw, outTo_memory hmem]
      · exact copyInst_to_zeroRuns hmem hraw hform
      · exact copyInst_of_zeroRuns hmem hraw hform hhead hlen hwidth hruns
    rw [exec_copy s hd ht (by decide), runInstance_of_writes hrun hout, outDone_of_other _ _ _ (by decide)]
  case fill =>
    intro s d t n w eo hd ht hrun hmem ho
    rw [exec_fill s hd ht (by decide), runInstance_of_writes hrun (fillInst_of_elem hmem ho), outDone_of_other _ _ _ (by decide)]

end Sys2Proof.Machine
end

section
/-! SUPPORT. WB_BCAST to a rectangle of one tile (R260, R265), and packed long words (R262 to R264): the scan of a stream, and each bundle. -/

namespace Sys2Proof.Machine

/-! ## WB_BCAST (R260) -/

/-- The arguments of a WB_BCAST to slot ARG1 of the one tile (E, R × 64 + C) are in range. -/
structure BcastOne (w : List Byte) (e r c : Nat) : Prop where
  die : e < 8
  row : r < 32
  col : c < 64
  aligned : arg w 0 % 128 = 0
  fits : arg w 0 + 128 ≤ tileSize
  slot : arg w 1 < 1024
  rect : arg w 2 = r + 32 * r + 1024 * c + 65536 * c + 2 ^ 22 * e
  arm : arg w 3 < 2
  rest : argsZero w 4 = true

theorem rectangle_single (r c : Nat) : rectangle r r c c = [r * 64 + c] := by
  simp [rectangle]

section
variable {s : State} {d t e r c : Nat} {w : List Byte}

/-- The fields of a rectangle that begins and ends at one tile. -/
theorem BcastOne.fields (h : BcastOne w e r c) :
    arg w 2 % 32 = r ∧ arg w 2 / 32 % 32 = r ∧ arg w 2 / 1024 % 64 = c ∧ arg w 2 / 65536 % 64 = c ∧ arg w 2 / 2 ^ 22 = e := by
  obtain ⟨hdie, hrow, hcol, -, -, -, hrect, -, -⟩ := h
  have h0 : arg w 2 = r + 32 * (r + 32 * (c + 64 * (c + 64 * e))) := by omega
  have h5 : arg w 2 / 32 = r + 32 * (c + 64 * (c + 64 * e)) := by omega
  have h10 : arg w 2 / 1024 = c + 64 * (c + 64 * e) := by omega
  have h16 : arg w 2 / 65536 = c + 64 * e := by omega
  omega

/-- The slot of the one tile takes the bytes, and the arm where one is asked. -/
def bcastWrite (d t e u : Nat) (w : List Byte) (s : State) : State :=
  let v := s.writeMem e u (wbOffset (arg w 1)) (s.readMem d t (arg w 0) 128)
  if arg w 3 = 1 then armSlot e u (arg w 1) v else v

/-- A row of another Field, or one that does not exist, refuses the call; else the slot is written where it is free, and is counted. -/
theorem wbBcast_of_one (h : BcastOne w e r c) :
    wbBcast d t w s =
      if s.tileSlot d t = none ∨ (s.rowsPerDie ≤ r ∨ s.rowOwner1 e r ≠ s.tileSlot d t) then .error 0x03
      else if (s.slot e (r * 64 + c) (arg w 1)).st ≠ .idle ∨ (s.slot e (r * 64 + c) (arg w 1)).pendingArm = true then .ok ([0, 1], s)
      else .ok ([1, 0], bcastWrite d t e (r * 64 + c) w s) := by
  obtain ⟨hr0, hr1, hc0, hc1, he⟩ := h.fields
  obtain ⟨hdie, -, -, haligned, hfits, hslot, -, harm, hrest⟩ := h
  have hrange : ¬(arg w 0 % 128 ≠ 0 ∨ tileSize < arg w 0 + 128 ∨ 1024 ≤ arg w 1 ∨ 8 ≤ e ∨
      r < r ∨ c < c ∨ 2 ≤ arg w 3 ∨ (!argsZero w 4) = true) := by
    simp only [hrest, Bool.not_true, Bool.false_eq_true, or_false]
    omega
  have hrow : ((List.range (r + 1 - r)).any fun i => decide (s.rowsPerDie ≤ r + i) || decide (s.rowOwner1 e (r + i) ≠ s.tileSlot d t)) = true ↔
      s.rowsPerDie ≤ r ∨ s.rowOwner1 e r ≠ s.tileSlot d t := by
    simp
  simp only [wbBcast, hr0, hr1, hc0, hc1, he, if_neg hrange, rectangle_single, hrow, List.foldl_cons, List.foldl_nil]
  by_cases hbusy : (s.slot e (r * 64 + c) (arg w 1)).st ≠ .idle ∨ (s.slot e (r * 64 + c) (arg w 1)).pendingArm = true
  · simp only [if_pos hbusy]
  · simp only [if_neg hbusy]
    rfl

end

theorem exec_wbBcast (s : State) {d t : Nat} (hd : d < 8) (ht : t < 2048) :
    exec (.wbBcast d t) s = .next (finish s (routine d t 0x0005 2 (wbBcast d t) s)) :=
  run_wellFormed (i := .wbBcast d t) s _ (decide_eq_true ⟨hd, ht⟩)

/-- Settles O41: the three ends of the routine for one tile. -/
theorem broadcastCompletes : Obligations.BroadcastCompletes := by
  intro s d t n e r c w hd ht hdie hrow hcol hin hres haligned hfits hslot hrect harm hrest
  have hone := wbBcast_of_one (s := s) (d := d) (t := t) ⟨hdie, hrow, hcol, haligned, hfits, hslot, hrect, harm, hrest⟩
  rw [exec_wbBcast s hd ht]
  refine ⟨?free, ?busy, ?other⟩
  case free =>
    intro hfield hexists howner hst hpend
    rw [routine_of_ok hin hres (hone.trans ((if_neg (by simp [hfield, hexists, howner])).trans (if_neg (by simp [hst, hpend]))))]
    rfl
  case busy =>
    intro hfield hexists howner hbusy
    rw [routine_of_ok hin hres (hone.trans ((if_neg (by simp [hfield, hexists, howner])).trans (if_pos hbusy)))]
  case other =>
    intro hother
    rw [routine_of_error hin hres (hone.trans (if_pos (.inr hother)))]

/-! ## Packed long words (R262 to R264) -/

/-- The state from which a stream runs: x1 to x8 are the arguments, and every other register is 0. -/
def packedRunOf (w : List Byte) (starts : List Nat) : PackedRun :=
  ⟨0 :: (List.range 8).map (arg w) ++ List.replicate 23 0, List.replicate 16 (List.replicate 64 0), starts, pkOffset w, 0, false⟩

/-- The instructions of the bundle at `a`, lowest slot first. -/
def bundleAt (s : State) (d t a : Nat) : List PkIns :=
  let slots := maskSlots (s.memWord d t a 4 % 256)
  (List.range slots.length).map (fun j => pkIns (slots.getD j 0) (s.memWord d t (a + 4 + 4 * j) 4))

/-- Where the bundle at `a` ends. -/
def bundleEnd (s : State) (d t a : Nat) : Nat := a + 4 + 4 * (maskSlots (s.memWord d t a 4 % 256)).length

/-- The stream as a bundle at `p.next_` that gave `o` leaves it. -/
def bundleRun (s : State) (d t : Nat) (p : PackedRun) (o : PkOut) : PackedRun :=
  ⟨o.x, o.v, p.starts, o.jump.getD (bundleEnd s d t p.next_), p.count + 1, o.halt || (s.memWord d t p.next_ 4).testBit 8⟩

section
variable {s : State} {d t n : Nat} {w : List Byte} {p : PackedRun}

theorem packedStart_of_no_end (hrun : stewardRun s d t 0x41 = some (n, w)) (hnew : (s.slot d t n).packed = none)
    (hscan : scanBundles s d t 4096 (pkOffset w) = none) : packedStart d t s = endRun d t 2 n (failRun d t n 0x07 0 s) := by
  simp only [packedStart, hrun, hnew, hscan]
  rfl

theorem packedStart_of_scan {l : List Nat} (hrun : stewardRun s d t 0x41 = some (n, w)) (hnew : (s.slot d t n).packed = none)
    (hscan : scanBundles s d t 4096 (pkOffset w) = some l) :
    packedStart d t s = s.setSlot d t n { s.slot d t n with packed := some (packedRunOf w l) } := by
  simp only [packedStart, hrun, hnew, hscan]
  rfl

/-- A bundle beyond MAX_BUNDLES is not executed. -/
theorem packedBundle_of_budget (hrun : stewardRun s d t 0x41 = some (n, w)) (hp : (s.slot d t n).packed = some p) (hmax : pkMax w ≤ p.count) :
    packedBundle d t 0 s = endRun d t 2 n (failRun d t n 0x10 0 s) := by
  simp [packedBundle, hrun, hp, hmax]

/-- A bundle that is refused has no effect. -/
theorem packedBundle_of_refused {st : Nat} (hrun : stewardRun s d t 0x41 = some (n, w)) (hp : (s.slot d t n).packed = some p)
    (hmax : p.count < pkMax w) (href : pkRefuse p p.next_ (s.memWord d t p.next_ 4) (bundleAt s d t p.next_) = some st) :
    packedBundle d t 0 s = endRun d t 2 n (failRun d t n st 0 s) := by
  simp only [bundleAt] at href
  simp only [packedBundle, hrun, hp, OfNat.zero_ne_ofNat, ne_eq, not_true_eq_false, if_neg hmax.not_ge, if_false, href]

/-- A header word with a bit beyond END is refused. -/
theorem pkRefuse_of_header {a hd : Nat} (l : List PkIns) (h : 512 ≤ hd) : pkRefuse p a hd l = some 0x07 :=
  if_pos (.inl (Nat.div_pos h (by decide)).ne')

theorem filter_loads_of_none {l : List PkIns} (h : l.any (fun i => i.slot = 3 || i.slot = 4) = false) : l.filter (fun i => i.slot = 3) = [] := by
  simp only [List.any_eq_false, Bool.or_eq_true, decide_eq_true_eq, not_or] at h
  simpa using fun i hi => (h i hi).1

/-- A bundle that loads, stores and credits nothing leaves its registers and its flags. -/
theorem packedBundle_of_registers {o : PkOut} (hrun : stewardRun s d t 0x41 = some (n, w)) (hp : (s.slot d t n).packed = some p)
    (hmax : p.count < pkMax w) (href : pkRefuse p p.next_ (s.memWord d t p.next_ 4) (bundleAt s d t p.next_) = none)
    (hloads : (bundleAt s d t p.next_).filter (fun i => i.slot = 3) = [])
    (ho : o = (bundleAt s d t p.next_).foldl (pkStep s d t p.next_ p) { x := p.x, v := p.v }) (hstores : o.stores = []) (hcredit : o.credit = none) :
    packedBundle d t 0 s =
      let u := raiseFlags d t 1 o.fl1 (raiseFlags d t 0 o.fl0 s)
      let q := bundleRun s d t p o
      let v := u.setSlot d t n { u.slot d t n with packed := some q }
      if q.ended then endRun d t 2 n v else v := by
  simp only [bundleAt] at href hloads ho
  simp only [packedBundle, hrun, hp, OfNat.zero_ne_ofNat, ne_eq, not_true_eq_false, if_neg hmax.not_ge, if_false, href, hloads,
    ← ho, hstores, hcredit]
  rfl

end

section
variable (s : State) {d t : Nat} (hd : d < 8) (ht : t < 2048)
include hd ht

theorem exec_packed : exec (.packed d t) s = .next (finish s (packedStart d t s)) :=
  run_wellFormed (i := .packed d t) s _ (decide_eq_true ⟨hd, ht⟩)
theorem exec_packedBundle {f : Nat} (hf : f < 4) : exec (.packedBundle d t f) s = .next (finish s (packedBundle d t f s)) :=
  run_wellFormed (i := .packedBundle d t f) s _ (decide_eq_true ⟨hd, hf, ht⟩)

end

/-- Settles O42: the scan decides whether a stream runs, and the budget and the checks whether its next bundle does. -/
theorem packedRunsComplete : Obligations.PackedRunsComplete := by
  refine ⟨?scan, ?valid, ?budget, ?header⟩
  case scan =>
    intro s d t n w hd ht hrun hnew
    rw [exec_packed s hd ht]
    cases hscan : scanBundles s d t 4096 (pkOffset w) with
    | none => rw [packedStart_of_no_end hrun hnew hscan]
    | some l =>
      rw [packedStart_of_scan hrun hnew hscan]
      rfl
  case valid =>
    intro s d t n w p ins o hd ht hrun hp hmax hins href hmem ho hstores hcredit
    obtain rfl : ins = bundleAt s d t p.next_ := hins
    rw [exec_packedBundle s hd ht (by decide), packedBundle_of_registers hrun hp hmax href (filter_loads_of_none hmem) ho hstores hcredit]
    rfl
  case budget =>
    intro s d t n w p hd ht hrun hp hmax
    rw [exec_packedBundle s hd ht (by decide), packedBundle_of_budget hrun hp hmax]
  case header =>
    intro s d t n w p hd ht hrun hp hmax hhead
    rw [exec_packedBundle s hd ht (by decide), packedBundle_of_refused hrun hp hmax (pkRefuse_of_header _ hhead)]

end Sys2Proof.Machine
end

section
/-! SUPPORT. The Sheaf commands (chapter 9): the node and the input a packet names, the routines (R272), contributions and covers (R279, R280,
R283), notices at a tile (R289), results passed on (R286) and the deadline (R290). -/

namespace Sys2Proof.Machine

/-! ## The node a packet names (R266, R277) -/

/-- A packet names node `nd`: the Field owns the tile and is not fenced, and the node is anchored on that tile. -/
structure NamesNode (s : State) (k : Pkt) (id : Nat) (nd : SheafNode) : Prop where
  owned : s.ownsTile2 k.die k.dstTile k.p.h.field = true
  unfenced : s.fieldFenced k.p.h.field = false
  node : s.node k.die k.p.h.field id = some nd
  anchor : nd.tile = k.dstTile

/-- A packet's source rank is input `i` of a plan, with entry `x`. -/
structure NamesInput (p : SheafPlan) (k : Pkt) (i : Nat) (x : SheafInput) : Prop where
  index : inputOf p k.p.h.srcRank = some i
  entry : p.inputs[i]? = some x

section
variable {s : State} {pid id : Nat} {k : Pkt} {nd : SheafNode}

theorem NamesNode.taking (h : NamesNode s k id nd) : NamesNode (taking s pid k) k id nd := ⟨h.owned, h.unfenced, h.node, h.anchor⟩

theorem atNode_of_named (h : NamesNode s k id nd) (f : SheafNode → State → State) : atNode k id f s = f nd s := by
  simp [atNode, ownedThen_of_owned h.owned, h.unfenced, h.node, h.anchor]

@[simp] theorem roundOf_cur (nd : SheafNode) : roundOf nd nd.cur = some false := if_pos rfl

/-- The packet stays held where it stands. -/
def markHeld (pid : Nat) (s : State) : State :=
  match s.pkt pid with
  | some y => s.setPkt pid (some { y with stage := .held })
  | none => s

theorem markHeld_taking (s : State) (pid : Nat) (k : Pkt) :
    markHeld pid (taking s pid k) = (taking s pid k).setPkt pid (some { k with stage := .held }) := by
  have hpkt : (taking s pid k).pkt pid = some { k with stage := .done } := State.pkt_setPkt_same ..
  simp only [markHeld, hpkt]

end

/-! ## The routines (R272) -/

section
variable {s : State} {d t : Nat} {w : List Byte}

/-- Where no check refuses the plan, its node stands with no round open and CUR_ROUND 0. -/
theorem sheafDefine_of_plan {slot : Nat} {l : List Byte} {p : SheafPlan} (hz : argsZero w 1 = true) (halign : arg w 0 % 64 = 0)
    (hhead : arg w 0 + 64 ≤ tileSize) (hend : arg w 0 + planBytes (s.readMem d t (arg w 0) 64) ≤ tileSize)
    (hl : l = s.readMem d t (arg w 0) (planBytes (s.readMem d t (arg w 0) 64))) (hp : p = sheafPlanOf l) (hslot : s.tileSlot d t = some slot)
    (hok : sheafPlanOk l p = true) (hdeadline : deadlineFits s d slot p.deadlineUs = true)
    (hmin : s.fld F.SH_GRANT_ID_BASE [d, slot] ≤ p.id) (hmax : p.id < s.fld F.SH_GRANT_ID_BASE [d, slot] + s.fld F.SH_GRANT_ID_COUNT [d, slot])
    (hnew : s.node d ((s.tileField d t).getD 0) p.id = none)
    (hnodes : (nodesOf s d ((s.tileField d t).getD 0)).length < s.fld F.SH_GRANT_NODES [d, slot])
    (hchunks : chunksHeld s d ((s.tileField d t).getD 0) p.wide + p.laneChunks ≤
      if p.wide then s.fld F.SH_GRANT_WIDE_CHUNKS [d, slot] else s.fld F.SH_GRANT_NARROW_CHUNKS [d, slot]) :
    sheafDefine d t w s = .ok ([], s.setNode d ((s.tileField d t).getD 0) p.id
      (some { field := (s.tileField d t).getD 0, tile := t, rank := (s.tileRank d t).getD 0, plan := p })) := by
  subst hp hl
  simp only [sheafDefine, hslot, hok, hdeadline, hz, hnew, halign, hhead.not_gt, hend.not_gt, hmin.not_gt, hmax.not_ge, hnodes.not_ge, hchunks.not_gt,
    ne_eq, not_true_eq_false, Bool.not_true, Bool.or_self, Bool.false_eq_true, Option.isSome_none, or_self, if_false]

section
variable {f : Nat} {nd : SheafNode} (h0 : arg w 0 < 2 ^ 16) (hz : argsZero w 1 = true) (hown : ownNode s d t (arg w 0) = some (f, nd))
include h0 hz hown

theorem sheafUndefine_of_own :
    sheafUndefine d t w s = if nd.openedAt.isSome then .error 0x03 else .ok ([], removeNode d f (arg w 0) s) := by
  simp only [sheafUndefine, h0.not_ge, hz, hown, Bool.not_true, Bool.false_eq_true, or_self, if_false]

theorem sheafQuery_of_own :
    sheafQuery d t w s = .ok ([nd.cur + 16 * b2n nd.openedAt.isSome + 256 * chunksOpen nd, nd.completed, nd.poisonedEver], s) := by
  simp only [sheafQuery, h0.not_ge, hz, hown, Bool.not_true, Bool.false_eq_true, or_self, if_false]

end
end

/-! ## Contributions (R279, R280) -/

/-- A round takes packet `pid` of input `i`, chunks `c0` to `c0 + cn - 1`: their received bits are set, and the packet is held. -/
def SheafRound.takeIn (r : SheafRound) (pid i c0 cn : Nat) : SheafRound :=
  { r with recv := ((List.range cn).map (fun j => c0 + j)).foldl (fun t c => tabSet 0 t [i, c] 1) r.recv, held := r.held ++ [⟨pid, i, c0, cn, 0⟩] }

section
variable {s : State} {pid id i : Nat} {k : Pkt} {nd : SheafNode} {x : SheafInput}

/-- Where no element of a list that has one passes a test, neither some nor all pass it. -/
theorem any_all_of_none {α : Type} {l : List α} {p : α → Bool} (hl : l ≠ []) (h : ∀ a ∈ l, p a = false) : l.any p = false ∧ l.all p = false := by
  obtain ⟨a, ha⟩ := List.exists_mem_of_ne_nil l hl
  exact ⟨by simpa using h, List.all_eq_false.mpr ⟨a, ha, by simp [h a ha]⟩⟩

section
variable {c0 cn : Nat} (hat : NamesNode s k k.p.sheafId nd) (hin : NamesInput nd.plan k i x) (hc : contribChunks nd.plan x k.p = some (c0, cn))
include hat hin hc

theorem contribReceive_of_other_round (hround : roundOf nd (k.p.elemBase / 2 ^ 28) = none) :
    contribReceive k pid s = nodeAck k (s.bump F.SH_STAT_STALE [k.die]) := by
  simp only [contribReceive, atNode_of_named hat, hin.index, hin.entry, hc, hround, Option.bind_some, Option.map_some]

/-- Chunks that the input has declared, that lie in the horizon and of which none has come are taken into the round. -/
theorem contribReceive_of_new {next : Bool} (hround : roundOf nd (k.p.elemBase / 2 ^ 28) = some next)
    (hcover : ∀ j < cn, x.var = true → covers nd.plan (nd.round next) i (c0 + j) = true) (hlow : ∀ j < cn, c0 + j < nd.low next + 256) (hpos : 0 < cn)
    (hnew : ∀ j < cn, tabGet 0 (nd.round next).recv [i, c0 + j] = 0 ∧ (next = false → (nd.chunkRec (c0 + j)).done = false)) :
    contribReceive k pid s = touchRound k.die k.p.h.field k.p.sheafId next (·.takeIn pid i c0 cn)
      (nodeAck k (markHeld pid (noteMark k.die 2048 k.p s))) := by
  have hdeclared : ¬(x.var = true ∧ (!((List.range cn).map (fun j => c0 + j)).all (fun c => covers nd.plan (nd.round next) i c)) = true) := by
    simpa using fun hvar j hj => hcover j hj hvar
  have hhorizon : ((List.range cn).map (fun j => c0 + j)).any (fun c => decide (nd.low next + 256 ≤ c)) = false := by
    simpa using hlow
  have hfree : ∀ c ∈ (List.range cn).map (fun j => c0 + j),
      (decide (tabGet 0 (nd.round next).recv [i, c] ≠ 0) || (!next && (nd.chunkRec c).done)) = false := by
    simp only [List.forall_mem_map, List.mem_range]
    intro j hj
    obtain ⟨hrecv, hdone⟩ := hnew j hj
    cases next with
    | false => simp [hrecv, hdone rfl]
    | true => simp [hrecv]
  obtain ⟨hsome, hall⟩ := any_all_of_none (by simpa using hpos.ne') hfree
  simp only [contribReceive, atNode_of_named hat, hin.index, hin.entry, hc, hround, Option.bind_some, Option.map_some, if_neg hdeclared,
    hhorizon, hall, hsome, Bool.false_eq_true, if_false]
  rfl

end

theorem chunkAccumulate_of_window {d f c : Nat} {bad : Bool} {h : HeldContrib} (hnode : s.node d f id = some nd)
    (hheld : nd.now_.held.find? (fun h => h.pid = pid) = some h) (hopen : nd.openedAt ≠ none) (hnext : h.first + h.taken = c) (hc : c ∈ nd.window) :
    chunkAccumulate d f id pid c bad s = settleNode d f id (takeChunk d f id h bad s) := by
  have hopened : nd.openedAt.isSome = true := Option.isSome_iff_ne_none.mpr hopen
  simp only [chunkAccumulate, hnode, hheld, hopened, hnext, hc, and_self, if_true]

/-! ## Covers and notices (R283, R289) -/

/-- The first ranges of a VARIABLE input are recorded. -/
theorem coverReceive_of_first {next : Bool} (hat : NamesNode s k (k.p.pay 2 2) nd) (hin : NamesInput nd.plan k i x) (hvar : x.var = true)
    (hround : roundOf nd (k.p.pay 1 1 % 16) = some next) (hfirst : tabGet [] (nd.round next).covers [i] = []) (hsome : coverRanges k.p ≠ [])
    (hapart : apart (coverRanges k.p) = true) (hrange : ∀ g ∈ coverRanges k.p, g.1 + g.2 ≤ nd.plan.chunks) (hopen : i ∉ (nd.round next).finals)
    (hfinal : (k.p.pay 1 1).testBit 4 = false) :
    coverReceive k s = touchRound k.die k.p.h.field (k.p.pay 2 2) next
      (fun r => { r with covers := tabSet [] r.covers [i] (coverRanges k.p) }) (nodeAck k s) := by
  have hnew : (coverRanges k.p).filter (fun g => decide (g ∉ ([] : List (Nat × Nat)))) = coverRanges k.p := by simp
  have hin' : (coverRanges k.p).any (fun g => decide (nd.plan.chunks < g.1 + g.2)) = false := by simpa using hrange
  simp only [coverReceive, atNode_of_named hat, hin.index, hin.entry, hvar, hround, hfirst, hnew, hfinal, hin', hapart, hopen, hsome, Option.bind_some,
    List.nil_append, if_true, false_and, if_false, decide_false, Bool.not_true, Bool.or_self, Bool.false_eq_true]

theorem sheafCountPoison_of_tile (h : Handed s pid k 2) (ht : k.p.h.typ = 0x07) (hkind : k.p.pay 0 1 = 2) :
    sheafCountPoison pid s = noticeAtTile k (taking s pid k) := by
  have hreceive := receive_of_handed h (types := [0x07]) (by simp [ht]) noticeAtTile
  obtain ⟨hk, -, hout, -⟩ := h
  simp only [sheafCountPoison, hk, hkind, hout, hreceive, ne_eq, not_true_eq_false, if_false, if_true]

/-- A notice of the tile's role epoch gives its slot a poisoned credit for every one it stands for. -/
theorem noticeAtTile_of_slot {n : Nat} (ho : s.ownsTile2 k.die k.dstTile k.p.h.field = true) (he : k.p.h.roleEpoch = s.roleEpoch k.die k.dstTile)
    (hr : refSlot s k.die k.dstTile (k.p.pay 16 4) = some n) (hn : n < 1024) (ha : s.aged k.p.h = false) :
    noticeAtTile k s = sendAck k.die k.dstTile k.p (.tile k.die k.dstTile)
      (s.forAll (List.range (k.p.pay 20 2)) (fun _ v => creditSlot k.die k.dstTile n true v)) := by
  simp [noticeAtTile, ownedThen_of_owned ho, he, countRef_of_refSlot hr, hr, ha, creditRef, hn]

/-! ## Results and the deadline (R286, R290) -/

/-- An output whose code is none of the MX codes has no MX format. -/
theorem outFmt_ne_mx {p : SheafPlan} (h : p.outMx = false) (m : FloatFmt) : elemOf p.outFmt ≠ some (.mx m) := by
  have hcode : ¬(0x10 ≤ p.outFmt ∧ p.outFmt ≤ 0x14) := of_decide_eq_false h
  unfold elemOf
  split <;> simp_all

/-- The block of elements from `e` is sent on to every target that it is a block of. -/
theorem resultReceive_of_parent (hat : NamesNode s k k.p.sheafId nd) (hroot : nd.plan.root = false) (hparent : k.p.h.srcRank = nd.plan.parent)
    (hround : k.p.elemBase / 2 ^ 28 = nd.cur) (hmx : nd.plan.outMx = false) (hwhole : mxWhole k.p = true) :
    resultReceive k s =
      (let u := openRound k.die k.p.h.field k.p.sheafId false (nodeAck k s)
       settleNode k.die k.p.h.field k.p.sheafId (u.forAll ((List.range nd.plan.targets.length).zip nd.plan.targets) (fun x v =>
         if k.p.elemBase % 2 ^ 28 ∈ blocksOf nd.plan x.2 then
           sendOnce k.die k.p.h.field k.p.sheafId x.1 (k.p.elemBase % 2 ^ 28) x.2
             (some (k.p.data.take (blockLen nd.plan x.2 (k.p.elemBase % 2 ^ 28) * nd.plan.outSize))) v
         else v))) := by
  simp only [resultReceive, atNode_of_named hat, hroot, hparent, hround, hwhole, ne_eq, not_true_eq_false, Bool.false_eq_true, Bool.not_true, or_self,
    if_false]
  split
  · next m hm => exact absurd hm (outFmt_ne_mx hmx m)
  · rfl

theorem sheafDeadline_of_due {d f m : Nat} (hnode : s.node d f id = some nd) (hopen : nd.openedAt = some m) (hdue : m + usUnits nd.plan.deadlineUs ≤ s.now) :
    sheafDeadline d f id s =
      settleNode d f id (closePoisoned d f id ((s.bump F.SH_STAT_B_DEADLINES [d]).log 0x0E 0x02 d (engineDetail id nd.rank) f)) := by
  simp only [sheafDeadline, hnode, hopen, if_pos hdue]

end

/-! ## The commands -/

section
variable (s : State)

theorem exec_sheafCountPoison (pid : Nat) : exec (.sheafCountPoison pid) s = .next (finish s (sheafCountPoison pid s)) :=
  run_wellFormed (i := .sheafCountPoison pid) s _ rfl

variable {d : Nat} (hd : d < 8)
include hd

theorem exec_chunkAccumulate (f id pid c : Nat) (bad : Bool) :
    exec (.chunkAccumulate d f id pid c bad) s = .next (finish s (chunkAccumulate d f id pid c bad s)) :=
  run_wellFormed (i := .chunkAccumulate d f id pid c bad) s _ (decide_eq_true hd)
theorem exec_sheafDeadline (f id : Nat) : exec (.sheafDeadline d f id) s = .next (finish s (sheafDeadline d f id s)) :=
  run_wellFormed (i := .sheafDeadline d f id) s _ (decide_eq_true hd)

variable {t : Nat} (ht : t < 2048)
include ht

theorem exec_sheafDefine : exec (.sheafDefine d t) s = .next (finish s (routine d t 0x0010 0 (sheafDefine d t) s)) :=
  run_wellFormed (i := .sheafDefine d t) s _ (decide_eq_true ⟨hd, ht⟩)
theorem exec_sheafUndefine : exec (.sheafUndefine d t) s = .next (finish s (routine d t 0x0011 0 (sheafUndefine d t) s)) :=
  run_wellFormed (i := .sheafUndefine d t) s _ (decide_eq_true ⟨hd, ht⟩)
theorem exec_sheafQuery : exec (.sheafQuery d t) s = .next (finish s (routine d t 0x0012 3 (sheafQuery d t) s)) :=
  run_wellFormed (i := .sheafQuery d t) s _ (decide_eq_true ⟨hd, ht⟩)

end

section
variable {s : State} {pid : Nat} {k : Pkt} (h : Handed s pid k 3)
include h

theorem exec_sheafContribReceive_of_handed (ht : k.p.h.typ = 0x82) :
    exec (.sheafContribReceive pid) s = .next (finish s (contribReceive k pid (taking s pid k))) :=
  (run_wellFormed (i := .sheafContribReceive pid) s _ rfl).trans (by rw [receive_of_handed h (by simp [ht])])

theorem exec_sheafCountCover_of_handed (ht : k.p.h.typ = 0x07) (hkind : k.p.pay 0 1 = 1) :
    exec (.sheafCountCover pid) s = .next (finish s (coverReceive k (taking s pid k))) :=
  (run_wellFormed (i := .sheafCountCover pid) s _ rfl).trans (by rw [receive_of_handed h (by simp [ht]), if_pos hkind])

theorem exec_sheafResultReceive_of_handed (ht : k.p.h.typ = 0x83) :
    exec (.sheafResultReceive pid) s = .next (finish s (resultReceive k (taking s pid k))) :=
  (run_wellFormed (i := .sheafResultReceive pid) s _ rfl).trans (by rw [receive_of_handed h (by simp [ht])])

end

/-- Settles O44: a routine answers what its plan or its node gives, and a packet acts on the node and the input that it names. -/
theorem sheafCommandsComplete : Obligations.SheafCommandsComplete := by
  refine ⟨?define, ?undefine, ?query, ?contrib, ?stale, ?cover, ?poison, ?result, ?accumulate, ?deadline⟩
  case define =>
    intro s d t n slot w hd ht hin hres hz halign hhead hend l p f hslot hok hdeadline hmin hmax hnew hnodes hchunks
    rw [exec_sheafDefine s hd ht, routine_of_ok hin hres (sheafDefine_of_plan hz halign hhead hend rfl rfl hslot hok hdeadline hmin hmax hnew hnodes hchunks)]
  case undefine =>
    intro s d t n f w nd hd ht hin hres h0 hz hown
    have hf := sheafUndefine_of_own h0 hz hown
    rw [exec_sheafUndefine s hd ht]
    split
    · next hopen => rw [routine_of_error hin hres (hf.trans (if_pos hopen))]
    · next hclosed => rw [routine_of_ok hin hres (hf.trans (if_neg hclosed))]
  case query =>
    intro s d t n f w nd hd ht hin hres h0 hz hown
    rw [exec_sheafQuery s hd ht, routine_of_ok hin hres (sheafQuery_of_own h0 hz hown)]
  case contrib =>
    intro s pid i c0 cn k nd x next h ht ho hf hnode htile hi hx hc hround hcover hlow hpos hnew
    have hat : NamesNode s k k.p.sheafId nd := ⟨ho, hf, hnode, htile⟩
    rw [exec_sheafContribReceive_of_handed h ht, contribReceive_of_new hat.taking ⟨hi, hx⟩ hc hround hcover hlow hpos hnew]
    rfl
  case stale =>
    intro s pid i c0 cn k nd x h ht ho hf hnode htile hi hx hc hround
    have hat : NamesNode s k k.p.sheafId nd := ⟨ho, hf, hnode, htile⟩
    rw [exec_sheafContribReceive_of_handed h ht, contribReceive_of_other_round hat.taking ⟨hi, hx⟩ hc hround]
  case cover =>
    intro s pid i k nd x next h ht hkind ho hf hnode htile hi hx hvar hround hfirst hsome hapart hrange hopen hfinal
    have hat : NamesNode s k (k.p.pay 2 2) nd := ⟨ho, hf, hnode, htile⟩
    rw [exec_sheafCountCover_of_handed h ht hkind,
      coverReceive_of_first hat.taking ⟨hi, hx⟩ hvar hround hfirst hsome hapart hrange hopen hfinal]
  case poison =>
    intro s pid n k h ht hkind ho he hr hn ha
    rw [exec_sheafCountPoison, sheafCountPoison_of_tile h ht hkind, noticeAtTile_of_slot (s := taking s pid k) ho he hr hn ha]
  case result =>
    intro s pid k nd h ht ho hf hnode htile hroot hparent hround hmx hwhole
    have hat : NamesNode s k k.p.sheafId nd := ⟨ho, hf, hnode, htile⟩
    rw [exec_sheafResultReceive_of_handed h ht, resultReceive_of_parent hat.taking hroot hparent hround hmx hwhole]
  case accumulate =>
    intro s d f id pid c bad nd h hd hnode hheld hopen hnext hc
    rw [exec_chunkAccumulate s hd, chunkAccumulate_of_window hnode hheld hopen hnext hc]
  case deadline =>
    intro s d f id m nd hd hnode hopen hdue
    rw [exec_sheafDeadline s hd, sheafDeadline_of_due hnode hopen (by rwa [usUnits, Nat.mul_comm])]

end Sys2Proof.Machine
end

section
/-! SUPPORT. The small path of a Sheaf (R292): contributions and pieces at a SMALL node, a result passed down, and a result at a window. -/

namespace Sys2Proof.Machine

/-! ## At a SMALL node -/

section
variable {s : State} {pid i : Nat} {k : Pkt} {nd : SheafNode} {x : SheafInput} {fault : Bool}
  (hat : NamesNode s k (k.p.pay 2 2) nd) (hsmall : nd.plan.small = true)
include hat hsmall

theorem atSmall_of_round {next : Bool} (hround : roundOf nd (k.p.pay 1 1 % 16) = some next) (f : SheafNode → Bool → State → State) :
    atSmall k f s = f nd next s := by
  simp [atSmall, atNode_of_named hat, hsmall, hround]

theorem atSmall_of_cur (hcur : k.p.pay 1 1 % 16 = nd.cur) (f : SheafNode → Bool → State → State) : atSmall k f s = f nd false s :=
  atSmall_of_round hat hsmall (by rw [hcur, roundOf_cur]) f

theorem atSmall_of_other_round (hround : roundOf nd (k.p.pay 1 1 % 16) = none) (f : SheafNode → Bool → State → State) :
    atSmall k f s = s.bump F.SH_STAT_STALE [k.die] := by
  simp [atSmall, atNode_of_named hat, hsmall, hround]

variable (hcur : k.p.pay 1 1 % 16 = nd.cur)
include hcur

/-- The first contribution of a LEAF is held, with the fault of adding it. -/
theorem smallContrib_of_leaf (hin : NamesInput nd.plan k i x) (hleaf : x.child = false) (hnew : tabGet 0 nd.now_.recv [i, 0] = 0) :
    smallContrib k pid fault s = touchRound k.die k.p.h.field (k.p.pay 2 2) false
      (fun r => { r.faulty i fault with recv := tabSet 0 r.recv [i, 0] 1, held := r.held ++ [⟨pid, i, 0, 1, 0⟩] }) (markHeld pid s) := by
  have hinput : (inputOf nd.plan k.p.h.srcRank).filter (fun i => ((nd.plan.inputs[i]?).map (fun x => !x.child)).getD false) = some i := by
    simp [hin.index, hin.entry, hleaf]
  have hfree : tabGet 0 (nd.round false).recv [i, 0] = 0 := hnew
  simp only [smallContrib, atSmall_of_cur hat hsmall hcur, hinput, hfree, ne_eq, not_true_eq_false, if_false]
  rfl

/-- The piece stands in the round, and the input has been received once its record is whole. -/
theorem smallPiece_of_child (hin : NamesInput nd.plan k i x) (hchild : x.child = true)
    (hparts : k.p.pay 5 1 = (16 + 8 * nd.plan.words.1 * nd.plan.n + 23) / 24) (hpart : k.p.pay 4 1 < k.p.pay 5 1)
    (hnew : tabGet none nd.now_.pieces [i, k.p.pay 4 1] = none) :
    smallPiece k fault s = touchRound k.die k.p.h.field (k.p.pay 2 2) false
      (fun r =>
        let r := { r.faulty i fault with pieces := tabSet none r.pieces [i, k.p.pay 4 1] (some (k.p.pay 5 1, k.p.body.drop 8)) }
        if (wholeRecord nd.plan r i).isSome then { r with recv := tabSet 0 r.recv [i, 0] 1 } else r) s := by
  have hinput : (inputOf nd.plan k.p.h.srcRank).filter (fun i => ((nd.plan.inputs[i]?).map (·.child)).getD false) = some i := by
    simp [hin.index, hin.entry, hchild]
  have hfree : tabGet none (nd.round false).pieces [i, k.p.pay 4 1] = none := hnew
  simp only [smallPiece, atSmall_of_cur hat hsmall hcur, hinput, ← hparts, hpart.not_ge, hfree, ne_eq, not_true_eq_false, or_self, if_false]

/-- The root's result goes on to every block of every target, as a notice where it is poisoned. -/
theorem smallDown_of_parent (hroot : nd.plan.root = false) (hparent : k.p.h.srcRank = nd.plan.parent) :
    smallDown k s =
      (let u := openRound k.die k.p.h.field (k.p.pay 2 2) false s
       settleNode k.die k.p.h.field (k.p.pay 2 2) (u.forAll ((List.range nd.plan.targets.length).zip nd.plan.targets) (fun x v =>
         v.forAll (blocksOf nd.plan x.2) (fun e v => sendOnce k.die k.p.h.field (k.p.pay 2 2) x.1 e x.2
           (if (k.p.pay 1 1).testBit 4 then none else some (k.p.body.drop 16)) v)))) := by
  simp only [smallDown, atSmall_of_cur hat hsmall hcur, hroot, hparent, ne_eq, not_true_eq_false, Bool.false_eq_true, or_self, if_false]

end

/-! ## At a window -/

/-- A result in its window writes its bytes and credits the reference; a poisoned one only gives a poisoned credit. -/
theorem smallResult_of_window {s : State} {k : Pkt} {a n : Nat} (ho : s.ownsTile2 k.die k.dstTile k.p.h.field = true)
    (he : k.p.h.roleEpoch = s.roleEpoch k.die k.dstTile) (hblock : oneBlock (k.p.pay 5 5) 16 = true)
    (hw : windowAt s k.die k.dstTile (k.p.pay 4 1) (k.p.pay 5 5) (smallLen s k.p.h.field (k.p.pay 2 2)) true = some a)
    (hr : refSlot s k.die k.dstTile (k.p.pay 10 4) = some n) (ha : s.aged k.p.h = false) :
    smallResult k s =
      if (k.p.pay 1 1).testBit 4 then creditRef k.die k.dstTile n true s
      else creditRef k.die k.dstTile n false (commit k.die k.dstTile a ((k.p.body.drop 16).take (smallLen s k.p.h.field (k.p.pay 2 2))) s) := by
  simp [smallResult, ownedThen_of_owned ho, he, countRef_of_refSlot hr, hblock, hw, hr, ha]

/-! ## The commands -/

section
variable {s : State} {pid : Nat} {k : Pkt} {fault : Bool} (h : Handed s pid k 3) (ht : k.p.h.typ = 0x06)
include h ht

theorem exec_smallContrib_of_handed (hkind : k.p.pay 0 1 = 1) :
    exec (.smallContrib pid fault) s = .next (finish s (smallContrib k pid fault (taking s pid k))) :=
  (run_wellFormed (i := .smallContrib pid fault) s _ rfl).trans (by rw [receive_of_handed h (by simp [ht]), if_pos hkind])

theorem exec_smallPiece_of_handed (hkind : k.p.pay 0 1 = 2) :
    exec (.smallPiece pid fault) s = .next (finish s (smallPiece k fault (taking s pid k))) :=
  (run_wellFormed (i := .smallPiece pid fault) s _ rfl).trans (by rw [receive_of_handed h (by simp [ht]), if_pos hkind])

theorem exec_smallDown_of_handed (hkind : k.p.pay 0 1 = 4) :
    exec (.smallDown pid) s = .next (finish s (smallDown k (taking s pid k))) :=
  (run_wellFormed (i := .smallDown pid) s _ rfl).trans (by rw [receive_of_handed h (by simp [ht]), if_pos hkind])

end

theorem exec_smallResult_of_handed {s : State} {pid : Nat} {k : Pkt} (h : Handed s pid k 2) (ht : k.p.h.typ = 0x06) :
    exec (.smallResult pid) s = .next (finish s (smallResult k (taking s pid k))) :=
  (run_wellFormed (i := .smallResult pid) s _ rfl).trans (by rw [receive_of_handed h (by simp [ht])])

/-- Settles O45: in its open round a SMALL node takes what each input gives once, and a result ends at the targets. -/
theorem smallPathComplete : Obligations.SmallPathComplete := by
  refine ⟨?leaf, ?piece, ?stale, ?down, ?result⟩
  case leaf =>
    intro s pid i k nd x fault h ht hkind ho hf hnode htile hsmall hcur hi hx hleaf hnew
    have hat : NamesNode s k (k.p.pay 2 2) nd := ⟨ho, hf, hnode, htile⟩
    rw [exec_smallContrib_of_handed h ht hkind, smallContrib_of_leaf hat.taking hsmall hcur ⟨hi, hx⟩ hleaf hnew, markHeld_taking]
  case piece =>
    intro s pid i k nd x fault h ht hkind ho hf hnode htile hsmall hcur hi hx hchild hparts hpart hnew
    have hat : NamesNode s k (k.p.pay 2 2) nd := ⟨ho, hf, hnode, htile⟩
    rw [exec_smallPiece_of_handed h ht hkind, smallPiece_of_child hat.taking hsmall hcur ⟨hi, hx⟩ hchild hparts hpart hnew]
  case stale =>
    intro s pid k nd fault h ht hkind ho hf hnode htile hsmall hround
    have hat : NamesNode s k (k.p.pay 2 2) nd := ⟨ho, hf, hnode, htile⟩
    rw [exec_smallContrib_of_handed h ht hkind, smallContrib, atSmall_of_other_round hat.taking hsmall hround]
  case down =>
    intro s pid k nd h ht hkind ho hf hnode htile hsmall hcur hroot hparent
    have hat : NamesNode s k (k.p.pay 2 2) nd := ⟨ho, hf, hnode, htile⟩
    rw [exec_smallDown_of_handed h ht hkind, smallDown_of_parent hat.taking hsmall hcur hroot hparent]
  case result =>
    intro s pid a n k h ht ho he hblock hw hr ha
    rw [exec_smallResult_of_handed h ht, smallResult_of_window (s := taking s pid k) ho he hblock hw hr ha]
    rfl

end Sys2Proof.Machine
end

section
/-! SUPPORT. The orders of R306 and R307, and what a Winnower round yields (R307): neither depends on the order in which the records came. -/

namespace Sys2Proof.Machine

/-! ## Sorting -/

/-- Between lists of one length, `lexLt` is the library's lexicographic order. -/
theorem lexLt_iff_lt {l m : List Nat} (h : l.length = m.length) : lexLt l m = true ↔ l < m := by
  induction l generalizing m with
  | nil =>
    obtain rfl := List.length_eq_zero_iff.mp h.symm
    simp [lexLt]
  | cons a l ih =>
    obtain ⟨b, m, rfl⟩ := List.exists_cons_of_length_eq_add_one h.symm
    simp [lexLt, List.cons_lt_cons_iff, ih (Nat.succ.inj h)]

section
variable {α β : Type} [LinearOrder β] {lt : α → α → Bool} {key : α → β} (hlt : ∀ a b, lt a b = true ↔ key a < key b) {x y : α} {l m : List α}
include hlt

theorem insertBy_comm_of_lt (h : key x < key y) (l : List α) : insertBy lt y (insertBy lt x l) = insertBy lt x (insertBy lt y l) := by
  have hxy : lt x y = true := (hlt x y).mpr h
  have hyx : lt y x = false := Bool.eq_false_iff.mpr fun hc => h.asymm ((hlt y x).mp hc)
  induction l with
  | nil => simp [insertBy, hxy, hyx]
  | cons z l ih =>
    by_cases hyz : lt y z = true
    · have hxz : lt x z = true := (hlt x z).mpr (h.trans ((hlt y z).mp hyz))
      simp [insertBy, hxy, hyx, hxz, hyz]
    · by_cases hxz : lt x z = true
      · simp [insertBy, hyx, hxz, hyz]
      · simp [insertBy, hxz, hyz, ih]

theorem insertBy_comm (h : key x ≠ key y) (l : List α) : insertBy lt y (insertBy lt x l) = insertBy lt x (insertBy lt y l) :=
  h.lt_or_gt.elim (fun hlow => insertBy_comm_of_lt hlt hlow l) (fun hhigh => (insertBy_comm_of_lt hlt hhigh l).symm)

/-- Elements with a key each have one order. -/
theorem sortBy_eq_of_perm (hperm : l.Perm m) (hkey : ∀ a ∈ l, ∀ b ∈ l, key a = key b → a = b) : sortBy lt l = sortBy lt m :=
  hperm.foldl_eq' (fun x hx y hy acc => by
    by_cases h : key x = key y
    · rw [hkey x hx y hy h]
    · exact insertBy_comm hlt h acc) []

end

/-! ## Records in order (R306, R307) -/

/-- No two of the records share source rank and element index. -/
def OnePerPlace (l : List WinnowRec) : Prop := ∀ a ∈ l, ∀ b ∈ l, a.rank = b.rank → a.idx = b.idx → a = b

section
variable {l m : List WinnowRec}

theorem OnePerPlace.filter (h : OnePerPlace l) (p : WinnowRec → Bool) : OnePerPlace (l.filter p) :=
  fun a ha b hb => h a (List.mem_filter.mp ha).1 b (List.mem_filter.mp hb).1

theorem onePerPlace_stream (hkeys : (l.map (fun r => (r.stream, r.rank, r.idx))).Nodup) (n : Nat) :
    OnePerPlace (l.filter (fun r => r.stream = n)) := by
  intro a ha b hb hrank hidx
  simp only [List.mem_filter, decide_eq_true_eq] at ha hb
  exact List.inj_on_of_nodup_map hkeys ha.1 hb.1 (by simp [ha.2, hb.2, hrank, hidx])

theorem inOrderOf_eq_of_perm (hperm : l.Perm m) (h : OnePerPlace l) (fmt : Nat) (desc : Bool) : inOrderOf fmt desc l = inOrderOf fmt desc m :=
  sortBy_eq_of_perm (key := WinnowRec.key fmt desc) (fun a b => lexLt_iff_lt (l := a.key fmt desc) (m := b.key fmt desc) rfl) hperm (fun a ha b hb he => by
    obtain ⟨-, hrank, hidx⟩ : _ ∧ a.rank = b.rank ∧ a.idx = b.idx := by simpa [WinnowRec.key] using he
    exact h a ha b hb hrank hidx)

theorem inInputOrder_eq_of_perm (hperm : l.Perm m) (h : OnePerPlace l) : inInputOrder l = inInputOrder m :=
  sortBy_eq_of_perm (key := fun r => [r.rank, r.idx]) (fun a b => lexLt_iff_lt (l := [a.rank, a.idx]) (m := [b.rank, b.idx]) rfl) hperm (fun a ha b hb he => by
    obtain ⟨hrank, hidx⟩ : a.rank = b.rank ∧ a.idx = b.idx := by simpa using he
    exact h a ha b hb hrank hidx)

/-! ## What a round yields (R307) -/

/-- Each stream has at most one record for a place, so each value has the same mate, or none, in both orders. -/
theorem scatter_eq_of_perm (hperm : l.Perm m) (h : ∀ n, OnePerPlace (l.filter (fun r => r.stream = n))) (p : WinnowPlan) (table : List Nat) :
    scatter p l table = scatter p m table := by
  have hvals := inInputOrder_eq_of_perm (hperm.filter _) (h 0)
  have hidxs : (l.filter (fun r => r.stream = 1)).Perm (m.filter (fun r => r.stream = 1)) := hperm.filter _
  have hmate (r : WinnowRec) : (l.filter (fun r => r.stream = 1)).find? (fun i => i.rank = r.rank && i.idx = r.idx) =
      (m.filter (fun r => r.stream = 1)).find? (fun i => i.rank = r.rank && i.idx = r.idx) := by
    refine List.find?_eq_find?_of_perm hidxs fun a ha b hb => ?_
    simp only [Bool.and_eq_true, decide_eq_true_eq, Set.mem_ofPred_eq] at ha hb
    exact h 1 a ha.1 b hb.1 (ha.2.1.trans hb.2.1.symm) (ha.2.2.trans hb.2.2.symm)
  simp only [scatter, hvals, hmate, (hidxs.filter _).length_eq]

end

/-- Settles O48: records with a place each have one order, by key as by place, and a SCATTER pairs those of a stream each. -/
theorem winnowerIgnoresTheOrder : Obligations.WinnowerIgnoresTheOrder := by
  intro p l m table hperm hkeys hstream
  have hstreams := onePerPlace_stream hkeys
  have hplaces (hop : p.op ≠ 5) : OnePerPlace l := by
    have hall : l.filter (fun r => r.stream = 0) = l := List.filter_eq_self.mpr fun r hr => decide_eq_true (hstream hop r hr)
    exact hall ▸ hstreams 0
  unfold winnowResult
  split
  · next hselect => rw [inOrderOf_eq_of_perm hperm (hplaces (by omega))]
  · next hfilter => rw [inInputOrder_eq_of_perm (hperm.filter _) ((hplaces (by omega)).filter _)]
  · next hgather => rw [inInputOrder_eq_of_perm hperm (hplaces (by omega))]
  · next hscatter => rw [scatter_eq_of_perm hperm hstreams]
  · next hother => rw [inOrderOf_eq_of_perm hperm (hplaces hother)]

end Sys2Proof.Machine
end

section
/-! SUPPORT. The Winnower commands (R300 to R309): the routines, the job and the input that a contribution names, what becomes of its blocks, and how
a round closes. -/

namespace Sys2Proof.Machine

/-! ## The routines (R302) -/

section
variable {s : State} {d t : Nat} {w : List Byte}

/-- Where no check refuses the plan, its job stands with no round open and CUR_ROUND 0. -/
theorem winnowDefine_of_plan {slot len : Nat} {l : List Byte} {p : WinnowPlan} (hz : argsZero w 1 = true) (halign : arg w 0 % 64 = 0)
    (hhead : arg w 0 + 64 ≤ tileSize)
    (hlen : len = 64 + 16 * ((s.readMem d t (arg w 0) 64).getD 6 0).toNat + 32 * ((s.readMem d t (arg w 0) 64).getD 7 0).toNat)
    (hend : arg w 0 + len ≤ tileSize) (hl : l = s.readMem d t (arg w 0) len) (hp : p = winnowPlanOf l) (hslot : s.tileSlot d t = some slot)
    (hok : winnowPlanOk l p = true) (hdeadline : engineFits s d slot p.deadlineUs = true) (hnew : s.job ((s.tileField d t).getD 0) p.job = none)
    (hjobs : jobsUsed s d ((s.tileField d t).getD 0) < s.fld F.WN_GRANT_JOBS [d, slot]) :
    winnowDefine d t w s = .ok ([], s.setJob ((s.tileField d t).getD 0) p.job
      (some { die := d, tile := t, rank := (s.tileRank d t).getD 0, plan := p })) := by
  subst hp hl hlen
  simp only [winnowDefine, hslot, hok, hdeadline, hz, hnew, halign, hhead.not_gt, hend.not_gt, hjobs.not_ge, ne_eq, not_true_eq_false, Bool.not_true,
    Bool.or_self, Bool.false_eq_true, Option.isSome_none, or_self, if_false]

variable {f : Nat} {x : WinnowJob} (h0 : arg w 0 < 256) (hz : argsZero w 1 = true) (hown : ownJob s d t (arg w 0) = some (f, x))
include h0 hz hown

theorem winnowUndefine_of_own :
    winnowUndefine d t w s = if x.openedAt.isSome then .error 0x03 else .ok ([], removeJob f (arg w 0) s) := by
  simp only [winnowUndefine, h0.not_ge, hz, hown, Bool.not_true, Bool.false_eq_true, or_self, if_false]

theorem winnowQuery_of_own :
    winnowQuery d t w s = .ok ([x.cur + 16 * b2n x.openedAt.isSome + 32 * b2n x.now_.poisoned, x.recs.length], s) := by
  simp only [winnowQuery, h0.not_ge, hz, hown, Bool.not_true, Bool.false_eq_true, or_self, if_false]

end

/-! ## The job and the input that a contribution names (R298, R303) -/

/-- A packet names job `x`: the Field owns the tile and is not fenced, and the job is anchored on that tile. -/
structure NamesJob (s : State) (k : Pkt) (x : WinnowJob) : Prop where
  owned : s.ownsTile2 k.die k.dstTile k.p.h.field = true
  unfenced : s.fieldFenced k.p.h.field = false
  job : s.job k.p.h.field k.p.window = some x
  die : x.die = k.die
  anchor : x.tile = k.dstTile

/-- Blocks of 64 elements that a contribution carries. -/
def winChunks (q : Packet) : List Nat := (List.range ((winNelem q + 63) / 64)).map (fun b => q.elemBase % 2 ^ 28 / 64 + b)

/-- The round a contribution is for. -/
def WinnowJob.round (x : WinnowJob) (next : Bool) : WinnowRound := if next then x.next_ else x.now_

/-- The number of that round. -/
def WinnowJob.roundNo (x : WinnowJob) (next : Bool) : Nat := if next then (x.cur + 1) % 16 else x.cur

/-- A round records what contribution `q` of input `i` brings: its blocks, and its end where it is the last. -/
def WinnowRound.record (r : WinnowRound) (i : Nat) (q : Packet) : WinnowRound :=
  { r with recv := (winChunks q).foldl (fun t b => tabSet 0 t [i, b] 1) r.recv,
           ends := if winLast q then tabSet 0 r.ends [i] (q.elemBase % 2 ^ 28 + winNelem q + 1) else r.ends }

theorem winChunks_ne_nil {q : Packet} (hpos : 0 < winNelem q) : winChunks q ≠ [] := by
  have hsome : (winNelem q + 63) / 64 ≠ 0 := by omega
  simpa [winChunks] using hsome

/-- No round follows itself. -/
theorem roundNo_ne_cur (x : WinnowJob) (next : Bool) : decide (x.roundNo next ≠ x.cur) = next := by
  cases next
  · simp [WinnowJob.roundNo]
  · have hne : (x.cur + 1) % 16 ≠ x.cur := by omega
    simp [WinnowJob.roundNo, hne]

theorem roundNo_near (x : WinnowJob) (next : Bool) : ¬(x.roundNo next ≠ x.cur ∧ x.roundNo next ≠ (x.cur + 1) % 16) := by
  cases next <;> simp [WinnowJob.roundNo]

theorem NamesJob.taking {s : State} {pid : Nat} {k : Pkt} {x : WinnowJob} (h : NamesJob s k x) : NamesJob (taking s pid k) k x :=
  ⟨h.owned, h.unfenced, h.job, h.die, h.anchor⟩

section
variable {s : State} {pid i : Nat} {k : Pkt} {x : WinnowJob} (hat : NamesJob s k x)
include hat

theorem atJob_of_named (f : WinnowJob → State → State) : atJob k k.p.window f s = f x s := by
  simp [atJob, ownedThen_of_owned hat.owned, hat.unfenced, hat.job, hat.die, hat.anchor]

variable (hin : winInput x.plan k.p = some i)
include hin

/-! ## Contribution outcomes (R304) -/

theorem winnowIn_of_other_round (hcur : k.p.elemBase / 2 ^ 28 ≠ x.cur) (hnext : k.p.elemBase / 2 ^ 28 ≠ (x.cur + 1) % 16) :
    winnowIn k pid s = sendAck k.die 2048 k.p (.engine k.die) (s.bump F.WN_STAT_STALE [k.die]) := by
  simp only [winnowIn, atJob_of_named hat, hin, if_pos (And.intro hcur hnext)]

variable {next : Bool} (hround : k.p.elemBase / 2 ^ 28 = x.roundNo next) (hopen : tabGet 0 (x.round next).ends [i] = 0) (hpos : 0 < winNelem k.p)
include hround hopen hpos

theorem winnowIn_of_received (hall : ∀ b ∈ winChunks k.p, tabGet 0 (x.round next).recv [i, b] = 1) :
    winnowIn k pid s = sendAck k.die 2048 k.p (.engine k.die) (s.bump F.WN_STAT_DUPLICATE [k.die]) := by
  have hgot : (winChunks k.p).all (fun b => tabGet 0 (x.round next).recv [i, b] = 1) = true := by simpa using hall
  have hsome := winChunks_ne_nil hpos
  unfold winChunks at hgot hsome
  unfold WinnowJob.round at hgot hopen
  simp only [winnowIn, atJob_of_named hat, hin, hround, roundNo_near, roundNo_ne_cur, hopen, hgot, hsome, ne_eq, not_true_eq_false, false_and, if_false,
    if_true, decide_false, Bool.false_and, Bool.not_false, and_self]

/-- Blocks of which none has come are recorded: those of the open round are taken into it, and those of the next are held. -/
theorem winnowIn_of_new (hnone : ∀ b ∈ winChunks k.p, tabGet 0 (x.round next).recv [i, b] ≠ 1) :
    winnowIn k pid s =
      (let u := sendAck k.die 2048 k.p (.engine k.die) (noteMark k.die 2048 k.p s)
       if next then
         markHeld pid (modJob k.p.h.field k.p.window (fun y => { y with next_ := { x.next_.record i k.p with held := x.next_.held ++ [pid] } }) u)
       else winnowTake k.p.h.field k.p.window pid (openJob k.p.h.field k.p.window
         (modJob k.p.h.field k.p.window (fun y => { y with now_ := x.now_.record i k.p }) u))) := by
  obtain ⟨hany, hall⟩ := any_all_of_none (winChunks_ne_nil hpos) (p := fun b => tabGet 0 (x.round next).recv [i, b] = 1) (by simpa using hnone)
  unfold winChunks WinnowJob.round at hany hall
  unfold WinnowJob.round at hopen
  simp only [winnowIn, atJob_of_named hat, hin, hround, roundNo_near, roundNo_ne_cur, hopen, hany, hall, ne_eq, not_true_eq_false, false_and, if_false,
    Bool.false_eq_true]
  cases next <;> rfl

end

/-! ## How a round closes (R305, R308, R309) -/

section
variable {s : State} {f j : Nat} {x : WinnowJob} (hjob : s.job f j = some x)
include hjob

section
variable (hopen : x.openedAt ≠ none) (hwhole : inputComplete x = true) (hf : s.fieldFenced f = false)
include hopen hwhole hf

theorem winnowProcess_of_fault : winnowProcess f j true s = poisonJob f j true s := by
  simp [winnowProcess, hjob, hopen, hwhole, hf]

/-- An intact round sends every block of every target, after a SCATTER's table is written, and the next round follows. -/
theorem winnowProcess_of_intact (hgood : x.now_.poisoned = false) (hwork : workIntact s x = true) (hmerge : x.plan.op = 6 → mergeOrdered x.plan x.recs = true) :
    winnowProcess f j false s =
      (let o := (winnowResult x.plan x.recs (tableElems x.plan x.table)).tidy x.plan
       advanceJob f j
        ((if x.plan.op = 5 then s.writeMem x.die x.tile x.plan.tableOff (o.vals.flatMap (leBytes (unitBytes x.plan.tableFmt 1))) else s).forAll
          x.plan.targets (fun t u => u.forAll (winBlocks x.plan t) (fun b v => sendOut f x t o b.1 b.2 v)))) := by
  have hordered : ¬(x.plan.op = 6 ∧ (!mergeOrdered x.plan x.recs) = true) := fun ⟨hop, hbad⟩ => by simp [hmerge hop] at hbad
  have hopened : x.openedAt.isNone = false := by simpa [Option.isSome_iff_ne_none] using hopen
  simp only [winnowProcess, hjob, hopened, hwhole, hf, hgood, hwork, hordered, Bool.true_or, Bool.false_eq_true, Bool.not_true, or_self, if_false]

end

theorem winnowDeadline_of_due {m : Nat} (hopen : x.openedAt = some m) (hdue : m + usUnits x.plan.deadlineUs ≤ s.now) (hpart : inputComplete x = false) :
    winnowDeadline f j s = poisonJob f j false (s.log 0x0E 0x04 x.die (beBytes 2 j ++ beBytes 3 x.rank) f) := by
  simp [winnowDeadline, hjob, hopen, hdue, hpart]

end

/-! ## The commands -/

section
variable (s : State)

theorem exec_winnowIn_of_handed {pid : Nat} {k : Pkt} (h : Handed s pid k 4) (ht : k.p.h.typ = 0x84) :
    exec (.winnowIn pid) s = .next (finish s (winnowIn k pid (taking s pid k))) :=
  (run_wellFormed (i := .winnowIn pid) s _ rfl).trans (by rw [receive_of_handed h (by simp [ht])])

theorem exec_winnowRoundProcess {f : Nat} (hf : f < 4096) (j : Nat) (fault : Bool) :
    exec (.winnowRoundProcess f j fault) s = .next (finish s (winnowProcess f j fault s)) :=
  run_wellFormed (i := .winnowRoundProcess f j fault) s _ (decide_eq_true hf)
theorem exec_winnowDeadline {f : Nat} (hf : f < 4096) (j : Nat) : exec (.winnowDeadline f j) s = .next (finish s (winnowDeadline f j s)) :=
  run_wellFormed (i := .winnowDeadline f j) s _ (decide_eq_true hf)

variable {d t : Nat} (hd : d < 8) (ht : t < 2048)
include hd ht

theorem exec_winnowDefine : exec (.winnowDefine d t) s = .next (finish s (routine d t 0x0020 0 (winnowDefine d t) s)) :=
  run_wellFormed (i := .winnowDefine d t) s _ (decide_eq_true ⟨hd, ht⟩)
theorem exec_winnowUndefine : exec (.winnowUndefine d t) s = .next (finish s (routine d t 0x0021 0 (winnowUndefine d t) s)) :=
  run_wellFormed (i := .winnowUndefine d t) s _ (decide_eq_true ⟨hd, ht⟩)
theorem exec_winnowQuery : exec (.winnowQuery d t) s = .next (finish s (routine d t 0x0022 2 (winnowQuery d t) s)) :=
  run_wellFormed (i := .winnowQuery d t) s _ (decide_eq_true ⟨hd, ht⟩)

end

/-- Settles O47: a routine answers what its plan or its job gives, a contribution by the round it is for and the blocks that have come, and a round closes by
whether it is whole and intact. The canonical form of the outputs (log 187) and the comparison of work area and table (log 110) are the model's choices. -/
theorem winnowerCommandsComplete : Obligations.WinnowerCommandsComplete := by
  refine ⟨?define, ?undefine, ?query, ?new, ?stale, ?duplicate, ?held, ?process, ?fault, ?deadline⟩
  case define =>
    intro s d t n slot w hd ht hin hres hz halign hhead h len l p f hend hslot hok hdeadline hnew hjobs
    rw [exec_winnowDefine s hd ht, routine_of_ok hin hres (winnowDefine_of_plan hz halign hhead rfl hend rfl rfl hslot hok hdeadline hnew hjobs)]
  case undefine =>
    intro s d t n f w x hd ht hin hres h0 hz hown
    have hf := winnowUndefine_of_own h0 hz hown
    rw [exec_winnowUndefine s hd ht]
    split
    · next hopen => rw [routine_of_error hin hres (hf.trans (if_pos hopen))]
    · next hclosed => rw [routine_of_ok hin hres (hf.trans (if_neg hclosed))]
  case query =>
    intro s d t n f w x hd ht hin hres h0 hz hown
    rw [exec_winnowQuery s hd ht, routine_of_ok hin hres (winnowQuery_of_own h0 hz hown)]
  case new =>
    intro s pid i k x h ht ho hf hjob hdie htile hi hround hopen hpos bs hnone
    have hat : NamesJob s k x := ⟨ho, hf, hjob, hdie, htile⟩
    rw [exec_winnowIn_of_handed s h ht, winnowIn_of_new (next := false) hat.taking hi hround hopen hpos hnone]
    rfl
  case stale =>
    intro s pid i k x h ht ho hf hjob hdie htile hi hcur hnext
    have hat : NamesJob s k x := ⟨ho, hf, hjob, hdie, htile⟩
    rw [exec_winnowIn_of_handed s h ht, winnowIn_of_other_round hat.taking hi hcur hnext]
  case duplicate =>
    intro s pid i k x h ht ho hf hjob hdie htile hi hround hopen hpos hall
    have hat : NamesJob s k x := ⟨ho, hf, hjob, hdie, htile⟩
    rw [exec_winnowIn_of_handed s h ht,
      winnowIn_of_received (next := false) hat.taking hi hround hopen hpos (List.forall_mem_map.mpr fun b hb => hall b (List.mem_range.mp hb))]
  case held =>
    intro s pid i k x h ht ho hf hjob hdie htile hi hcur hnext hopen hpos hlast hback bs hnone
    have hat : NamesJob s k x := ⟨ho, hf, hjob, hdie, htile⟩
    rw [exec_winnowIn_of_handed s h ht, winnowIn_of_new (next := true) hat.taking hi hnext hopen hpos hnone,
      noteMark_of_unmarked (by omega)]
    simp only [WinnowRound.record, hlast, if_true]
    rfl
  case process =>
    intro s f j x hf hjob hopen hwhole hfence hgood hwork hmerge
    rw [exec_winnowRoundProcess s hf, winnowProcess_of_intact hjob hopen hwhole hfence hgood hwork hmerge]
  case fault =>
    intro s f j x hf hjob hopen hwhole hfence
    rw [exec_winnowRoundProcess s hf, winnowProcess_of_fault hjob hopen hwhole hfence]
  case deadline =>
    intro s f j m x hf hjob hopen hdue hpart
    rw [exec_winnowDeadline s hf, winnowDeadline_of_due hjob hopen (by rwa [usUnits, Nat.mul_comm]) hpart]

end Sys2Proof.Machine
end

section
/-! SUPPORT. A GLEAN_RESULT at the tile NI of its query (R325): what becomes of one whose elements come in whole segments (R198), and of one whose
elements do not. -/

namespace Sys2Proof.Machine

/-! ## The response range (R115, R198) -/

section
variable {s : State} {k : Pkt} {i a n : Nat}

/-- A result in its window with STATUS OK is written whole; with another STATUS its first 192 bytes are, and its credit is poisoned. -/
theorem takeData_of_result (ht : k.p.h.typ = 0x87) (hoff : k.p.offset % 64 = 0) (hmx : mxWhole k.p = true)
    (hw : windowAt s k.die k.dstTile k.p.window k.p.offset k.p.data.length true = some a) (hr : refSlot s k.die k.dstTile k.p.waybillRef = some n) :
    takeData k i s =
      if (k.p.data.headD 0).toNat ≠ 0 then completeTag k.die k.dstTile i 0x05 0
        (creditRef k.die k.dstTile n true (commit k.die k.dstTile a (k.p.data.take 192) s))
      else completeTag k.die k.dstTile i 0 0 (creditRef k.die k.dstTile n false (commit k.die k.dstTile a k.p.data s)) := by
  simp [takeData, takeData.resultStatus, countRef_of_refSlot hr, ht, hoff, hmx, hw, hr]

/-- MX elements in less than whole segments are discarded, and the tag completes with a response out of range. -/
theorem takeData_of_part_segment (hmx : mxWhole k.p = false) :
    takeData k i s = completeTag k.die k.dstTile i 0x0C 0 ((countRef k.die k.dstTile k.p.waybillRef s).bump F.NI_DROP_B_MALFORMED [k.die]) := by
  simp [takeData, hmx]

end

/-! ## The command -/

/-- A result that is not aged, neither marked nor an echo, and in the Field of its tile, names an OPEN tag whose request is query `q`. -/
structure AnswersQuery (s : State) (k : Pkt) (q : Packet) : Prop where
  typ : k.p.h.typ = 0x87
  unmarked : k.p.h.tailback = 0
  owned : s.ownsTile2 k.die k.dstTile k.p.h.field = true
  fresh : s.aged k.p.h = false
  epoch : (s.tagOf k.die k.dstTile k.p.h.tagIndex).epoch = k.p.h.tagEpoch
  opened : (s.tagOf k.die k.dstTile k.p.h.tagIndex).st = .opened
  req : (s.tagOf k.die k.dstTile k.p.h.tagIndex).req = some q
  query : q.h.typ = 0x86

section
variable {s : State} {k : Pkt} {q : Packet} {pid a n : Nat}

theorem respond_of_result (h : AnswersQuery s k q) : respond k s = takeData k k.p.h.tagIndex s := by
  obtain ⟨ht, hback, ho, ha, he, hst, hq, hquery⟩ := h
  rw [respond_of_fresh ho (by omega) ha, noteMark_of_unmarked (by omega), matchTag_of_answered he hst, if_neg (by omega)]
  simp [answers, hq, ht, hquery]

variable (h : Handed s pid k 2) (hans : AnswersQuery s k q)
include h hans

theorem exec_gleanResultReceive_of_handed :
    exec (.gleanResultReceive pid) s = .next (finish s (takeData k k.p.h.tagIndex (taking s pid k))) := by
  have hans' : AnswersQuery (taking s pid k) k q := ⟨hans.typ, hans.unmarked, hans.owned, hans.fresh, hans.epoch, hans.opened, hans.req, hans.query⟩
  refine (run_wellFormed (i := .gleanResultReceive pid) s _ rfl).trans ?_
  rw [receive_of_handed h (by simp [hans.typ]), respond_of_result hans']

/-- A result whose elements come in whole segments is committed and credited as R325 says. -/
theorem exec_gleanResultReceive_of_whole (hoff : k.p.offset % 64 = 0) (hmx : mxWhole k.p = true)
    (hw : windowAt s k.die k.dstTile k.p.window k.p.offset k.p.data.length true = some a) (hr : refSlot s k.die k.dstTile k.p.waybillRef = some n) :
    exec (.gleanResultReceive pid) s = .next (finish s
      (if (k.p.data.headD 0).toNat ≠ 0 then completeTag k.die k.dstTile k.p.h.tagIndex 0x05 0
          (creditRef k.die k.dstTile n true (commit k.die k.dstTile a (k.p.data.take 192) (taking s pid k)))
       else completeTag k.die k.dstTile k.p.h.tagIndex 0 0 (creditRef k.die k.dstTile n false (commit k.die k.dstTile a k.p.data (taking s pid k))))) := by
  rw [exec_gleanResultReceive_of_handed h hans, takeData_of_result (s := taking s pid k) hans.typ hoff hmx hw hr]

theorem exec_gleanResultReceive_of_part_segment (hmx : mxWhole k.p = false) :
    exec (.gleanResultReceive pid) s = .next (finish s (completeTag k.die k.dstTile k.p.h.tagIndex 0x0C 0
      ((countRef k.die k.dstTile k.p.waybillRef (taking s pid k)).bump F.NI_DROP_B_MALFORMED [k.die]))) := by
  rw [exec_gleanResultReceive_of_handed h hans, takeData_of_part_segment hmx]

end

/-! ## A result in an MX format -/

/-- A GLEAN_RESULT with STATUS OK whose 256 payload bytes call themselves MXFP8, a format with longer segments. -/
def mxResult : Packet := sealCheck
  { h := { cls := 1, typ := 0x87, units := 4 }, body := dataBody 0 0 noRef 0 0x10 0 0 0 0, data := 0 :: List.replicate 255 1 }

/-- The query whose tag it names, and the result as output 2 of die 0 hands it to tile 0. -/
def mxQuery : Packet := { h := { typ := 0x86 }, body := [] }
def mxResultTaken : Pkt := { p := mxResult, die := 0, out := 2, q := 0, owner := 0, input := .mgmt, stage := .taken }

/-- Tile 0 of die 0, in the Field of slot 0, with the query's tag OPEN and a window of 256 bytes for its result. -/
def mxResultAwaited : State :=
  let s := ((State.reset.setFld F.DV_FIELD_SLOT_STATE 1 [0]).setFld F.NI_WINDOW_LENGTH_BLK 4 [0, 0, 0]).setFld F.NI_WINDOW_WR 1 [0, 0, 0]
  let s := { s with ni := { s.ni with own2 := tabSet 0 s.ni.own2 [0, 0] 1 } }
  (s.setTag 0 0 0 { st := .opened, req := some mxQuery }).setPkt 0 (some mxResultTaken)

theorem mxResult_handed : Handed mxResultAwaited 0 mxResultTaken 2 :=
  ⟨State.pkt_setPkt_same .., rfl, rfl, checkOk_sealCheck _⟩

theorem mxResult_answersQuery : AnswersQuery mxResultAwaited mxResultTaken mxQuery := by
  constructor <;> decide +kernel

/-- Refutes O49: nothing in its last clause bounds ELEM_FORMAT, and where that names an MX format the tile NI takes only whole segments (R115, R198). The result here
is discarded, where the clause has it written at offset 0. With whole segments the clause holds (`exec_gleanResultReceive_of_whole`). -/
theorem not_gleanerCommandsComplete : ¬ Obligations.GleanerCommandsComplete := by
  intro h
  obtain ⟨-, -, -, -, -, -, -, -, -, hresult⟩ := h
  obtain ⟨ht, hback, ho, ha, he, hst, hq, hquery⟩ := mxResult_answersQuery
  have hclause := hresult mxResultAwaited 0 0 1024 mxResultTaken mxQuery mxResult_handed ht hback ho ha he hst hq hquery (by decide +kernel) (by decide +kernel)
    (by decide +kernel)
  have hmodel := exec_gleanResultReceive_of_part_segment mxResult_handed mxResult_answersQuery (by decide +kernel)
  have hbyte := congrArg (fun u => u.memByte 0 0 1) (Host.Outcome.next.inj (hclause.symm.trans hmodel))
  exact absurd hbyte (by decide +kernel)

end Sys2Proof.Machine
end

section
/-! SUPPORT. What every step leaves (R380, R393, R394, R409, R438): DV_ALERT's causes, its latch and the output pins follow the state. -/

namespace Sys2Proof.Machine

/-! ## Every command ends in `finish` -/

/-- Every command's meaning is `run` of its total effect. -/
theorem exec_eq_run (i : Instr) (s : State) : ∃ u, exec i s = run i s u := by
  cases i <;> exact ⟨_, rfl⟩

theorem eq_finish_of_exec {i : Instr} {s t : State} (h : exec i s = .next t) : ∃ u, t = finish s u := by
  obtain ⟨u, hu⟩ := exec_eq_run i s
  exact ⟨u, ((run_next_iff s u).mp (hu ▸ h)).2⟩

/-! ## The causes, the latch and the pins -/

variable {s t : State}

/-- Ten causes, a bit each. -/
theorem alertCauses_lt (s : State) : alertCauses s < 2 ^ 10 := by
  have hbit (k : Nat) (b : Bool) : (if b then 2 ^ k else 0) ≤ 2 ^ k := by
    split
    · exact le_rfl
    · exact Nat.zero_le _
  calc alertCauses s ≤ 2 ^ 0 + 2 ^ 1 + 2 ^ 2 + 2 ^ 3 + 2 ^ 4 + 2 ^ 5 + 2 ^ 6 + 2 ^ 7 + 2 ^ 8 + 2 ^ 9 := by
        unfold alertCauses
        repeat' apply Nat.add_le_add
        all_goals exact hbit _ _
    _ < 2 ^ 10 := by decide

theorem alertCauses_settle (s : State) : alertCauses (settle s) = alertCauses s := by
  simp [alertCauses, settle_fld_reg] <;> rfl

theorem poweredDies_settle (s : State) : poweredDies (settle s) = poweredDies s := by
  simp [poweredDies, settle_fld_reg]

theorem settle_cause (s : State) : (settle s).fld F.DV_ALERT_CAUSE = alertCauses s := by
  show ((s.setFld F.DV_ALERT_CAUSE _).setFld F.DV_ALERT_LATCH _).fld F.DV_ALERT_CAUSE = _
  rw [State.fld_setFld_ne _ _ (by decide), State.fld_setFld_same]
  exact Nat.mod_eq_of_lt (alertCauses_lt s)

theorem settle_latch (s : State) :
    (settle s).fld F.DV_ALERT_LATCH = latchAfter (s.fld F.DV_ALERT_LATCH) (s.fld F.DV_ALERT_CAUSE) (alertCauses s) % 2 ^ 10 :=
  State.fld_setFld_same _ _ _ _

theorem settle_mask (s : State) : (settle s).fld F.DV_ALERT_MASK = s.fld F.DV_ALERT_MASK :=
  settle_fld _ _ _ (by decide) (by decide)

theorem mod_two_pow_and {a m n : Nat} (hm : m < 2 ^ n) : a % 2 ^ n &&& m = a &&& m := by
  rw [← Nat.and_two_pow_sub_one_eq_mod, Nat.and_assoc, Nat.and_comm (2 ^ n - 1), Nat.and_two_pow_sub_one_of_lt_two_pow hm]

/-- Whatever a command does, the pins follow it, so long as MASK holds no bit that its 10 bits cannot show. -/
theorem pinsFollow_settle (hm : s.fld F.DV_ALERT_MASK < 2 ^ 10) : PinsFollow (settle s) where
  cause := by rw [settle_cause, alertCauses_settle]
  faultN := by
    rw [settle_fld_reg _ _ _ (by decide), settle_fld_reg _ _ _ (by decide)]
    simp [settle, or_iff_not_imp_left]
  thermTripN := by
    rw [settle_fld_reg _ _ _ (by decide)]
    simp [settle]
  dieFenceN := by rw [poweredDies_settle]; rfl
  smbAlertN := by
    rw [settle_latch, settle_mask, mod_two_pow_and hm]
    simp [settle]

/-- The pins do not look at the queue. -/
theorem pinsFollow_of_pending {q : List Instr} (h : PinsFollow s) : PinsFollow { s with pending := q } :=
  ⟨h.cause, h.faultN, h.thermTripN, h.dieFenceN, h.smbAlertN⟩

theorem timeTick_pending (s : State) : (timeTick s).pending = s.pending := by
  unfold timeTick
  split <;> rfl

/-- A step settles what its command, or a tick, has left, and takes the front of the queue away. -/
theorem step_settles (h : step s = .next t) : ∃ u, t = { settle u with pending := s.pending.tail } := by
  cases hq : s.pending with
  | nil =>
    rw [step_of_pending_nil hq] at h
    refine ⟨timeTick s, (Host.Outcome.next.inj h).symm.trans ?_⟩
    rw [List.tail_nil, ← hq, ← timeTick_pending]
    rfl
  | cons c rest =>
    rw [step_of_pending_cons hq] at h
    exact eq_finish_of_exec h

/-- Whatever command runs, the pins and DV_ALERT follow the state after every step that leaves MASK within its 10 bits, and the queue loses
its front alone. The frozen statement of O2 leaves that condition out. -/
theorem step_pinsFollow (h : step s = .next t) (hm : t.fld F.DV_ALERT_MASK < 2 ^ 10) :
    PinsFollow t ∧ t.pending = s.pending.tail := by
  obtain ⟨u, rfl⟩ := step_settles h
  exact ⟨pinsFollow_of_pending (pinsFollow_settle ((settle_mask u).symm.trans_lt hm)), rfl⟩

/-- LATCH and MASK as no write leaves them: bit 10 of a field of 10 bits. -/
def wideMaskState : State :=
  { flds := [(fldKey F.DV_ALERT_CAUSE [], 4), (fldKey F.DV_ALERT_LATCH [], 2 ^ 10), (fldKey F.DV_ALERT_MASK [], 2 ^ 10)], pins := State.reset.pins }

theorem pinsFollow_wideMaskState : PinsFollow wideMaskState where
  cause := by decide +kernel
  faultN := by decide +kernel
  thermTripN := by decide +kernel
  dieFenceN := by decide +kernel
  smbAlertN := by decide +kernel

/-- Refutes O2: no hypothesis keeps LATCH and MASK within their 10 bits. From `wideMaskState` a tick writes LATCH cut to its width, as 0,
while SMB_ALERT_N still follows the bit that was cut away. Where MASK is within its width, the statement holds (`step_pinsFollow`). -/
theorem not_everyStepKeepsThePins : ¬ Obligations.EveryStepKeepsThePins := by
  intro h
  obtain ⟨hpins, -⟩ := h wideMaskState _ pinsFollow_wideMaskState (step_of_pending_nil rfl)
  exact absurd hpins.smbAlertN (by decide +kernel)

end Sys2Proof.Machine
end

section
/-! SUPPORT. The Trust Core's commands (R338, R339, R350, R352, R359, R360, R362): objects that a transfer brings whole to a command of its own,
handshakes of managers and relays, fuse orders and debug tokens. -/

namespace Sys2Proof.Machine

/-! ## Whole objects for a command of their own (R434) -/

section
variable {s u : State} {pid : Nat} {k : Pkt} {x : Xfer} {l : List Byte} {row : DataRow} {act : ObjAct}

/-- A packet of one type awaits the management logic as no other type. -/
theorem mgrPkt_other_type {typ typ' : Nat} (hk : mgrPkt s pid typ = some k) (h : typ ≠ typ') : mgrPkt s pid typ' = none := by
  unfold mgrPkt at hk ⊢
  cases hp : s.pkt pid with
  | none => rfl
  | some j =>
    simp only [hp, Option.ite_none_right_eq_some] at hk
    obtain ⟨⟨-, -, htyp, -⟩, -⟩ := hk
    exact if_neg fun hj => h (htyp.symm.trans hj.2.2.1)

/-- MGR_DATA is not a request. -/
theorem mgrRequest_of_data {mine : MgrReq → Bool} {act : ReqAct} (hk : mgrPkt s pid 0x8F = some k) : mgrRequest pid mine act s = s := by
  simp [mgrRequest, mgrPkt_other_type hk (show 0x8F ≠ 0x20 by decide)]

/-- The row that the packet completing an object belongs to. -/
def rowOfTarget (x : Xfer) : DataRow :=
  match x.target with
  | 5 => .fuse
  | 6 => if pieceByte x.got 3 = 1 then .admission else if pieceByte x.got 3 = 2 then .evict else .plain
  | 7 => .relay
  | _ => .plain

theorem dataRowOf_of_covered {p : Packet} {z : Session} {x0 : Xfer} (ht : (dataHdrOf p).target ≠ 1) (hz : dataSession s p = some z) (hx : z.xfer = some x0)
    (hfit : dataFits x0 p = true) (hcov : piecesCover (addPiece x0 p s.now).got x0.len = true) :
    dataRowOf s p = rowOfTarget (addPiece x0 p s.now) := by
  simp only [dataRowOf, if_neg ht, hz, Option.bind_some, hx, hfit, Bool.not_true, Bool.false_eq_true, if_false, addPiece_len, hcov, rowOfTarget]
  rfl

/-- The packet that completes an object is its row's command, which ends the transfer with what the target answers. -/
theorem mgrData_of_filled (h : Filled s pid k x l u) (hrow : rowOfTarget x = row) :
    mgrData pid row earlyBytes act s = ended k x (act x l u) := by
  obtain ⟨hk, hc, hne, z, y, v, hzs, hz, hy, hfit, hearly, rfl, hcov, rfl, rfl⟩ := h
  rw [mgrData_of_fit hk hc ((dataRowOf_of_covered hne hzs hy hfit hcov).trans hrow) hz hy hfit hearly]
  exact if_pos hcov

theorem mgrRequest_of_filled {mine : MgrReq → Bool} {act : ReqAct} (h : Filled s pid k x l u) : mgrRequest pid mine act s = s :=
  mgrRequest_of_data h.1

end

/-! ## Attestation (R359, R360) -/

/-- A report without the certificates is 3,789 bytes. -/
theorem attestCall_of_report {s v : State} {d t f : Nat} {w rep : List Byte} (h0 : arg w 0 % 8 = 0) (h0' : arg w 0 + 32 ≤ tileSize) (h1 : arg w 1 % 64 = 0)
    (h1' : arg w 1 + 3789 ≤ tileSize) (h2 : arg w 2 = 0) (hz : argsZero w 3 = true) (hf : s.tileSlot d t = some f)
    (hrep : signReport 2 f (s.readMem d t (arg w 0) 32) s = some (rep, v)) :
    attestCall d t w s = .ok ([3789], stewardWrite d t (arg w 1) rep v) := by
  simp [attestCall, h0, h0'.not_gt, h1, h1'.not_gt, h2, hz, hf, hrep]

/-! ## Fuse orders (R338, R339) -/

theorem fuseAct_eq (x : Xfer) (l : List Byte) (u : State) :
    fuseAct x l u =
      (let v := u.setFld F.FS_ORDER_GROUP (byteNat l 3 1)
       if orderBar u l = 0 then ((stOk, 0), { v.setFld F.FS_ORDER_BUSY 1 with trust := { v.trust with order := some (l.take 128) } })
       else ((stTarget, orderBar u l), orderOutcome (orderBar u l) v)) := rfl

theorem fuseOrder_of_filled {s u : State} {pid : Nat} {k : Pkt} {x : Xfer} {l : List Byte} (h : Filled s pid k x l u) (ht : x.target = 5) :
    fuseOrder pid s = ended k x (fuseAct x l u) := by
  rw [fuseOrder, mgrRequest_of_filled h, mgrData_of_filled h (by simp [rowOfTarget, ht])]

theorem fuseOrderDone_of_order {s : State} {l : List Byte} (ok : Bool) (h : s.trust.order = some l) :
    fuseOrderDone ok s =
      (let u : State := { s.setFld F.FS_ORDER_BUSY 0 with trust := { s.trust with order := none } }
       if ok then orderOutcome 1 ((orderApply l u).bump F.FS_ORDER_ORDERS) else orderOutcome 7 (orderSpoil l u)) := by
  simp only [fuseOrderDone, h]

/-! ## Relayed handshakes (R350) -/

/-- The relay that begins in a state, with its HELLO in the mailbox. -/
def relayBegun (v : State) : State :=
  let r := newHandshake 1 0 ((v.setFld F.TC_RELAY_START 0).setFld F.TC_RELAY_STATE 1)
  { r.2 with trust := { r.2.trust with relay := some r.1, mailbox := some r.1.myHello } }

theorem relayWrite_of_ready {u v : State} {y : RegSpec} {q : List Nat} {n : Nat} (hr : u.trustReady = true) (hv : plainWrite y q n u = .ok v) :
    relayWrite y q n u = .ok (relayBegun v) := by
  simp only [relayWrite, hr, hv]
  rfl

theorem relay_of_filled {s u : State} {pid : Nat} {k : Pkt} {x : Xfer} {l : List Byte} (h : Filled s pid k x l u) (ht : x.target = 7) :
    relay pid s = ended k x (relayAct x l u) := by
  rw [relay, mgrRequest_of_filled h, mgrData_of_filled h (by simp [rowOfTarget, ht])]

/-- A relayed message that is answered by one, which does not end the handshake. -/
theorem relayAct_of_answer {u v : State} {x : Xfer} {l : List Byte} {r r1 : HsRec} {m : Nat × List Byte} (hr : u.trust.relay = some r)
    (hturn : u.hsTurn r.startedAt 16 = true) (hstep : relayStep r l u = .go r1 [m] v) (hover : r1.over = false) :
    relayAct x l u = ((stOk, 0), { v with trust := { v.trust with relay := some r1, mailbox := some m.2 } }) := by
  simp [relayAct, hr, hturn, hstep, hover]

theorem relayTimeout_of_passed {s : State} {r : HsRec} (hr : s.trust.relay = some r) (hgap : r.startedAt + usUnits 100000 ≤ s.now) :
    relayTimeout s = { s.setFld F.TC_RELAY_STATE 3 with trust := { s.trust with relay := none, mailbox := none } } := by
  simp only [relayTimeout, hr, if_pos hgap]
  rfl

/-! ## Session handshakes (R352) -/

section
variable {s : State} {pid key d : Nat} {k : Pkt} {p : Packet} {m : List Byte}

/-- A message of a handshake that need not wait, whose form holds, is taken once its packet is freed. -/
theorem sessionData_of_message {len : Nat} (hk : mgrPkt s pid 0x8F = some k) (hc : checkOk k.p = true) (hwait : sessionWaits s k.p = false)
    (hh : dataHdrOf k.p = ⟨1, 1, key, 0, 0, len⟩) (hm : dataMalformed k.p = false) (hmac : allZero (k.p.body.drop 24) = true)
    (hready : (freePkt pid 8 s).trustReady = true) (hlen : len ≤ k.p.data.length) :
    sessionData pid s = sessionMessage k.die k.p key (k.p.data.take len) (freePkt pid 8 s) := by
  have hrow : dataRowOf s k.p = .session := by simp [dataRowOf, hh]
  simp [sessionData, hk, hrow, hwait, hc, hh, hm, hmac, hready, hlen.not_gt]

/-- A HELLO of a manager whose key the image holds: refused for its NONCE, for its Key ID, or answered. -/
theorem onManagerHello_of_known {r : HsRec} (hlen : m.length = 3366) (hm : m.take 4 = [1, 2, 0, 0])
    (hkey : s.trust.image.mgrKeys[key]?.map keyId = some (keyId (helloChain m))) :
    onManagerHello key r m s =
      if helloNonce m = helloNonce r.myHello then .abort 0x02
      else if keyId (helloChain m) = ownId then .abort 0x05
      else takeHello r m (helloChain m) s := by
  simp [onManagerHello, hlen, hm, hkey]

/-- The HELLO starts a handshake of the key anew, whatever it finds; the answer carries this device's HELLO and KEMCT. -/
theorem sessionMessage_of_hello (hlen : m.length = 3366) (hm : m.take 4 = [1, 2, 0, 0])
    (hkey : (newHandshake 2 0 s).2.trust.image.mgrKeys[key]?.map keyId = some (keyId (helloChain m))) :
    sessionMessage d p key m s =
      (let r := newHandshake 2 0 s
       if helloNonce m = helloNonce r.1.myHello then r.2.setMgrHs key none
       else if keyId (helloChain m) = ownId then (r.2.bump F.TC_STATUS_REFUSALS).setMgrHs key none
       else
       let ct := bytesOfLen 1088 (Config.kemCipher (helloKem m) r.2.fresh)
       (sendSession d p key ct (sendSession d p key r.1.myHello r.2.tick)).setMgrHs key
         (some { r.1 with peerHello := m, partner := helloChain m, kemDraw := r.2.fresh, myKem := ct, got := [1], sent := [1, 2] })) := by
  rw [sessionMessage, if_pos hlen]
  simp only [onManagerHello_of_known hlen hm hkey]
  by_cases hnonce : helloNonce m = helloNonce (newHandshake 2 0 s).1.myHello
  · simp only [if_pos hnonce]
    rfl
  · by_cases hown : keyId (helloChain m) = ownId
    · simp only [if_neg hnonce, if_pos hown]
      rfl
    · simp only [if_neg hnonce, if_neg hown]
      rfl

end

/-! ## The commands -/

section
variable (s : State) (pid : Nat)

theorem exec_attest {d t : Nat} (hd : d < 8) (ht : t < 2048) : exec (.attest d t) s = .next (finish s (routine d t 0x0040 1 (attestCall d t) s)) :=
  run_wellFormed (i := .attest d t) s _ (decide_eq_true ⟨hd, ht⟩)
theorem exec_fuseOrder : exec (.fuseOrder pid) s = .next (finish s (fuseOrder pid s)) := run_wellFormed (i := .fuseOrder pid) s _ rfl
theorem exec_fuseOrderDone (ok : Bool) : exec (.fuseOrderDone ok) s = .next (finish s (fuseOrderDone ok s)) :=
  run_wellFormed (i := .fuseOrderDone ok) s _ rfl
theorem exec_relayStart : exec (.relayStart pid) s = .next (finish s (writeCmd .relayStart relayWrite pid s)) :=
  run_wellFormed (i := .relayStart pid) s _ rfl
theorem exec_relay : exec (.relay pid) s = .next (finish s (relay pid s)) := run_wellFormed (i := .relay pid) s _ rfl
theorem exec_relayTimeout : exec .relayTimeout s = .next (finish s (relayTimeout s)) := run_wellFormed (i := .relayTimeout) s _ rfl
theorem exec_session : exec (.session pid) s = .next (finish s (sessionData pid s)) := run_wellFormed (i := .session pid) s _ rfl
theorem exec_debugToken (b : List Byte) : exec (.debugToken b) s = .next (finish s (debugToken b s)) := run_wellFormed (i := .debugToken b) s _ rfl

end

/-- Settles O51: a whole object is its command's, a handshake takes the step its message is, and each then does what its equation says. -/
theorem trustCommandsComplete : Obligations.TrustCommandsComplete := by
  refine ⟨?attest, ?order, ?orderDone, ?relayStart, ?relay, ?relayTimeout, ?session, ?token⟩
  case attest =>
    intro s d t n f w rep v hd ht hin hres h0 h0' h1 h1' h2 hz hf hrep
    rw [exec_attest s hd ht, routine_of_ok hin hres (attestCall_of_report h0 h0' h1 h1' h2 hz hf hrep)]
  case order =>
    intro s u pid k x l h ht
    rw [exec_fuseOrder, fuseOrder_of_filled h ht, fuseAct_eq]
  case orderDone =>
    intro s ok l h
    rw [exec_fuseOrderDone, fuseOrderDone_of_order ok h]
  case relayStart =>
    intro s u v pid k y q h hreg hstart hready hv
    rw [exec_of_askedWrite h (exec_relayStart s pid) (by simp [writeRowOf, hreg, hstart]) (relayWrite_of_ready hready hv), answered_ok, relayBegun]
  case relay =>
    intro s u v pid k x l r r1 m h ht hr hturn hstep hover
    rw [exec_relay, relay_of_filled h ht, relayAct_of_answer hr hturn hstep hover]
  case relayTimeout =>
    intro s r hr hgap
    rw [exec_relayTimeout, relayTimeout_of_passed hr hgap]
  case session =>
    intro s pid key k m hk hc hwait hh hmal hmac hready hm hlen hform
    subst hm
    dsimp only
    intro hkey
    rw [exec_session, sessionData_of_message hk hc hwait hh hmal hmac hready (by simpa using hlen),
      sessionMessage_of_hello hlen hform hkey]
  case token =>
    intro s b hst
    rw [exec_debugToken, debugToken, if_neg (not_not.mpr hst)]

end Sys2Proof.Machine
end

section
/-! SUPPORT. Admission and eviction (R353 to R358, R444): what ADMIT and EVICT make of a whole record, when a Field becomes active, and how a row's
zeroisation ends. -/

namespace Sys2Proof.Machine

/-! ## ADMIT and EVICT -/

section
variable (x : Xfer) (l : List Byte) (u : State)

theorem admitAct_eq :
    admitAct x l u =
      if (admitBar u l).1 ≠ 0 then ((stTarget, (admitBar u l).1), u)
      else
        let n := (admitBar u l).2
        let v := showSlot n (byteNat l 4 2) 1 (recordRows l) u
        let w : State := { v with trust := { v.trust with admits := tabSet [] v.trust.admits [n] (l.take 576), ownerKeys := tabSet [] v.trust.ownerKeys [n] (l.drop 576) } }
        let y := addZeroing ((recordRows l).filter (fun r => !w.fbit F.SM_ROWS_CLEAN r.2 [r.1])) w
        ((stOk, 0), if byteNat l 8 8 = 0 then y else y.armGate (.admitAt n) (byteNat l 8 8)) := rfl

theorem evictAct_eq :
    evictAct x l u =
      if evictBar u l ≠ 0 then ((stTarget, evictBar u l), u)
      else
        let n := byteNat l 6 1
        let v := addZeroing (u.grantRows n) ((u.dropGate (.admitAt n)).setFld F.DV_FIELD_SLOT_STATE 4 [n])
        ((stOk, 0), roadEvict (v.slotField n) (closeGate (.field n) v)) := rfl

end

/-! ## Activation (R355) -/

section
variable {s : State} {n m : Nat}

theorem activate_slotState (n : Nat) (s : State) : (activate n s).fld F.DV_FIELD_SLOT_STATE [n] = 2 := State.fld_setFld_same _ _ _ _

/-- A Field with no AT becomes active once its rows are clean. -/
theorem fieldActivate_of_clean (hst : s.fld F.DV_FIELD_SLOT_STATE [n] = 1) (hat : byteNat (s.admitRecord n) 8 8 = 0)
    (hclean : ∀ x ∈ s.grantRows n, s.fbit F.SM_ROWS_CLEAN x.2 [x.1] = true) : fieldActivate n s = activate n s := by
  have hready : (s.grantRows n).all (fun x => s.clean x.1 x.2) = true := List.all_eq_true.mpr hclean
  simp only [fieldActivate, hst, hat, hready, ne_eq, not_true_eq_false, if_false, if_true]

/-- A Field with an AT that has come becomes active, or waits and the delay is logged once. -/
theorem fieldActivate_of_due (hst : s.fld F.DV_FIELD_SLOT_STATE [n] = 1) (hat : byteNat (s.admitRecord n) 8 8 ≠ 0) (hm : s.gateAt (.admitAt n) = some m)
    (hdue : s.launchDue (.admitAt n) = true) :
    fieldActivate n s =
      if (s.grantRows n).all (fun x => s.fbit F.SM_ROWS_CLEAN x.2 [x.1]) = true then activate n (s.dropGate (.admitAt n))
      else if m = 0 then s else (s.armGate (.admitAt n) 0).log 0x0C 0x07 8 (resetDetail 0 n 0 0) (s.slotField n) := by
  simp only [fieldActivate, hst, if_neg hat, hm, hdue, ne_eq, not_true_eq_false, if_false, Bool.not_true, Bool.false_eq_true]
  rfl

end

/-! ## The end of a row's zeroisation (R358, R402) -/

/-- The row no longer waits for its zeroisation. -/
def dropZeroing (d r : Nat) (s : State) : State := { s with trust := { s.trust with zeroing := s.trust.zeroing.erase (d, r) } }

section
variable {s : State} {d r : Nat} (hz : (d, r) ∈ s.trust.zeroing) (hsus : s.fbit F.SM_ROWS_SUSPECT r [d] = false) (hbegun : zeroBegun s d r = true)
include hz hsus hbegun

/-- A row of zeros takes a clean mark. -/
theorem rowZeroiseDone_of_ok :
    rowZeroiseDone d r true s = afterZero (zeroSlot s d r) ((dropZeroing d r (zeroRow d r s)).setBit F.SM_ROWS_CLEAN r true [d]) := by
  have hgo : ¬((d, r) ∉ s.trust.zeroing ∨ s.fbit F.SM_ROWS_SUSPECT r [d] = true ∨ (!zeroBegun s d r) = true) := by simp [hz, hsus, hbegun]
  simp only [rowZeroiseDone, if_neg hgo, if_true]
  rfl

/-- A row that does not read zero stays suspect; at boot's last step it is left out, and what waits for the row goes on. -/
theorem rowZeroiseDone_of_fault (hslot : (zeroSlot s d r).any (resetting s) = false) :
    rowZeroiseDone d r false s =
      (let w := copyFault d 0x06 (((zeroSlot s d r).map s.slotField).getD 0xFFFF) (r * 64) (some r) (markSuspect d r s)
       if s.fld F.SL_STATUS_STATE = 3 then afterZero (zeroSlot s d r) (dropZeroing d r w) else w) := by
  have hgo : ¬((d, r) ∉ s.trust.zeroing ∨ s.fbit F.SM_ROWS_SUSPECT r [d] = true ∨ (!zeroBegun s d r) = true) := by simp [hz, hsus, hbegun]
  simp only [rowZeroiseDone, if_neg hgo, hslot, Bool.false_eq_true, if_false]
  by_cases hst : s.fld F.SL_STATUS_STATE = 3 <;> simp [hst, dropZeroing]

end

theorem zeroBegun_of_slot {s : State} {d r : Nat}
    (h : ∀ n, zeroSlot s d r = some n → s.fld F.DV_FIELD_SLOT_STATE [n] ≠ 4 ∨ Domain.field n ∈ s.ni.drained) : zeroBegun s d r = true := by
  unfold zeroBegun
  cases hn : zeroSlot s d r with
  | none => rfl
  | some n => simpa using h n hn

theorem zeroSlot_not_resetting {s : State} {d r : Nat} (h : ∀ n, zeroSlot s d r = some n → resetting s n = false) :
    (zeroSlot s d r).any (resetting s) = false := by
  cases hn : zeroSlot s d r with
  | none => rfl
  | some n => exact h n hn

/-! ## The end of an eviction (R357) -/

/-- An eviction that a Field reset does not wait for frees its slot once the drain has ended and no row is left. -/
theorem evictionDone_of_drained {s : State} {n : Nat} (hst : s.fld F.DV_FIELD_SLOT_STATE [n] = 4) (hd : Domain.field n ∈ s.ni.drained)
    (hz : ∀ x ∈ s.grantRows n, x ∉ s.trust.zeroing) (hr : resetting s n = false) :
    evictionDone n s = freeSlot n (clearFieldObjects (s.slotField n) s) := by
  have hrows : (s.grantRows n).all (fun x => x ∉ s.trust.zeroing) = true := by simpa using hz
  rw [evictionDone, if_pos ⟨hst, hd, hrows⟩]
  simp [hr]

/-! ## The commands -/

section
variable (s : State) (pid : Nat)

theorem exec_admitField : exec (.admitField pid) s = .next (finish s (mgrData pid .admission earlyBytes admitAct s)) :=
  run_wellFormed (i := .admitField pid) s _ rfl
theorem exec_evict : exec (.evict pid) s = .next (finish s (mgrData pid .evict earlyBytes evictAct s)) :=
  run_wellFormed (i := .evict pid) s _ rfl
theorem exec_fieldActivate {n : Nat} (hn : n < 16) : exec (.fieldActivate n) s = .next (finish s (fieldActivate n s)) :=
  run_wellFormed (i := .fieldActivate n) s _ (decide_eq_true hn)
theorem exec_rowZeroiseDone {d r : Nat} (ok : Bool) (hd : d < 8) (hr : r < 32) :
    exec (.rowZeroiseDone d r ok) s = .next (finish s (rowZeroiseDone d r ok s)) :=
  run_wellFormed (i := .rowZeroiseDone d r ok) s _ (decide_eq_true ⟨hd, hr⟩)
theorem exec_evictionDone {n : Nat} (hn : n < 16) : exec (.evictionDone n) s = .next (finish s (evictionDone n s)) :=
  run_wellFormed (i := .evictionDone n) s _ (decide_eq_true hn)

end

/-- Settles O53: a whole record is its row's command, and each command acts by the equation of its meaning. -/
theorem admissionCommandsComplete : Obligations.AdmissionCommandsComplete := by
  refine ⟨?admitted, ?evict, ?active, ?due, ?shown, ?zeroised, ?evicted⟩
  case admitted =>
    intro s u pid k x l h ht hkind
    rw [exec_admitField, mgrData_of_filled h (by simp [rowOfTarget, ht, hkind]), admitAct_eq]
  case evict =>
    intro s u pid k x l h ht hkind
    rw [exec_evict, mgrData_of_filled h (by simp [rowOfTarget, ht, hkind]), evictAct_eq]
  case active =>
    intro s n hn hst hat hclean
    rw [exec_fieldActivate s hn, fieldActivate_of_clean hst hat hclean]
  case due =>
    intro s n m hn hst hat hm hdue
    rw [exec_fieldActivate s hn, fieldActivate_of_due hst hat hm hdue]
  case shown =>
    intro s n
    exact activate_slotState n s
  case zeroised =>
    intro s d r ok hd hr hz hsus hslot
    have hbegun := zeroBegun_of_slot fun n hn => (hslot n hn).1
    rw [exec_rowZeroiseDone s ok hd hr]
    cases ok with
    | true =>
      rw [rowZeroiseDone_of_ok hz hsus hbegun]
      rfl
    | false =>
      rw [rowZeroiseDone_of_fault hz hsus hbegun (zeroSlot_not_resetting fun n hn => (hslot n hn).2)]
      rfl
  case evicted =>
    intro s n hn hst hd hz hr
    rw [exec_evictionDone s hn, evictionDone_of_drained hst hd hz hr]

end Sys2Proof.Machine
end

section
/-! SUPPORT. Power and reset pins, boot and its self-tests, the settling of a die's supply, the SMBus target and the trips (R366 to R371, R393, R394, R431). -/

namespace Sys2Proof.Machine

/-! ## Rails and pins (R366 to R368) -/

section
variable {s : State}

theorem vauxUp_of_absent (h : s.boot.vaux = false) :
    vauxUp s = { s with boot := { s.boot with vaux := true }, time := { s.time with trimSeason := s.fld F.FS_SEASONS_TRIM } } := by
  simp [vauxUp, h]

theorem pwrGoodRise_of_vaux (h : s.boot.vaux = true) : pwrGoodRise s = { s with boot := { s.boot with pwrGood := true } } := if_pos h

theorem pwrGoodFall_of_good (h : s.boot.pwrGood = true) :
    pwrGoodFall s =
      (let u := (deviceReset false (cutSample ((linksDown (List.range 16) 3 s).forAll dies dieOff))).setFld F.PW_CAP_THERM_TRIPPED 0
       { u with boot := { u.boot with pwrGood := false } }) := by
  simp only [pwrGoodFall, h, Bool.not_true, Bool.false_eq_true, if_false]
  rfl

/-- A device that has power and is not in device reset already begins a sample, which a die reset that has not begun cuts short. -/
theorem resetNFall_of_high (h : s.boot.resetN = true) :
    resetNFall s =
      (let v : State := { s with boot := { s.boot with resetN := false, byMessage := false } }
       let u := startDeviceReset 1 v
       if s.boot.pwrGood = false ∨ s.fld F.SL_STATUS_STATE = 0 then v else { u with safe := { u.safe with request := none } }) := by
  simp only [resetNFall, h, State.inReset, State.fld, Bool.not_true, Bool.false_eq_true, if_false, Bool.not_eq_true']
  exact if_congr (or_congr_right decide_eq_true_iff) rfl rfl

end

/-! ## What a loss of VAUX leaves (R338, R364) -/

theorem tabGet_filter {κ α : Type} [DecidableEq κ] (d : α) {p : κ × α → Bool} {k : κ} (h : ∀ v, p (k, v) = true) (t : List (κ × α)) :
    tabGet d (t.filter p) k = tabGet d t k := by
  induction t with
  | nil => rfl
  | cons e t ih =>
    obtain ⟨k', v⟩ := e
    by_cases hk : k' = k
    · subst hk
      simp [h, tabGet]
    · by_cases hp : p (k', v) = true <;> simp [hp, tabGet, hk, ih]

/-- A field of a register that is kept. -/
theorem tabGet_keepFlds {regs : List Reg} {f : Fld} (hf : f.reg ∈ regs) (d : Nat) (k : List Nat) (flds : Tab Nat) :
    tabGet d (keepFlds regs flds) (fldKey f k) = tabGet d flds (fldKey f k) :=
  tabGet_filter d (fun _ => by simpa [fldKey] using ⟨f.reg, hf, rfl⟩) flds

/-- VAUX_LOSS where no order is being written leaves each fuse field but the fuse fault as it was. -/
theorem vauxLoss_fld {s : State} (h : s.trust.order = none) {f : Fld} (k : List Nat) (hf : f.reg ∈ [Reg.FS_SEASONS, .FS_OWNER_HASH, .FS_HEDGE_HASH])
    (hlo : f.reg ≠ F.FS_SEASONS_FUSE_FAULT.reg ∨ f.lo ≠ F.FS_SEASONS_FUSE_FAULT.lo) : (vauxLoss s).fld f k = s.fld f k := by
  have hreg (r : Reg) (hr : r ∉ [Reg.FS_SEASONS, .FS_OWNER_HASH, .FS_HEDGE_HASH]) : r ≠ f.reg := fun e => hr (e ▸ hf)
  simp only [vauxLoss, h]
  rw [State.fld_setFld_ne _ _ (.inl (hreg _ (by decide))), State.fld_setFld_ne _ _ (.inl (hreg _ (by decide))),
    State.fld_setFld_ne _ _ (hlo.elim (fun e => .inl e.symm) (fun e => .inr (.inl e.symm)))]
  refine (State.forAll_keeps (obs := fun t => t.fld f k) (fun d _ t => ?_) _).trans ?_
  · rw [State.fld_setFld_ne _ _ (.inl (hreg _ (by decide))), State.fld_setFld_ne _ _ (.inl (hreg _ (by decide)))]
  · exact tabGet_keepFlds (List.mem_cons_of_mem _ hf) _ _ _

/-! ## BOOT_START (R369, R370) -/

/-- The straps agree exactly where the head, and no other, is at position 0. -/
theorem badStraps_eq_false_iff {s : State} : badStraps s = false ↔ (s.fld F.SL_STATUS_ROLE = 1 ↔ s.fld F.SL_STATUS_POS = 0) := by
  unfold badStraps
  split <;> simp_all

theorem bootStart_of_reset {s base : State} {head fuseOk : Bool} {pos : Nat} (hv : s.boot.vaux = true) (hp : s.boot.pwrGood = true)
    (ht : s.fld F.PW_CAP_THERM_TRIPPED ≠ 1)
    (hbase : (s.recorder.sample = none ∧ s.fld F.SL_STATUS_STATE = 0 ∧ base = s) ∨
      ∃ x, s.recorder.sample = some x ∧ x.cause = 1 ∧ base = deviceReset false (cutSample s)) :
    bootStart head pos fuseOk s = bootBegin head pos fuseOk base := by
  rw [bootStart, if_neg (by simp [hv, hp, ht])]
  obtain ⟨hx, hin, rfl⟩ | ⟨x, hx, hc, rfl⟩ := hbase
  · simp [hx, State.inReset, hin]
  · simp [hx, hc]

/-- Boot once the regulators have ramped and the fuses have been checked. -/
def bootRamped (head fuseOk : Bool) (pos : Nat) (s : State) : State :=
  let u := sampleStraps head pos s
  let v : State := { u with boot := { u.boot with resetN := true, byMessage := false, bootAt := u.now } }
  let w := (v.forAll dies rampDie).setFld F.SL_STATUS_STATE 1
  if fuseOk then w else w.setFld F.FS_SEASONS_FUSE_FAULT 1

/-- Contradicting straps come before a fuse fault. -/
theorem bootBegin_eq (head fuseOk : Bool) (pos : Nat) (s : State) :
    bootBegin head pos fuseOk s =
      (let x := bootRamped head fuseOk pos s
       if (x.fld F.SL_STATUS_ROLE = 1 ↔ x.fld F.SL_STATUS_POS = 0) then (if fuseOk = true then x else unseed (sourceResult 0 0x0F x))
       else unseed (sourceResult 0 0x0E x)) := by
  simp only [← badStraps_eq_false_iff]
  show (if badStraps (bootRamped head fuseOk pos s) = true then _ else _ : State) = _
  cases badStraps (bootRamped head fuseOk pos s) <;> rfl

/-! ## The self-tests (R371, R414) -/

theorem bootTested_of_testing {s : State} {failed : List Nat} {trustOk : Bool} (h : s.fld F.SL_STATUS_STATE = 1) :
    bootTested failed trustOk s =
      (let u := trustTest trustOk (s.forAll dies (testRows failed))
       issueChallenge ((u.setFld F.SL_TIMES_TESTED_MS (bootMs u)).setFld F.SL_STATUS_STATE 2)) := by
  rw [bootTested, if_neg (not_not.mpr h)]

theorem dieTested_of_request {s : State} {d : Nat} {failed : List Nat} {codeOk : Bool} {r : ResetReq} (hr : s.safe.request = some r) (hb : r.begun = true)
    (hd : r.target = d) (hk : r.kind = 2 ∨ r.kind = 5) :
    dieTested d failed codeOk s =
      (let u := (((testRows failed d s).setFld F.SM_DIE_STATE_FENCED 0 [d]).setFld F.SM_DIE_STATE_CAUSE 0 [d]).setFld F.SM_DIE_STATE_FIRST_SEQ 0 [d]
       let v := endRecovery [2, 2 * d + 1] (endRecovery [2, 2 * d] (endRecovery [1, d] (u.setBit F.SM_STATUS_DIES_FENCED d false)))
       let w := syncMaps d (reloadFlds r.regs v)
       reopenDies (endRequest 1 (if codeOk = true then loadAlmanac w d
         else w.report { row := 12, consequential := false, unit := [30], die := d, die2 := d, field := 0xFFFF, lrow := none, stall := false, cls := 0, code := 0, poisoned := false, detail := [] }))) := by
  simp only [dieTested, hr, if_pos (show r.begun = true ∧ r.target = d ∧ (r.kind = 2 ∨ r.kind = 5) from ⟨hb, hd, hk⟩)]

/-! ## The settling of a die's supply (R42, R394, R395) -/

section
variable (s : State) (watts d : Nat)

/-- No register that the Road Book reads shows the package's power. -/
theorem activeBankNo_setFld_package : (s.setFld F.PW_CAP_PACKAGE_W watts).activeBankNo = s.activeBankNo := by
  simp only [State.activeBankNo]
  rw [State.fld_setFld_ne _ _ (.inl (by decide)), State.fld_setFld_ne _ _ (.inl (by decide))]

theorem activeBank_setFld_package : (s.setFld F.PW_CAP_PACKAGE_W watts).activeBank = s.activeBank := by
  rw [State.activeBank, activeBankNo_setFld_package]
  rfl

theorem schedLive_setFld_package : (s.setFld F.PW_CAP_PACKAGE_W watts).schedLive d = s.schedLive d := by
  rw [State.schedLive, State.liveRecords, State.records, activeBank_setFld_package]
  rfl

theorem swapBank_setFld_package : (s.setFld F.PW_CAP_PACKAGE_W watts).swapBank = s.swapBank := by
  rw [State.swapBank, activeBankNo_setFld_package, State.bankState, if_pos rfl, State.fld_setFld_ne _ _ (.inl (by decide))]
  rfl

theorem floorInForce_setFld_package : (s.setFld F.PW_CAP_PACKAGE_W watts).floorInForce = s.floorInForce := by
  rw [State.floorInForce, activeBank_setFld_package, swapBank_setFld_package, State.fld_setFld_ne _ _ (.inl (by decide))]
  rfl

end

/-- The voltage that the die is given once the package's power is known. -/
theorem vcoreTarget_setFld_package (s : State) (watts d mv : Nat) :
    vcoreTarget (s.setFld F.PW_CAP_PACKAGE_W watts) d mv =
      (let v := min 850 (max 650 mv)
       let held := if 760 < toSigned 12 (s.fld F.PW_DIE_STATE_TJ [d]) ∨ (s.setFld F.PW_CAP_PACKAGE_W watts).overCap = true
         then max 650 (min v (s.fld F.PW_DIE_STATE_VCORE_MV [d])) else v
       if s.schedLive d = true then max held s.floorInForce.vmin else held) := by
  simp only [vcoreTarget, schedLive_setFld_package, floorInForce_setFld_package]
  rw [State.fld_setFld_ne _ _ (.inl (by decide)), State.fld_setFld_ne _ _ (.inl (by decide))]

/-- A powered die keeps its setting exactly where one of its regions reads pace 0. -/
theorem vcoreSettle_of_powered {s : State} {d : Nat} (mv watts : Nat) (hp : s.fld F.SM_DIE_STATE_POWERED [d] = 1) :
    vcoreSettle d mv watts s =
      (let u := s.setFld F.PW_CAP_PACKAGE_W watts
       if ∃ x ∈ s.safe.paceZero, x / 8 = d then u else u.setFld F.PW_DIE_STATE_VCORE_MV (vcoreTarget u d mv) [d]) := by
  have hp' : (s.setFld F.PW_CAP_PACKAGE_W watts).fld F.SM_DIE_STATE_POWERED [d] = 1 := by
    rwa [State.fld_setFld_ne _ _ (.inl (by decide))]
  have hany : s.safe.paceZero.any (fun x => x / 8 = d) = true ↔ ∃ x ∈ s.safe.paceZero, x / 8 = d := by simp
  by_cases hz : ∃ x ∈ s.safe.paceZero, x / 8 = d
  · simp only [vcoreSettle, hp', State.setFld_safe, hany.mpr hz, if_pos hz, true_and, Bool.not_true, Bool.false_eq_true, if_false]
  · have hany' := Bool.eq_false_iff.mpr (fun h => hz (hany.mp h))
    simp only [vcoreSettle, hp', State.setFld_safe, hany', if_neg hz, true_and, Bool.not_false, if_true]

/-! ## The SMBus target (R431) -/

/-- A call to the target's own address, while VAUX is present, is answered. -/
theorem smbusCall_of_own {s : State} {n : Nat} {data : List Byte} {pecOk : Bool} {ans : State → Nat × Nat} (hv : s.boot.vaux = true) :
    smbusCall (0x58 + s.fld F.SL_STATUS_POS) n data pecOk ans s =
      if pecOk = true ∧ data.length = n then s.emit (.smbus (smbusReply (ans s))) else s.emit (.smbus (smbusReply (stFormat, 0))) := by
  have hgo : ¬(0x58 + s.fld F.SL_STATUS_POS ≠ s.smbusAddr ∨ (!s.boot.vaux) = true) := by simp [State.smbusAddr, hv]
  rw [smbusCall, if_neg hgo]
  by_cases hp : pecOk = true <;> by_cases hl : data.length = n <;> simp [hp, hl]

theorem alertResponse_of_vaux {s : State} (h : s.boot.vaux = true) :
    alertResponse s = s.emit (.smbusAlert (0x58 + s.fld F.SL_STATUS_POS)) := if_pos h

/-! ## The trips (R393) -/

section
variable {s : State} {d : Nat} (h : s.fld F.SM_DIE_STATE_POWERED [d] ≠ 0)
include h

theorem thermalTrip_of_powered :
    thermalTrip d s = allDiesOff ((s.log 0x0A 0x03 d (powerDetail s d 0)).setFld F.PW_CAP_THERM_TRIPPED 1) := if_neg h

theorem overcurrentTrip_of_powered :
    overcurrentTrip d s =
      (let u := (s.log 0x0A 0x04 d (powerDetail s d 0)).setBit F.PW_CAP_OC_TRIPPED d true
       let v := cancelFallow d (cancelSnaps (some d) (u.forAll (slotsOnDie u d) (fun (n : Nat) (y : State) => fenceField n false y)))
       let w := closeGate (.die d) (endDieRequest d (dieOff d (resetDieUnits d (keepDie d (tripRegs v d) v))))
       { w with recorder := { w.recorder with sample := w.recorder.sample.map (fun x => if x.mask.testBit d = true then { x with missing := x.missing ||| 2 ^ d } else x) } }) :=
  if_neg h

end

/-! ## The commands -/

section
variable (s : State)

theorem exec_vauxUp : exec .vauxUp s = .next (finish s (vauxUp s)) := run_wellFormed (i := .vauxUp) s _ rfl
theorem exec_vauxLoss : exec .vauxLoss s = .next (finish s (vauxLoss s)) := run_wellFormed (i := .vauxLoss) s _ rfl
theorem exec_pwrGoodRise : exec .pwrGoodRise s = .next (finish s (pwrGoodRise s)) := run_wellFormed (i := .pwrGoodRise) s _ rfl
theorem exec_pwrGoodFall : exec .pwrGoodFall s = .next (finish s (pwrGoodFall s)) := run_wellFormed (i := .pwrGoodFall) s _ rfl
theorem exec_resetNFall : exec .resetNFall s = .next (finish s (resetNFall s)) := run_wellFormed (i := .resetNFall) s _ rfl
theorem exec_bootStart {pos : Nat} (head fuseOk : Bool) (hp : pos < 4) :
    exec (.bootStart head pos fuseOk) s = .next (finish s (bootStart head pos fuseOk s)) :=
  run_wellFormed (i := .bootStart head pos fuseOk) s _ (decide_eq_true hp)
theorem exec_memorySelfTestDone {die : Option Nat} {failed : List Nat} (trustOk codeOk : Bool) (hf : ∀ x ∈ failed, x < 272) (hd : ∀ d ∈ die, d < 8) :
    exec (.memorySelfTestDone die failed trustOk codeOk) s = .next (finish s (selfTestDone die failed trustOk codeOk s)) :=
  run_wellFormed (i := .memorySelfTestDone die failed trustOk codeOk) s _ (decide_eq_true ⟨hf, hd⟩)
theorem exec_vcoreSettle {d mv watts : Nat} (hd : d < 8) (hmv : mv < 65536) (hw : watts < 65536) :
    exec (.vcoreSettle d mv watts) s = .next (finish s (vcoreSettle d mv watts s)) :=
  run_wellFormed (i := .vcoreSettle d mv watts) s _ (decide_eq_true ⟨hd, hmv, hw⟩)
theorem exec_smbusRead {target : Nat} (data : List Byte) (pecOk : Bool) (ht : target < 128) :
    exec (.smbusRead target data pecOk) s = .next (finish s (smbusCall target 5 data pecOk (fun s => s.readReg (beNat data)) s)) :=
  run_wellFormed (i := .smbusRead target data pecOk) s _ (decide_eq_true ht)
theorem exec_smbusSnapRead {target : Nat} (data : List Byte) (pecOk : Bool) (ht : target < 128) :
    exec (.smbusSnapRead target data pecOk) s =
      .next (finish s (smbusCall target 6 data pecOk (fun s => s.readSnap (byteNat data 0 1) (byteNat data 1 5)) s)) :=
  run_wellFormed (i := .smbusSnapRead target data pecOk) s _ (decide_eq_true ht)
theorem exec_alertResponse : exec .alertResponse s = .next (finish s (alertResponse s)) := run_wellFormed (i := .alertResponse) s _ rfl
theorem exec_thermalTrip {d : Nat} (hd : d < 8) : exec (.thermalTrip d) s = .next (finish s (thermalTrip d s)) :=
  run_wellFormed (i := .thermalTrip d) s _ (decide_eq_true hd)
theorem exec_overcurrentTrip {d : Nat} (hd : d < 8) : exec (.overcurrentTrip d) s = .next (finish s (overcurrentTrip d s)) :=
  run_wellFormed (i := .overcurrentTrip d) s _ (decide_eq_true hd)

end

end Sys2Proof.Machine
end

section
/-! SUPPORT. Images and the board chain (R372, R379 to R385): what the head and a follower make of an image and of a chain frame. -/

namespace Sys2Proof.Machine

/-! ## The head -/

section
variable {s : State} {src pos t : Nat} {f : ChainFrame}

/-- The head reads the image of the source it tries, and goes on to the next source where a check fails. -/
theorem headStaged_of_turn (r : NvmRead) (hst : s.fld F.SL_STATUS_STATE = 2 ∨ (s.boot.applied = true ∧ (s.fld F.SL_STATUS_STATE = 3 ∨ s.fld F.SL_STATUS_STATE = 4)))
    (htry : s.boot.trying = src) (hend : s.boot.endAt = none) :
    headStaged src r s =
      (let absent := r.sfdpOk = false ∨ nvmMode r = 0 ∨ 2 ^ r.densityLog2 < 64 + 5518
       let u := ((s.setFld F.SL_NVM_MODE (if absent then 0 else nvmMode r) [src]).setFld F.SL_NVM_DENSITY_LOG2 r.densityLog2 [src]).setFld F.SL_NVM_JEDEC_ID r.jedec [src]
       let hdr := bytesOfLen 64 r.bytes
       let sig := bytesOfLen 5518 (r.bytes.drop (imageLen hdr))
       let img := bytesOfLen (imageLen hdr) r.bytes
       let bar := if absent then 2 else if headerOk hdr = true ∧ 2 ^ r.densityLog2 < imageLen hdr + 5518 then 3 else blockBar u hdr sig
       if bar ≠ 0 then nextSource (sourceResult src bar u)
       else
       let w := headApply src img sig (streamImage src img sig u)
       if w.boot.trying = src ∧ w.boot.endAt.isNone = true then { w with boot := { w.boot with trying := 2 } } else w) := by
  have hgo : ¬(src ≠ s.boot.trying ∨ s.boot.endAt.isSome = true ∨ (!decide (s.fld F.SL_STATUS_STATE = 2 ∨
      (s.boot.applied = true ∧ (s.fld F.SL_STATUS_STATE = 3 ∨ s.fld F.SL_STATUS_STATE = 4)))) = true) := by simp [htry, hend, hst]
  have habsent : (!r.sfdpOk || decide (nvmMode r = 0) || decide (2 ^ r.densityLog2 < 64 + seedBlock)) =
      decide (r.sfdpOk = false ∨ nvmMode r = 0 ∨ 2 ^ r.densityLog2 < 64 + 5518) := by
    simp [Bool.decide_or, Bool.or_assoc, seedBlock]
  rw [headStaged, if_neg hgo]
  simp only [habsent, decide_eq_true_eq]

theorem headFrame_of_error (hend : s.boot.endAt ≠ none) (hf : chainOk f = false) : headFrame f s = repeatSource s := by
  simp [headFrame, Option.isNone_iff_eq_none, hend, hf]

/-- STATUS of a position of the board, of the stream awaited. -/
theorem headFrame_of_status (hend : s.boot.endAt ≠ none) (hf : chainOk f = true) (ht : f.typ = 5) (hlen : f.payload.length = 3)
    (hatt : byteNat f.payload 2 1 = s.fld F.SL_STATUS_ATTEMPTS) (hlo : 1 ≤ byteNat f.payload 0 1) (hhi : byteNat f.payload 0 1 < s.boot.board) :
    headFrame f s = noteStatus (byteNat f.payload 0 1) (byteNat f.payload 1 1) s := by
  simp [headFrame, Option.isNone_iff_eq_none, hend, hf, ht, hlen, hatt, hlo, hhi]

theorem chainStatusTimeout_of_passed (hrole : s.fld F.SL_STATUS_ROLE = 1) (hlo : 1 ≤ pos) (hhi : pos < s.boot.board)
    (hnone : tabGet 0 s.boot.statuses [pos] = 0) (hend : s.boot.endAt = some t) (hgap : t + usUnits 100000 ≤ s.now) :
    chainStatusTimeout pos s = noteStatus pos 0x0C s := by
  simp only [chainStatusTimeout, hend]
  exact if_pos ⟨hrole, hlo, hhi, hnone, hgap⟩

end

/-! ## A follower -/

section
variable {s : State} {f : ChainFrame} {x : ChainStream}

/-- START: forwarded, and a stream begins. -/
theorem followerFrame_of_start (ht : f.typ = 1) (hf : chainOk f = true) (hlen : f.payload.length = 66) :
    followerFrame f s =
      (let u := (s.emit (.chain f)).setFld F.SL_STATUS_ATTEMPTS (min 7 (s.fld F.SL_STATUS_ATTEMPTS + 1))
       { u with boot := { s.boot with stream := some { source := byteNat f.payload 0 1, attempt := byteNat f.payload 1 1, header := f.payload.drop 2 } } }) := by
  have hstart : f.typ = 1 ∧ chainOk f = true ∧ f.payload.length = 66 := ⟨ht, hf, hlen⟩
  simp only [followerFrame, if_pos hstart]
  rfl

theorem stageFrame_eq (hx : x.ended = false) :
    stageFrame f x =
      if chainOk f = false then { x with bad := true }
      else if f.typ = 2 then { x with sig := x.sig ++ f.payload, bad := x.bad || decide (x.sig.length ≠ 4096 * f.seq) }
      else if f.typ = 3 then { x with data := x.data ++ f.payload, bad := x.bad || decide (x.data.length ≠ 4096 * f.seq) }
      else if f.typ = 4 then { x with ended := true } else x := by
  unfold stageFrame
  cases chainOk f
  · rfl
  · simp only [Bool.not_true, Bool.false_eq_true, if_false]
    split <;> simp_all

theorem stageFrame_attempt : (stageFrame f x).attempt = x.attempt := by
  unfold stageFrame
  split
  · rfl
  · split <;> rfl

/-- Another frame of a stream: forwarded and staged; a follower with an image of its own answers END. -/
theorem followerFrame_of_stream (ht : f.typ ≠ 1) (hx : s.boot.stream = some x) :
    followerFrame f s =
      (let u := s.emit (.chain f)
       if s.boot.applied = true ∧ (stageFrame f x).ended = true then
         { u.emit (.chain (statusFrame (s.fld F.SL_STATUS_POS) 1 x.attempt)) with boot := { s.boot with stream := none } }
       else { u with boot := { s.boot with stream := some (stageFrame f x) } }) := by
  have hstart : ¬(f.typ = 1 ∧ chainOk f = true ∧ f.payload.length = 66) := fun h => ht h.1
  simp only [followerFrame, if_neg hstart, State.emit_boot, hx, stageFrame_attempt]
  rfl

/-- What a follower makes of an image whose header and block have passed. -/
def followerApply (x : ChainStream) (s : State) : State :=
  match applyImage x.data x.sig s with
  | .error 7 => followerResult x 7 s
  | .error e => followerResult x e (s.setFld F.SL_TIMES_VERIFIED_MS (bootMs s))
  | .ok t => seedWith x.data.length 3 x.source (followerResult x 1 (t.setFld F.SL_TIMES_VERIFIED_MS (bootMs s)))

/-- A whole stream is checked, then applied; its result goes out on the chain. -/
theorem followerStaged_of_ended (hst : s.fld F.SL_STATUS_STATE = 2) (ha : s.boot.applied = false) (hx : s.boot.stream = some x) (he : x.ended = true) :
    followerStaged s =
      (let bar := if x.bad = true then 0x0C else if x.data.take 64 ≠ x.header ∨ x.data.length ≠ imageLen x.header then 3 else blockBar s x.header x.sig
       if bar ≠ 0 then followerResult x bar s else followerApply x s) := by
  have hgo : ¬((!x.ended) = true ∨ s.boot.applied = true ∨ s.fld F.SL_STATUS_STATE ≠ 2) := by simp [he, ha, hst]
  simp only [followerStaged, hx, if_neg hgo]
  by_cases hb : x.bad = true
  · simp only [if_pos hb]
    rfl
  · simp only [if_neg hb]
    rfl

theorem followerTimeout_of_passed (hrole : s.fld F.SL_STATUS_ROLE = 0) (ha : s.boot.applied = false)
    (hst : s.fld F.SL_STATUS_STATE = 1 ∨ s.fld F.SL_STATUS_STATE = 2) (hgap : s.boot.bootAt + usUnits 60000000 ≤ s.now) :
    followerTimeout s = (sourceResult 0 0x0D s).setFld F.SL_STATUS_STATE 5 :=
  if_pos ⟨hrole, by simp [ha], hst, hgap⟩

end

/-! ## The commands -/

section
variable (s : State)

theorem exec_imageStaged {src : Nat} {r : NvmRead} (hsrc : src < 3) (hden : r.densityLog2 < 64) (hid : r.jedec < 2 ^ 24) :
    exec (.imageStaged src r) s = .next (finish s (imageStaged src r s)) :=
  run_wellFormed (i := .imageStaged src r) s _ (decide_eq_true ⟨hsrc, hden, hid⟩)
theorem exec_chainFrameReceive {f : ChainFrame} (hf : f.wellFormed = true) :
    exec (.chainFrameReceive f) s = .next (finish s (chainFrameReceive f s)) :=
  run_wellFormed (i := .chainFrameReceive f) s _ (decide_eq_true hf)
theorem exec_chainStatusTimeout {pos : Nat} (hp : pos < 4) : exec (.chainStatusTimeout pos) s = .next (finish s (chainStatusTimeout pos s)) :=
  run_wellFormed (i := .chainStatusTimeout pos) s _ (decide_eq_true hp)
theorem exec_followerTimeout : exec .followerTimeout s = .next (finish s (followerTimeout s)) := run_wellFormed (i := .followerTimeout) s _ rfl

end

section
variable {s : State}

theorem imageStaged_of_head {src : Nat} {r : NvmRead} (hrole : s.fld F.SL_STATUS_ROLE = 1) (hsrc : src < 2) : imageStaged src r s = headStaged src r s := by
  rw [imageStaged, if_pos hrole, if_neg (by omega)]

theorem imageStaged_of_follower {r : NvmRead} (hrole : s.fld F.SL_STATUS_ROLE = 0) : imageStaged 2 r s = followerStaged s := by
  simp [imageStaged, hrole]

theorem chainFrameReceive_of_head {f : ChainFrame} (hrole : s.fld F.SL_STATUS_ROLE = 1) (hst : 2 ≤ s.fld F.SL_STATUS_STATE) :
    chainFrameReceive f s = headFrame f s := by
  rw [chainFrameReceive, if_neg hst.not_gt, if_pos hrole]

theorem chainFrameReceive_of_follower {f : ChainFrame} (hrole : s.fld F.SL_STATUS_ROLE = 0) (hst : 2 ≤ s.fld F.SL_STATUS_STATE) :
    chainFrameReceive f s = followerFrame f s := by
  rw [chainFrameReceive, if_neg hst.not_gt, if_neg (by omega)]

end

/-- Settles O52: each command acts by its equation; the head and a follower take an image and a chain frame each by their own. -/
theorem bootCommandsComplete : Obligations.BootCommandsComplete := by
  refine ⟨?vauxUp, ?vauxLoss, ?powerRise, ?powerFall, ?resetFall, ?bootStart, ?bootTest, ?dieTest, ?headImage, ?followerImage, ?chainStart, ?chainFrame,
    ?chainError, ?chainStatus, ?statusTimeout, ?followerTimeout, ?vcore, ?smbus, ?trips⟩
  case vauxUp =>
    intro s h
    rw [exec_vauxUp, vauxUp_of_absent h]
  case vauxLoss =>
    intro s
    refine ⟨_, exec_vauxLoss s, rfl, rfl, rfl, rfl, rfl, rfl, rfl, rfl, rfl, rfl, rfl, rfl, fun h => ⟨?trims, fun n w => ?_, fun n w => ?_, ?_⟩⟩
    case trims =>
      show (vauxLoss s).trust.trims = _
      simp only [vauxLoss, h]
      rfl
    all_goals
      rw [finish_fld_reg _ _ _ _ (by decide)]
      exact vauxLoss_fld h _ (by decide) (by decide)
  case powerRise =>
    intro s h
    rw [exec_pwrGoodRise, pwrGoodRise_of_vaux h]
  case powerFall =>
    intro s h
    rw [exec_pwrGoodFall, pwrGoodFall_of_good h]
  case resetFall =>
    intro s h
    rw [exec_resetNFall, resetNFall_of_high h]
    rfl
  case bootStart =>
    intro s base head fuseOk pos hpos hv hp ht hbase
    rw [exec_bootStart s head fuseOk hpos, bootStart_of_reset hv hp ht hbase, bootBegin_eq]
    rfl
  case bootTest =>
    intro s failed trustOk codeOk hf hst
    rw [exec_memorySelfTestDone s trustOk codeOk hf (by simp), selfTestDone, bootTested_of_testing hst]
  case dieTest =>
    intro s d failed trustOk codeOk r hd hf hr hb ht hk
    rw [exec_memorySelfTestDone s trustOk codeOk hf (by simpa using hd), selfTestDone, dieTested_of_request hr hb ht hk]
  case headImage =>
    intro s src r hsrc hden hid hrole hst htry hend
    rw [exec_imageStaged s (by omega) hden hid, imageStaged_of_head hrole hsrc, headStaged_of_turn r hst htry hend]
    rfl
  case followerImage =>
    intro s r x hden hid hrole hst ha hx he
    rw [exec_imageStaged s (by decide) hden hid, imageStaged_of_follower hrole, followerStaged_of_ended hst ha hx he]
    rfl
  case chainStart =>
    intro s f hf hrole hst ht hok hlen
    rw [exec_chainFrameReceive s hf, chainFrameReceive_of_follower hrole hst, followerFrame_of_start ht hok hlen]
  case chainFrame =>
    intro s f x hf hrole hst hx ht he
    rw [exec_chainFrameReceive s hf, chainFrameReceive_of_follower hrole hst, followerFrame_of_stream ht hx, stageFrame_eq he]
  case chainError =>
    intro s f hf hrole hst hend hok
    rw [exec_chainFrameReceive s hf, chainFrameReceive_of_head hrole hst, headFrame_of_error hend hok]
  case chainStatus =>
    intro s f hf hrole hst hend hok ht hlen hatt hlo hhi
    rw [exec_chainFrameReceive s hf, chainFrameReceive_of_head hrole hst, headFrame_of_status hend hok ht hlen hatt hlo hhi]
  case statusTimeout =>
    intro s pos t hp hrole hlo hhi hnone hend hgap
    rw [exec_chainStatusTimeout s hp, chainStatusTimeout_of_passed hrole hlo hhi hnone hend hgap]
  case followerTimeout =>
    intro s hrole ha hst hgap
    rw [exec_followerTimeout, followerTimeout_of_passed hrole ha hst hgap]
  case vcore =>
    intro s d mv watts hd hmv hw hp
    rw [exec_vcoreSettle s hd hmv hw, vcoreSettle_of_powered mv watts hp]
    simp only [vcoreTarget_setFld_package]
  case smbus =>
    intro s data pecOk hv ht
    refine ⟨?_, ?_, ?_⟩
    · rw [exec_smbusRead s data pecOk ht, smbusCall_of_own hv]
    · rw [exec_smbusSnapRead s data pecOk ht, smbusCall_of_own hv]
    · rw [exec_alertResponse, alertResponse_of_vaux hv]
  case trips =>
    intro s d hd hp
    refine ⟨?_, ?_⟩
    · rw [exec_thermalTrip s hd, thermalTrip_of_powered hp, allDiesOff]
    · rw [exec_overcurrentTrip s hd, overcurrentTrip_of_powered hp]

end Sys2Proof.Machine
end

section
/-! SUPPORT. The Safety Monitor's decisions on fault reports (R400, R402, R407, R408), hand-offs, the hang watch, permits and heartbeats, and the comparison of
the device monitors (R401, R404, R406, R410). -/

namespace Sys2Proof.Machine

/-! ## Fault reports (R402, R407) -/

/-- What a detected fault counts, logs and marks, with flags `fl`; its domains are in recovery from then on. -/
def noteFault (n : FaultNote) (doms : List (List Nat)) (fl : Nat) (s : State) : State :=
  let v := faultMarks n (faultEvent n fl (s.bump F.SM_STATUS_DETECTED)).1
  { v with safe := { v.safe with faults := v.safe.faults ++ doms.map (fun x => (x, n.unit)) } }

/-- The SEQ of its event. -/
def faultSeq (n : FaultNote) (fl : Nat) (s : State) : Nat := (faultEvent n fl (s.bump F.SM_STATUS_DETECTED)).2

section
variable {s : State} {n : FaultNote} {k : Nat} {dom : List Nat}

theorem domainsOf_of_field (hrow : n.row ∈ [1, 2, 4, 5]) (hk : s.slotOf n.field = some k) : domainsOf s n = [[0, k]] := by
  simp only [List.mem_cons, List.not_mem_nil, or_false] at hrow
  rcases hrow with h | h | h | h <;> simp [domainsOf, h, hk]

theorem domainsOf_of_die (hrow : n.row ∈ [6, 7, 8, 10]) : domainsOf s n = [[1, n.die]] := by
  simp only [List.mem_cons, List.not_mem_nil, or_false] at hrow
  rcases hrow with h | h | h | h <;> simp [domainsOf, h]

theorem isShared_of_field (hrow : n.row ∈ [1, 2, 4, 5]) : isShared s n = false := by
  simp only [List.mem_cons, List.not_mem_nil, or_false] at hrow
  rcases hrow with h | h | h | h <;> simp [isShared, h]

theorem isShared_of_die (hrow : n.row ∈ [6, 7, 8, 10]) : isShared s n = true := by
  simp only [List.mem_cons, List.not_mem_nil, or_false] at hrow
  rcases hrow with h | h | h | h <;> simp [isShared, h]

theorem row_ne_ten_of_field (hrow : n.row ∈ [1, 2, 4, 5]) : n.row ≠ 10 := by
  rintro h
  simp [h] at hrow

/-- The same unit of the domain has reported already. -/
theorem known_iff :
    ([dom] ≠ [] ∧ [dom].any (fun x => s.safe.faults.any (fun e => e.1 = x && e.2 = n.unit)) = true) ↔ (dom, n.unit) ∈ s.safe.faults := by
  simp only [ne_eq, List.cons_ne_nil, not_false_eq_true, true_and, List.any_cons, List.any_nil, Bool.or_false, List.any_eq_true, Bool.and_eq_true,
    decide_eq_true_eq]
  constructor
  · rintro ⟨⟨a, b⟩, he, rfl, rfl⟩
    exact he
  · exact fun he => ⟨_, he, rfl, rfl⟩

/-- The report silences the device: it is of a shared domain while anything is in recovery, or of a second failure of a replica. -/
def silencesDevice (n : FaultNote) (s : State) : Bool :=
  (s.safe.faults ≠ [] && isShared s n) || (n.row = 10 && decide (2 ≤ s.time.replicaFailures))

/-- The report silences its Field, which is in recovery or being reset. -/
def silencesField (dom : List Nat) (s : State) : Bool :=
  dom.headD 9 = 0 && (s.safe.faults.any (fun e => e.1 = dom) || resetting s (dom.getD 1 0))

/-- The Safety Monitor's decision on a detected fault. -/
theorem detectedFault_eq (n : FaultNote) (s : State) :
    detectedFault n s =
      (let doms := domainsOf s n
       if doms ≠ [] ∧ doms.any (fun x => s.safe.faults.any (fun e => e.1 = x && e.2 = n.unit)) = true then
         faultMarks n (s.log 0x0C 0x08 n.die (resetDetail 0 ((doms.headD []).getD 1 0) 0 ((doms.headD []).headD 0)) n.field)
       else
         let again := doms.filter (fun x => silencesField x s)
         let fl := if silencesDevice n s || again ≠ [] then 5 else if doms = [] || doms = [[3]] then 0 else 1
         let v := noteFault n doms fl s
         showRecovery (if silencesDevice n s then silenceDevice v else if again ≠ [] then v.forAll again (fun x t => silenceField (x.getD 1 0) t)
           else v.forAll doms (fun x t => domainAction n x (faultSeq n fl s) t))) := rfl

/-- A second report of the same unit is folded. -/
theorem detectedFault_of_known (hdom : domainsOf s n = [dom]) (h : (dom, n.unit) ∈ s.safe.faults) :
    detectedFault n s = faultMarks n (s.log 0x0C 0x08 n.die (resetDetail 0 (dom.getD 1 0) 0 (dom.headD 0)) n.field) := by
  simp only [detectedFault_eq, hdom, if_pos (known_iff.mpr h), List.headD_cons]

section
variable (hdom : domainsOf s n = [dom]) (h : (dom, n.unit) ∉ s.safe.faults)
include hdom h

theorem detectedFault_of_quiet (hquiet : silencesDevice n s = true) : detectedFault n s = showRecovery (silenceDevice (noteFault n [dom] 5 s)) := by
  simp only [detectedFault_eq, hdom, if_neg (mt known_iff.mp h), hquiet, Bool.true_or, if_true]

theorem detectedFault_of_again (hquiet : silencesDevice n s = false) (hagain : silencesField dom s = true) :
    detectedFault n s = showRecovery (silenceField (dom.getD 1 0) (noteFault n [dom] 5 s)) := by
  have hlist : [dom].filter (fun x => silencesField x s) = [dom] := List.filter_cons_of_pos hagain
  rw [detectedFault_eq, hdom]
  simp only [if_neg (mt known_iff.mp h)]
  simp only [hquiet, hlist, Bool.false_eq_true, if_false, ne_eq, List.cons_ne_nil, not_false_eq_true, decide_true, Bool.or_true, if_true]
  rfl

/-- The first fault of a domain: the domain's own action. -/
theorem detectedFault_of_first (hquiet : silencesDevice n s = false) (hagain : silencesField dom s = false) (hthree : dom ≠ [3]) :
    detectedFault n s = showRecovery (domainAction n dom (faultSeq n 1 s) (noteFault n [dom] 1 s)) := by
  have hlist : [dom].filter (fun x => silencesField x s) = [] := List.filter_cons_of_neg (by simp [hagain])
  have hkind : ¬([dom] = [] ∨ [dom] = [[3]]) := by simp [hthree]
  rw [detectedFault_eq, hdom]
  simp only [if_neg (mt known_iff.mp h)]
  simp only [hquiet, hlist, Bool.or_eq_true, decide_eq_true_eq, if_neg hkind, Bool.false_eq_true, if_false, ne_eq, not_true_eq_false, or_false]
  rfl

end

/-- Where nothing is in recovery, no report of a unit is folded. -/
theorem notMem_faults_of_nil {x : List Nat × List Nat} (h : s.safe.faults = []) : x ∉ s.safe.faults := by
  rw [h]
  exact List.not_mem_nil

theorem silencesDevice_of_field (hrow : n.row ∈ [1, 2, 4, 5]) : silencesDevice n s = false := by
  simp [silencesDevice, isShared_of_field hrow, row_ne_ten_of_field hrow]

theorem silencesDevice_of_die (hrow : n.row ∈ [6, 7, 8, 10]) :
    silencesDevice n s = true ↔ s.safe.faults ≠ [] ∨ (n.row = 10 ∧ 2 ≤ s.time.replicaFailures) := by
  simp [silencesDevice, isShared_of_die hrow]

theorem silencesField_of_quiet (hq : s.safe.faults = []) (hr : resetting s k = false) : silencesField [0, k] s = false := by
  simp [silencesField, hq, hr]

theorem silencesField_of_fault {w : List Nat} (h : ([0, k], w) ∈ s.safe.faults) : silencesField [0, k] s = true := by
  have hany : s.safe.faults.any (fun e => e.1 = [0, k]) = true := List.any_eq_true.mpr ⟨_, h, decide_eq_true rfl⟩
  simp [silencesField, hany]

theorem silencesField_of_die {d : Nat} : silencesField [1, d] s = false := by
  simp [silencesField]

/-- The state once the report has left the list of those to come. -/
def State.dropReport (n : FaultNote) (s : State) : State := { s with safe := { s.safe with reports := s.safe.reports.erase n } }

theorem faultReport_of_consequential (h : n.consequential = true) :
    faultReport n s = (faultEvent n 8 ((s.dropReport n).bump F.SM_STATUS_CONSEQUENTIAL)).1 := if_pos h

theorem faultReport_of_detected (h : n.consequential = false) : faultReport n s = detectedFault n (s.dropReport n) :=
  if_neg (by simp [h])

theorem exec_faultReport (h : n.wellFormed = true) : exec (.faultReport n) s = .next (finish s (faultReport n s)) :=
  run_wellFormed (i := .faultReport n) s _ (decide_eq_true h)

end

/-! ## Hand-offs, the hang watch, permits, heartbeats and the monitor pair (R401, R403, R406, R410) -/

section
variable {s : State}

theorem exec_handoffEnd {n : Nat} (h : n < 16) : exec (.handoffEnd n) s = .next (finish s (handoffEnd n s)) :=
  run_wellFormed (i := .handoffEnd n) s _ (decide_eq_true h)
theorem exec_hangStall {u : Stalled} (h : u.wellFormed = true) : exec (.hangStall u) s = .next (finish s (hangStall u s)) :=
  run_wellFormed (i := .hangStall u) s _ (decide_eq_true h)
theorem exec_portPermit {h : Nat} (beat : Bool) (hh : h < 16) : exec (.portPermit h beat) s = .next (finish s (portPermit h beat s)) :=
  run_wellFormed (i := .portPermit h beat) s _ (decide_eq_true hh)
theorem exec_permitLoss {h : Nat} (hh : h < 16) : exec (.permitLoss h) s = .next (finish s (permitLoss h s)) :=
  run_wellFormed (i := .permitLoss h) s _ (decide_eq_true hh)
theorem exec_heartbeatLoss {h : Nat} (hh : h < 16) : exec (.heartbeatLoss h) s = .next (finish s (heartbeatLoss h s)) :=
  run_wellFormed (i := .heartbeatLoss h) s _ (decide_eq_true hh)
theorem exec_monitorCompare (agree : Bool) : exec (.monitorCompare agree) s = .next (finish s (monitorCompare agree s)) :=
  run_wellFormed (i := .monitorCompare agree) s _ rfl

theorem handoffEnd_of_over {n a m : Nat} (hf : s.safe.handoffs.find? (fun e => e.1 = n) = some (a, m)) (h : handoffIdle s n = true ∨ m ≤ s.now) :
    handoffEnd n s = endHandoff n s := by
  simp only [handoffEnd, hf, if_pos h]

theorem unitWorks_iff {d t unit : Nat} : unitWorks s d t unit = true ↔ s.running d t unit ≠ none ∨ s.issueQ d t unit ≠ [] := by
  simp [unitWorks, Option.isSome_iff_ne_none]

theorem not_unpowered {d : Nat} (hp : s.fld F.SM_DIE_STATE_POWERED [d] = 1) : s.fld F.SM_DIE_STATE_POWERED [d] ≠ 0 := by
  rw [hp]
  exact one_ne_zero

/-- The state in which a stalled unit's stall is counted and the Waybill that runs on it, unless it has its status, is poisoned. -/
def poisonStalled (d t unit : Nat) (s : State) : State :=
  let u := s.bump F.SM_HANG_TILE_STALLS [d]
  match s.running d t unit with
  | some n => if (s.slot d t n).status = none then failRun d t n 0x05 0 (poisonStream d t n u) else u
  | none => u

theorem hangStall_tile {d t unit : Nat} (ht : s.tileExists d t = true) (hp : s.fld F.SM_DIE_STATE_POWERED [d] = 1)
    (hw : s.running d t unit ≠ none ∨ s.issueQ d t unit ≠ []) :
    hangStall (.tile d t unit) s =
      (let v := poisonStalled d t unit s
       v.report ⟨1, false, [20, d, t], d, d, (v.tileField d t).getD 0xFFFF, some (t / 64), true, 0x07, 0x01, true,
         hangDetail unit (tileRegion s d t) (s.pace d (tileRegion s d t)) (hangBound (s.pace d (tileRegion s d t)))⟩) := by
  have hgo : ¬(!s.tileExists d t || s.fld F.SM_DIE_STATE_POWERED [d] = 0 || !unitWorks s d t unit) = true := by
    simp [ht, not_unpowered hp, unitWorks_iff.mpr hw]
  exact if_neg hgo

theorem hangStall_shared {d unit region : Nat} (hp : s.fld F.SM_DIE_STATE_POWERED [d] = 1) :
    hangStall (.shared d unit region) s = (s.bump F.SM_HANG_SHARED_STALLS [d]).report
      ⟨7, false, [7, d, unit], d, d, 0xFFFF, none, true, 0x07, 0x02, false, hangDetail unit region (s.pace d region) (hangBound (s.pace d region))⟩ :=
  if_neg (not_unpowered hp)

theorem hangStall_crossing {d e : Nat} (hp : s.fld F.SM_DIE_STATE_POWERED [d] = 1) :
    hangStall (.crossing d e) s = (s.bump F.SM_HANG_SHARED_STALLS [d]).report
      ⟨9, false, [9, crossingIndex d e], d, e, 0xFFFF, none, true, 0x07, 0x03, false,
        hangDetail (crossingIndex d e) 4 (s.pace d 4) (hangBound (s.pace d 4))⟩ :=
  if_neg (not_unpowered hp)

section
variable {h : Nat} (hx : s.halfExists h = true) (hp : s.fld F.SM_DIE_STATE_POWERED [h / 2] = 1)
include hx hp

theorem portPermit_of_open {beat : Bool} (hw : (s.half h).withheld = false) (hs : s.fld F.SM_STATUS_STATE ≠ 2) :
    portPermit h beat s = s.setHalf h { s.half h with permitAt := s.now, heartbeatAt := if beat = true then s.now else (s.half h).heartbeatAt } := by
  have hgo : ¬(!s.halfExists h || (s.half h).withheld || s.fld F.SM_STATUS_STATE = 2 || s.fld F.SM_DIE_STATE_POWERED [h / 2] = 0) = true := by
    simp [hx, hw, hs, not_unpowered hp]
  exact if_neg hgo

theorem permitLoss_of_late (hm : (s.half h).permitAt + 64000 ≤ s.now) : permitLoss h s = silencePort h s :=
  if_pos ⟨hx, hp, hm⟩

theorem heartbeatLoss_of_late (hw : (s.half h).withheld = false) (hm : (s.half h).heartbeatAt + 64000 ≤ s.now) :
    heartbeatLoss h s = (goSilent h 2 (s.setHalf h { s.half h with withheld := true })).report
      ⟨11, false, [11, h], h / 2, h / 2, 0xFFFF, none, false, 0x0C, 0x04, false, resetDetail 0 h 0 0⟩ :=
  if_pos ⟨hx, hp, by simp [hw], hm⟩

end

end

/-- Settles O54: the branches of the monitor's decision, by the report's row and by what is in recovery, and one equation for each of the other commands. -/
theorem safetyCommandsComplete : Obligations.SafetyCommandsComplete := by
  unfold Obligations.SafetyCommandsComplete
  refine ⟨fun s n hn hc => ?consequential, fun s n k hn hc hrow hk hq hr => ?firstOfField, fun s n hn hc hrow hq hrep => ?firstOfDie,
    fun s n k hn hc hrow hk hf => ?folded, fun s n k w hn hc hrow hk hw hf => ?againInField, fun s n hn hc hrow hq hf => ?shared,
    fun s n a m hn hf hover => ?handoff, fun s d t unit hd ht hu hx hp hw => ?tileStall, fun s d unit region hd hu hr hp => ?sharedStall,
    fun s d e hd he hde hp => ?crossingStall, fun s h beat hh hx hw hs hp => ?permit, fun s h hh hx hp hm => ?permitLoss,
    fun s h hh hx hp hw hm => ?heartbeat, fun s agree => exec_monitorCompare agree⟩
  case consequential => rw [exec_faultReport hn, faultReport_of_consequential hc]; rfl
  case firstOfField =>
    rw [exec_faultReport hn, faultReport_of_detected hc, detectedFault_of_first (s := s.dropReport n) (dom := [0, k]) (domainsOf_of_field hrow hk)
      (notMem_faults_of_nil hq) (silencesDevice_of_field hrow) (silencesField_of_quiet hq hr) (by simp)]
    rfl
  case firstOfDie =>
    have hquiet : silencesDevice n (s.dropReport n) = false :=
      Bool.eq_false_iff.mpr fun h => ((silencesDevice_of_die hrow).mp h).elim (· hq) (fun ⟨h10, h2⟩ => (hrep h10).not_ge h2)
    rw [exec_faultReport hn, faultReport_of_detected hc, detectedFault_of_first (s := s.dropReport n) (dom := [1, n.die]) (domainsOf_of_die hrow)
      (notMem_faults_of_nil hq) hquiet silencesField_of_die (by simp)]
    rfl
  case folded =>
    rw [exec_faultReport hn, faultReport_of_detected hc, detectedFault_of_known (s := s.dropReport n) (dom := [0, k]) (domainsOf_of_field hrow hk) hf]
    rfl
  case againInField =>
    rw [exec_faultReport hn, faultReport_of_detected hc, detectedFault_of_again (s := s.dropReport n) (dom := [0, k]) (domainsOf_of_field hrow hk) hf
      (silencesDevice_of_field hrow) (silencesField_of_fault hw)]
    rfl
  case shared =>
    rw [exec_faultReport hn, faultReport_of_detected hc, detectedFault_of_quiet (s := s.dropReport n) (dom := [1, n.die]) (domainsOf_of_die hrow) hf
      ((silencesDevice_of_die hrow).mpr hq)]
    rfl
  case handoff => rw [exec_handoffEnd hn, handoffEnd_of_over hf hover]
  case tileStall =>
    rw [exec_hangStall (u := .tile d t unit) (decide_eq_true ⟨hd, ht, hu⟩), hangStall_tile hx hp hw]
    rfl
  case sharedStall => rw [exec_hangStall (u := .shared d unit region) (decide_eq_true ⟨hd, hu, hr⟩), hangStall_shared hp]
  case crossingStall =>
    rw [exec_hangStall (u := .crossing d e) (decide_eq_true ⟨hd, he, hde⟩), hangStall_crossing hp]
    rfl
  case permit => rw [exec_portPermit beat hh, portPermit_of_open hx hp hw hs]
  case permitLoss => rw [exec_permitLoss hh, permitLoss_of_late hx hp hm]; rfl
  case heartbeat => rw [exec_heartbeatLoss hh, heartbeatLoss_of_late hx hp hw hm]

end Sys2Proof.Machine
end

section
/-! SUPPORT. The requests of SM_RESET (R411 to R415), the event log (R422), the end of a sample (R419), Fallow rows (R424) and SM_ADMIT (R426). -/

namespace Sys2Proof.Machine

/-! ## Requests of SM_RESET (R411) -/

/-- The request of a write of `v` to SM_RESET has begun on its target. -/
def resetBegun (kind n v : Nat) (u : State) : State :=
  let t := ((u.setFld F.SM_RESET_SLOT (F.SM_RESET_SLOT.of v)).setFld F.SM_RESET_DIE (F.SM_RESET_DIE.of v)).setFld F.SM_RESET_RESULT 0
  { t with safe := { t.safe with request := some { kind := kind, target := n } } }

section
variable {s u : State} {pid kind : Nat} {k : Pkt} {y : RegSpec} {q : List Nat} {r : MgrReq} {p : Packet} {start : Nat → State → State}

theorem resetWrite_of_barred {v : Nat} (h : resetBar u kind (resetTarget kind v) ≠ 0) : resetWrite kind start y q v u = .error stState := if_pos h

theorem resetWrite_of_open {v : Nat} (h : resetBar u kind (resetTarget kind v) = 0) :
    resetWrite kind start y q v u = .ok (start (resetTarget kind v) (resetBegun kind (resetTarget kind v) v u)) := if_neg (not_not.mpr h)

/-- The answer of a request of SM_RESET: a refusal with its RESULT, or the register once the request has begun. -/
theorem replied_resetReq (hp : u.place r.addr = .reg y q) (hr : u.reach r.addr = stOk) (ha : u.accessOk y q r.value = true) :
    replied k (resetReq kind start r p u) =
      (let n := resetTarget kind r.value
       let w := start n (resetBegun kind n r.value u)
       if resetBar u kind n ≠ 0 then told k stState (noValue u) (resetOutcome kind n (resetBar u kind n) u.tick) else told k stOk (w.regWord y q) w) := by
  by_cases hb : resetBar u kind (resetTarget kind r.value) = 0
  · simp only [resetReq, writeReq, hp, hr, ha, resetWrite_of_open hb, hb]
    rfl
  · simp only [resetReq, writeReq, hp, hr, ha, resetWrite_of_barred hb, if_pos hb]
    rfl

theorem resetCmd_of_askedWrite {w : WriteRow} (h : AskedWrite s pid k u y q) (hw : writeRowOf y.reg (reqOf k.p).value = w) :
    resetCmd w kind start pid s =
      (let n := resetTarget kind (reqOf k.p).value
       let t := start n (resetBegun kind n (reqOf k.p).value u)
       if resetBar u kind n ≠ 0 then told k stState (noValue u) (resetOutcome kind n (resetBar u kind n) u.tick) else told k stOk (t.regWord y q) t) := by
  obtain ⟨hask, hop, hps, hpu, hr, ha⟩ := h
  rw [resetCmd, mgrRequest_of_asked hask (isWrite_of_reg hop hps hw), replied_resetReq hpu hr ha]

end

section
variable (pid : Nat) (s : State)

theorem exec_fieldReset : exec (.fieldReset pid) s = .next (finish s (resetCmd .fieldReset 1 startFieldReset pid s)) :=
  run_wellFormed (i := .fieldReset pid) s _ rfl
theorem exec_dieReset : exec (.dieReset pid) s = .next (finish s (resetCmd .dieReset 2 (startDieReset 2) pid s)) :=
  run_wellFormed (i := .dieReset pid) s _ rfl
theorem exec_deviceReset :
    exec (.deviceReset pid) s = .next (finish s
      (resetCmd .deviceReset 3 (fun _ t => startDeviceReset 2 { t with ni := { t.ni with closed := [], drained := [] } }) pid s)) :=
  run_wellFormed (i := .deviceReset pid) s _ rfl
theorem exec_diePowerDown : exec (.diePowerDown pid) s = .next (finish s (resetCmd .powerDown 4 (startDieReset 4) pid s)) :=
  run_wellFormed (i := .diePowerDown pid) s _ rfl
theorem exec_diePowerUp : exec (.diePowerUp pid) s = .next (finish s (resetCmd .powerUp 5 startPowerUp pid s)) :=
  run_wellFormed (i := .diePowerUp pid) s _ rfl
theorem exec_eventWrite : exec .eventWrite s = .next (finish s (eventWrite s)) := run_wellFormed (i := .eventWrite) s _ rfl
theorem exec_smFallowAt : exec (.smFallowAt pid) s = .next (finish s (writeCmd .fallowAt fallowWrite pid s)) :=
  run_wellFormed (i := .smFallowAt pid) s _ rfl
theorem exec_fallowSwitchIn {d : Nat} (hd : d < 8) : exec (.fallowSwitchIn d) s = .next (finish s (fallowSwitchIn d s)) :=
  run_wellFormed (i := .fallowSwitchIn d) s _ (decide_eq_true hd)
theorem exec_smAdmit : exec (.smAdmit pid) s = .next (finish s (writeCmd .admitArm admitWrite pid s)) :=
  run_wellFormed (i := .smAdmit pid) s _ rfl
theorem exec_dumpSampleDone : exec .dumpSampleDone s = .next (finish s (dumpSampleDone s)) := run_wellFormed (i := .dumpSampleDone) s _ rfl

end

/-! ## How the requests begin (R412 to R415) -/

section
variable {s : State} {r : ResetReq}

theorem startDieReset_of_request (kind d : Nat) (hr : s.safe.request = some r) :
    startDieReset kind d s =
      (let t : State := { s with safe := { s.safe with request := some { r with regs := dieRegs s d } } }
       let c := closeGate (.die d) t
       let w := cancelFallow d (cancelSnaps (some d) (c.forAll (slotsOnDie c d) (fun n x => fenceField n false x)))
       if w.fld F.SM_DIE_STATE_FENCED [d] = 1 then dieSample kind d { w with ni := { w.ni with drained := w.ni.drained ++ [.die d] } } else w) := by
  simp only [startDieReset, hr, Option.map_some]

/-- The sample's cause is 3 for a die reset and 4 for a power-down (R419). -/
theorem dieSample_eq (kind d : Nat) (s : State) :
    dieSample kind d s =
      beginSample (if kind = 4 then 4 else kind + 1) (2 ^ d) false (linksDown [2 * d, 2 * d + 1] (if kind = 4 then 4 else 3) s) := by
  unfold dieSample
  split
  · next h => simp [h, b2n]
  · next h => simp [h, b2n]

theorem startPowerUp_of_request (d : Nat) (hr : s.safe.request = some r) :
    startPowerUp d s =
      rampDie d { s with safe := { s.safe with request := some { r with regs := s.boot.kept.filter (fun e => e.1.getD 2 0 = d), begun := true } } } := by
  simp only [startPowerUp, hr, Option.map_some]

/-- A device reset cuts no sample short where the request is no die reset. -/
theorem startDeviceReset_of_request (cause : Nat) (hr : s.safe.request = some r) (hk : r.kind ≠ 2) :
    startDeviceReset cause s = beginSample cause 0xFF false (linksDown (List.range 16) 3 s) := by
  simp [startDeviceReset, hr, hk]

/-! ## The end of a sample (R419) -/

theorem dumpSampleDone_of_sample {x : Sample} (hx : s.recorder.sample = some x) : dumpSampleDone s = afterSample x.cause (storeDump s) := by
  simp only [dumpSampleDone, hx]

theorem afterSample_eq (cause : Nat) (s : State) :
    afterSample cause s = if cause = 1 then deviceReset false s else if cause = 2 then deviceReset true (endRequest 1 s) else afterDieSample s := by
  unfold afterSample
  split
  · rfl
  · rfl
  · next h1 h2 => rw [if_neg h1, if_neg h2]

theorem afterDieSample_of_reset (hr : s.safe.request = some r) (hk : r.kind = 2) :
    afterDieSample s = (let t := resetDieUnits r.target s; { t with safe := { t.safe with request := some { r with begun := true } } }) := by
  simp only [afterDieSample, hr, hk, if_true]

theorem afterDieSample_of_powerDown (hr : s.safe.request = some r) (hk : r.kind = 4) :
    afterDieSample s = endRequest 1 (dieOff r.target (resetDieUnits r.target (keepDie r.target r.regs s))) := by
  simp only [afterDieSample, hr]
  rw [if_neg (by omega), if_pos hk]

/-! ## The event log (R422) -/

theorem eventWrite_of_cons {e : Event} {l : List Event} (h : s.recorder.fifo = e :: l) :
    eventWrite s =
      (let t : State := { s with recorder := { s.recorder with fifo := l } }
       let u := publish e (t.setFld F.EV_STATUS_FIFO_DEPTH l.length)
       let v := u.forAll ((List.range 16).filter (fun c => u.recorder.lostSince.testBit c)) lostRecord
       if l = [] then { v with recorder := { v.recorder with lostSince := 0 } } else u) := by
  simp only [eventWrite, h]

/-! ## Fallow rows (R424) and SM_ADMIT (R426) -/

theorem fallowWrite_of_free {y : RegSpec} {d m : Nat} (hbar : launchBar s m = stOk) (hm : s.boundaryOk m = true)
    (hrow : s.fld F.SM_FALLOW_REQ_LROW [d] < s.rowsPerDie) (hact : rowActive s d (s.fld F.SM_FALLOW_REQ_LROW [d]) = false)
    (hentry : (fallowEntry s d).2 = (true, false)) (hpend : s.fld F.SM_FALLOW_REQ_PENDING [d] = 0) :
    fallowWrite y [d] m s = .ok (((s.armGate (.fallow d) m).setFld F.SM_FALLOW_REQ_PENDING 1 [d]).setFld F.SM_FALLOW_AT_COUNT m [d]) := by
  have hin : ¬(launchBar s m = stOk ∧ (!s.boundaryOk m) = true) := by simp [hm]
  have husable : (fallowEntry s d).2.1 = true := by rw [hentry]
  have hfree : (fallowEntry s d).2.2 = false := by rw [hentry]
  simp only [fallowWrite, if_neg hin, armWrite_of_open hbar, List.headD_cons]
  simp [hrow, hact, husable, hfree, hpend]

theorem fallowSwitchIn_of_open {d m : Nat} (hg : s.gateAt (.fallow d) = some m) (ho : s.gateOpen d m = true) :
    fallowSwitchIn d s =
      if rowActive s d (s.fld F.SM_FALLOW_REQ_LROW [d]) = true ∨ s.dieFenced d = true then cancelFallow d s else switchIn d s := by
  simp only [fallowSwitchIn, hg, if_pos ho]

theorem admitWrite_of_ok {y : RegSpec} {q : List Nat} {v : Nat} {t : State} (ht : s.timeValid = true) (hw : plainWrite y q v s = .ok t) :
    admitWrite y q v s = .ok ((t.setFld F.SM_ADMIT_ARMED 1).setFld F.SM_ADMIT_RESULT 0) := by
  have hgo : ¬(!s.timeValid) = true := by simp [ht]
  rw [admitWrite, if_neg hgo, hw]
  rfl

end

/-- The row of a KIND of SM_RESET. -/
def resetRowOf (kind : Nat) : WriteRow :=
  match kind with
  | 1 => .fieldReset
  | 2 => .dieReset
  | 3 => .deviceReset
  | 4 => .powerDown
  | 5 => .powerUp
  | _ => .plain

theorem writeRowOf_smReset {y : RegSpec} {v kind : Nat} (hy : y.reg = .SM_RESET) (hv : v % 8 = kind) : writeRowOf y.reg v = resetRowOf kind := by
  rw [hy, ← hv]
  rfl

/-- Settles O55: the answer to a request of SM_RESET once for every KIND, and one equation for each of the other commands and for the start and the end of a reset. -/
theorem resetCommandsComplete : Obligations.ResetCommandsComplete := by
  unfold Obligations.ResetCommandsComplete
  refine ⟨fun s u pid k y q h hy => ⟨fun hv => ?field, fun hv => ?die, fun hv => ?device, fun hv => ?down, fun hv => ?up⟩, fun s kind d r hr => ?start,
    fun s e l h => ?event, fun s u pid d k y q h hy hq => ?fallow, fun s d m hd hg ho => ?switchIn, fun s u v pid k y q h hy ht hw => ?admitted,
    fun s x hx => ?sample, fun s r hr hk => afterDieSample_of_reset hr hk, fun s r hr hk => afterDieSample_of_powerDown hr hk⟩
  case field => rw [exec_fieldReset, resetCmd_of_askedWrite (w := .fieldReset) h (writeRowOf_smReset hy hv)]; rfl
  case die => rw [exec_dieReset, resetCmd_of_askedWrite (w := .dieReset) h (writeRowOf_smReset hy hv)]; rfl
  case device =>
    rw [exec_deviceReset, resetCmd_of_askedWrite (w := .deviceReset) h (writeRowOf_smReset hy hv)]
    simp only [startDeviceReset_of_request 2 (s := { resetBegun 3 _ _ u with ni := _ }) rfl (show (3 : Nat) ≠ 2 by decide)]
    rfl
  case down => rw [exec_diePowerDown, resetCmd_of_askedWrite (w := .powerDown) h (writeRowOf_smReset hy hv)]; rfl
  case up =>
    rw [exec_diePowerUp, resetCmd_of_askedWrite (w := .powerUp) h (writeRowOf_smReset hy hv)]
    simp only [startPowerUp_of_request (s := resetBegun 5 _ _ u) _ rfl]
    rfl
  case start => simp only [startDieReset_of_request kind d hr, dieSample_eq]
  case event => rw [exec_eventWrite, eventWrite_of_cons h]
  case fallow =>
    subst hq
    intro m r hbar hm hrow hact hentry hpend
    rw [exec_of_askedWrite h (exec_smFallowAt pid s) (by rw [hy]; rfl) (fallowWrite_of_free hbar hm hrow hact hentry hpend), answered_ok]
  case switchIn => rw [exec_fallowSwitchIn s hd, fallowSwitchIn_of_open hg ho]; rfl
  case admitted => rw [exec_of_askedWrite h (exec_smAdmit pid s) (by rw [hy]; rfl) (admitWrite_of_ok ht hw), answered_ok]
  case sample => rw [exec_dumpSampleDone, dumpSampleDone_of_sample hx, afterSample_eq]

end Sys2Proof.Machine
end
